-- ==== Sys2Proof/Word.lean ====
section
/-! DEFINITION. The word types of the CGV-4620 node and the shape of a sparse table. -/
namespace Sys2Proof

/-- One byte. -/
abbrev Byte := BitVec 8
/-- One 32-bit scalar register (R57). -/
abbrev W32 := BitVec 32
/-- One 64-bit value: an instruction word, a virtual address, a register pair (R58, R60). -/
abbrev W64 := BitVec 64
/-- A 48-bit node physical address (R15). -/
abbrev PA := BitVec 48
/-- A byte string in address or wire order. -/
abbrev Bytes := List Byte
/-- A sparse table: pairs of an index and a value, indices strictly rising, no entry equal to the
value an unlisted index reads as. The operations are in Machine/Bits.lean. -/
abbrev Sparse (α : Type) := List (Nat × α)

end Sys2Proof
end

