-- ==== Sys2Proof/Syntax.lean ====
section
/-! DEFINITION. The commands of the block: one constructor of `Instr` for each row of
spec/opcode_table.json, and the types of their operands. -/
namespace Sys2Proof

/-- A thread group: its cluster (linear index, R10), scheduler and group slot (R56). -/
structure GroupId where
  cluster : Fin 512
  sched : Fin 4
  slot : Fin 16
  deriving DecidableEq, Repr

/-- The fields of an instruction word below CLASS and OP (R60). `low` holds bits 23:0: RS2, RS3 and
AUX in the RRR form, IMM24 in the RI form. CLASS and OP are the row's own, unless `other` gives the word
other ones (CLASS in 11:8, OP in 7:0): a word whose CLASS or OP is reserved belongs to no row, and comes
under the row of any group instruction (R61). -/
structure Fields where
  type : BitVec 4 := 0
  form : BitVec 2 := 0
  mod : BitVec 6 := 0
  rd : BitVec 8 := 0
  rs1 : BitVec 8 := 0
  low : BitVec 24 := 0
  other : Option (BitVec 12) := none
  deriving DecidableEq, Repr

/-- A launch queue: partition and queue (R325). -/
structure QueueId where
  part : Fin 8
  queue : Fin 64
  deriving DecidableEq, Repr

/-- A PCIe function of a port: 0 is the PF, 1 to 8 the VFs (R321). -/
structure Fn where
  port : Fin 2
  vf : Fin 9
  deriving DecidableEq, Repr

/-- Who makes a register access: a function of a PCIe port through its BARs, or an agent of the
node (a core, a group's store, another die) through the register window (R19, R323). -/
inductive Requester where
  | function (fn : Fn)
  | node
  deriving DecidableEq, Repr

/-- What a read of a launch ring returns when the ring lies in the host window (R325, R327): the
64-byte record, or a failed or poisoned read. Not used for a ring in node memory. -/
inductive HostRecord where
  | record (r : BitVec 512)
  | failed
  deriving DecidableEq, Repr

/-- The completion of a read through a host window (R331). -/
inductive HostData where
  | ok (data : Bytes)
  | unsupportedRequest
  | completerAbort
  deriving DecidableEq, Repr

/-- The operand size of a PCIe AtomicOp (R324). -/
inductive AtomicSize where
  | b32 | b64 | b128
  deriving DecidableEq, Repr

/-- A configuration request: a 32-bit read, or a write with its byte enables (R320). -/
inductive CfgAccess where
  | read
  | write (value : W32) (enables : BitVec 4)
  deriving DecidableEq, Repr

/-- An inbound request on a root port (R340). -/
inductive InboundReq where
  | memRead (addr : PA) (len : BitVec 13)
  | memWrite (addr : PA) (data : Bytes)
  | other
  deriving DecidableEq, Repr

/-- An ATS Translation Completion (R259): its size, translated address and permissions. -/
structure AtsCompletion where
  log2size : Fin 64
  addr : W64
  read : Bool
  write : Bool
  deriving DecidableEq, Repr

/-- A ferry commit carried by a scratchpad write (R274): kernel, ferry, consumer cluster, handle. -/
structure FerryCommit where
  kernel : Nat
  ferry : Fin 64
  queue : Fin 512
  handle : W64
  deriving DecidableEq, Repr

/-- A die's telemetry (R350): power in W, hottest junction and, for a Kysar die, the hottest DRAM
temperature of each of its stacks, in tenths of a degree. -/
structure Telemetry where
  power : Nat
  junction : Int
  dram : List Int
  deriving DecidableEq, Repr

/-- One direction of a Grentirus link: the link and whether the sender is its second end (R12). -/
structure LinkDir where
  link : Fin 19
  rev : Bool
  deriving DecidableEq, Repr

/-- A data flit on its way: the flit, and the bits its way changes. -/
structure WireFlit where
  bits : BitVec 2048
  noise : BitVec 2048 := 0
  deriving DecidableEq, Repr

/-- A NAK flit, and how many of the replays its receiver has counted lie further back than 4 µs (R279). -/
structure NakFlit where
  bits : BitVec 2048
  old : Nat := 0
  deriving DecidableEq, Repr

/-- A direction whose replay is due, and how many of the replays counted lie further back than 4 µs (R278, R279). -/
structure ReplayDue where
  dir : LinkDir
  old : Nat := 0
  deriving DecidableEq, Repr

/-- A control flit and the direction it arrives by (R271). -/
structure ControlFlit where
  dir : LinkDir
  bits : BitVec 2048
  deriving DecidableEq, Repr

/-- The SRC of a package request: its code, and whether the request is non-coherent (R273, R280). -/
structure RequestSource where
  ncr : Bool
  src : Fin 13
  deriving DecidableEq, Repr

/-- What the links' first training meets: the links that fail, and the failed lanes of the others (R269, R413). -/
structure LinkOutcome where
  failed : BitVec 19
  lanes : List (LinkDir × BitVec 8) := []
  deriving DecidableEq, Repr

/-- A package message: its 128-bit header slot (R273) and the slots that follow (R274). -/
structure Message where
  header : BitVec 128
  slots : List (BitVec 128)
  deriving DecidableEq, Repr

/-- The capability words one end of a link sends in CAPS (R281). -/
structure CapWords where
  cap0 : W64
  cap1 : W64
  windows : List W64
  deriving DecidableEq, Repr

/-- A received NCT frame (R290, R294): the sub-port of its port it arrived on, its IPv6 and UDP fields
(`udpPort` is the source port), NCT header and payload. `wellFormed` says that its FCS and UDP checksum hold, its
EtherType is 86DDh and its IPv6 header has no extension header. -/
structure NctIn where
  wellFormed : Bool
  sub : Fin 4
  hopLimit : BitVec 8
  dscp : BitVec 6
  ecn : BitVec 2
  flowLabel : BitVec 20
  src : BitVec 128
  udpPort : BitVec 16
  udpDst : BitVec 16
  header : BitVec 384
  payload : Bytes
  deriving DecidableEq, Repr

/-- A flow end: its hub, the group table index and the other member (R293). -/
structure FlowId where
  hub : Fin 2
  group : Fin 4096
  member : BitVec 17
  deriving DecidableEq, Repr

/-- A sub-port of a network port (R288). -/
structure SubPort where
  port : Fin 12
  sub : Fin 4
  deriving DecidableEq, Repr

/-- What a read of a stored sector finds (R183): no error, or that many symbols in error. -/
inductive SectorError where
  | symbols (n : Fin 37) (row : BitVec 18)
  | parity
  deriving DecidableEq, Repr

/-- What the copy of one granule meets (R195, R368): clean sectors, uncorrectable sectors of the old
pseudo-channel (a mask of its eight sectors), or a fault of the slot. -/
inductive FillError where
  | sectors (bad : BitVec 8)
  | slotFault
  deriving DecidableEq, Repr

/-- The role a dictionary request is served in (R388). -/
inductive Role where
  | observer
  | partition (p : Fin 8)
  | operator
  | owner
  deriving DecidableEq, Repr

/-- The channel of a dictionary request, with its source (R389, R397). -/
inductive Channel where
  | t1s (secondary : Bool) (mac : BitVec 48)
  | mailbox (fn : Fn)
  | core (p : Fin 8)
  | inBand (ip : BitVec 128) (udpPort : BitVec 16)
  deriving DecidableEq, Repr

/-- A part whose temperature is sampled (R357). Base dies carry their stack's number. -/
inductive ThermalPart where
  | die (d : Fin 9)
  | baseDie (s : Fin 16)
  | dram (s : Fin 16)
  deriving DecidableEq, Repr

/-- A boundary of the flush handshake (R433). -/
inductive Boundary where
  | cluster (c : Fin 512)
  | pcie (p : Fin 2)
  | network (p : Fin 12)
  deriving DecidableEq, Repr

/-- The transport of an SPDM request (R422). -/
inductive SpdmTransport where
  | doe (port : Fin 2)
  | ethernet (secondary : Bool) (mac : BitVec 48)
  deriving DecidableEq, Repr

/-- A core's access to a window (R338). -/
inductive CoreOp where
  | load | store | fetch | amo | lr | sc
  deriving DecidableEq, Repr

/-- The AMOs of RVA23. -/
inductive AmoOp where
  | swap | add | xor | and | or | min | max | minu | maxu
  deriving DecidableEq, Repr

/-- A core access: operation, physical address, width in bytes (1 to 64), the store or AMO operand, the AMO, and
the leaf's PBMT. -/
structure CoreAccess where
  op : CoreOp
  addr : PA
  width : BitVec 7
  value : BitVec 512 := 0
  amo : AmoOp := .swap
  pbmt : BitVec 2 := 0
  deriving DecidableEq, Repr

/-- The cache-block operations of a core (R339). -/
inductive CboOp where
  | clean | flush | inval
  deriving DecidableEq, Repr

/-- The commands: one constructor for each row of spec/opcode_table.json. -/
inductive Instr where
  /-- ADD (R64). INT ADD writes RS1 plus RS2 or the sign-extended IMM24 to RD in each active lane, wrapping. -/
  | intAdd (g : GroupId) (w : Fields)
  /-- SUB (R64). INT SUB writes RS1 minus RS2 or IMM24 to RD, wrapping. -/
  | intSub (g : GroupId) (w : Fields)
  /-- AND (R64). INT AND writes the bitwise AND of RS1 and RS2 or the zero-extended IMM24. -/
  | intAnd (g : GroupId) (w : Fields)
  /-- OR (R64). INT OR writes the bitwise OR of RS1 and RS2 or the zero-extended IMM24. -/
  | intOr (g : GroupId) (w : Fields)
  /-- XOR (R64). INT XOR writes the bitwise XOR of RS1 and RS2 or the zero-extended IMM24. -/
  | intXor (g : GroupId) (w : Fields)
  /-- NOT (R64). INT NOT writes the bitwise complement of RS1. -/
  | intNot (g : GroupId) (w : Fields)
  /-- SHL (R64). Shifts RS1 left by a count taken modulo the operand width. -/
  | intShl (g : GroupId) (w : Fields)
  /-- SHR (R64). Shifts RS1 logically right by a count taken modulo the operand width. -/
  | intShr (g : GroupId) (w : Fields)
  /-- SRA (R64). Shifts RS1 arithmetically right by a count taken modulo the operand width. -/
  | intSra (g : GroupId) (w : Fields)
  /-- ROT (R64). Rotates RS1 left by a count taken modulo the operand width. -/
  | intRot (g : GroupId) (w : Fields)
  /-- MOV (R64). Copies RS1, or the sign-extended IMM24, to RD. -/
  | intMov (g : GroupId) (w : Fields)
  /-- LIH (R64). Writes IMM24 bits 15:0 times 65,536 to RD. -/
  | intLih (g : GroupId) (w : Fields)
  /-- CLZ (R64). Writes the number of leading zero bits of RS1 at the operand width. -/
  | intClz (g : GroupId) (w : Fields)
  /-- POPC (R64). Writes the number of set bits of RS1 at the operand width. -/
  | intPopc (g : GroupId) (w : Fields)
  /-- MUL (R64). IMD MUL writes the low half of the product. -/
  | imdMul (g : GroupId) (w : Fields)
  /-- MULHI (R64). Writes the high half of the double-width signed or unsigned product. -/
  | imdMulhi (g : GroupId) (w : Fields)
  /-- DIV (R65). Integer division rounding toward zero, with the defined results for division by zero and overflow, occupying the iterative unit. -/
  | imdDiv (g : GroupId) (w : Fields)
  /-- REM (R65). Integer remainder with the dividend's sign, with the defined results for division by zero and overflow. -/
  | imdRem (g : GroupId) (w : Fields)
  /-- F32_ADD (R87). fp32 addition, correctly rounded, setting sticky flags. -/
  | f32Add (g : GroupId) (w : Fields)
  /-- F32_SUB (R87). fp32 subtraction, correctly rounded. -/
  | f32Sub (g : GroupId) (w : Fields)
  /-- F32_MUL (R87). fp32 multiplication, correctly rounded. -/
  | f32Mul (g : GroupId) (w : Fields)
  /-- F32_FMA (R87). fp32 fused multiply-add with one rounding. -/
  | f32Fma (g : GroupId) (w : Fields)
  /-- F32_MIN (R87). fp32 minimum propagating NaN, with -0 below +0. -/
  | f32Min (g : GroupId) (w : Fields)
  /-- F32_MAX (R87). fp32 maximum propagating NaN, with -0 below +0. -/
  | f32Max (g : GroupId) (w : Fields)
  /-- F32_ABS (R64). Clears the sign bit of an fp32 value. -/
  | f32Abs (g : GroupId) (w : Fields)
  /-- F32_NEG (R64). Inverts the sign bit of an fp32 value. -/
  | f32Neg (g : GroupId) (w : Fields)
  /-- F32_DIV (R87). fp32 division, correctly rounded, on the iterative unit. -/
  | f32Div (g : GroupId) (w : Fields)
  /-- F32_SQRT (R87). fp32 square root, correctly rounded, on the iterative unit. -/
  | f32Sqrt (g : GroupId) (w : Fields)
  /-- F64_ADD (R87). fp64 addition, correctly rounded, with D-class lane occupancy. -/
  | f64Add (g : GroupId) (w : Fields)
  /-- F64_SUB (R87). fp64 subtraction, correctly rounded. -/
  | f64Sub (g : GroupId) (w : Fields)
  /-- F64_MUL (R87). fp64 multiplication, correctly rounded. -/
  | f64Mul (g : GroupId) (w : Fields)
  /-- F64_FMA (R87). fp64 fused multiply-add with one rounding. -/
  | f64Fma (g : GroupId) (w : Fields)
  /-- F64_MIN (R87). fp64 minimum propagating NaN. -/
  | f64Min (g : GroupId) (w : Fields)
  /-- F64_MAX (R87). fp64 maximum propagating NaN. -/
  | f64Max (g : GroupId) (w : Fields)
  /-- F64_ABS (R64). Clears the sign bit of an fp64 value. -/
  | f64Abs (g : GroupId) (w : Fields)
  /-- F64_NEG (R64). Inverts the sign bit of an fp64 value. -/
  | f64Neg (g : GroupId) (w : Fields)
  /-- F64_DIV (R87). fp64 division, correctly rounded, on the iterative unit. -/
  | f64Div (g : GroupId) (w : Fields)
  /-- F64_SQRT (R87). fp64 square root, correctly rounded, on the iterative unit. -/
  | f64Sqrt (g : GroupId) (w : Fields)
  /-- EQ (R64). Writes 1 when RS1 equals RS2 or IMM24, else 0, with NaN and signed-zero rules. -/
  | cmpEq (g : GroupId) (w : Fields)
  /-- NE (R64). Writes 1 when RS1 differs from RS2 or IMM24, else 0. -/
  | cmpNe (g : GroupId) (w : Fields)
  /-- LT (R64). Writes 1 when RS1 is less than RS2 or IMM24, else 0. -/
  | cmpLt (g : GroupId) (w : Fields)
  /-- LE (R64). Writes 1 when RS1 is at most RS2 or IMM24, else 0. -/
  | cmpLe (g : GroupId) (w : Fields)
  /-- SEL (R64). Writes RS1 when RS3 is non-zero, else RS2. -/
  | cmpSel (g : GroupId) (w : Fields)
  /-- CVT (R88). Converts between scalar types by the conversion classes. -/
  | cvtCvt (g : GroupId) (w : Fields)
  /-- CVTE (R90). Converts a scalar value into an element format held in RD. -/
  | cvtCvte (g : GroupId) (w : Fields)
  /-- ECVT (R90). Converts an element-format value in RS1 to a scalar type. -/
  | cvtEcvt (g : GroupId) (w : Fields)
  /-- LD8 (R66). Loads a sign-extended byte from memory or scratchpad. -/
  | memLd8 (g : GroupId) (w : Fields)
  /-- LD8U (R66). Loads a zero-extended byte. -/
  | memLd8u (g : GroupId) (w : Fields)
  /-- LD16 (R66). Loads a sign-extended 16-bit value. -/
  | memLd16 (g : GroupId) (w : Fields)
  /-- LD16U (R66). Loads a zero-extended 16-bit value. -/
  | memLd16u (g : GroupId) (w : Fields)
  /-- LD32 (R66). Loads a 32-bit value, looking up the L1 and blocking on a miss. -/
  | memLd32 (g : GroupId) (w : Fields)
  /-- LD64 (R66). Loads a 64-bit value into a register pair. -/
  | memLd64 (g : GroupId) (w : Fields)
  /-- ST8 (R159). Stores a byte through the write buffer or directly to scratchpad. -/
  | memSt8 (g : GroupId) (w : Fields)
  /-- ST16 (R159). Stores 16 bits through the write buffer or to scratchpad. -/
  | memSt16 (g : GroupId) (w : Fields)
  /-- ST32 (R159). Stores 32 bits through the write buffer or to scratchpad. -/
  | memSt32 (g : GroupId) (w : Fields)
  /-- ST64 (R159). Stores a register pair through the write buffer or to scratchpad. -/
  | memSt64 (g : GroupId) (w : Fields)
  /-- PF (R163). Prefetches one line into the prefetch side buffer without blocking or faulting. -/
  | memPf (g : GroupId) (w : Fields)
  /-- MEM_ATOMIC_ADD (R221). Combines the active lanes per address and sends one ADD adder operation for each. -/
  | atomAdd (g : GroupId) (w : Fields) (order : BitVec 2) (fetch : Bool)
  /-- MEM_ATOMIC_MIN (R221). Combines lanes per address and sends one MIN adder operation. -/
  | atomMin (g : GroupId) (w : Fields) (order : BitVec 2) (fetch : Bool)
  /-- MEM_ATOMIC_MAX (R221). Combines lanes per address and sends one MAX adder operation. -/
  | atomMax (g : GroupId) (w : Fields) (order : BitVec 2) (fetch : Bool)
  /-- MEM_ATOMIC_AND (R221). Combines lanes per address and sends one AND adder operation. -/
  | atomAnd (g : GroupId) (w : Fields) (order : BitVec 2) (fetch : Bool)
  /-- MEM_ATOMIC_OR (R221). Combines lanes per address and sends one OR adder operation. -/
  | atomOr (g : GroupId) (w : Fields) (order : BitVec 2) (fetch : Bool)
  /-- MEM_ATOMIC_XOR (R221). Combines lanes per address and sends one XOR adder operation. -/
  | atomXor (g : GroupId) (w : Fields) (order : BitVec 2) (fetch : Bool)
  /-- MEM_ATOMIC_SWAP (R221). Combines lanes per address into one SWAP, chaining old values through the lanes. -/
  | atomSwap (g : GroupId) (w : Fields) (order : BitVec 2) (fetch : Bool)
  /-- MEM_ATOMIC_CAS (R221). Sends one uncombined CAS per lane in ascending lane order. -/
  | atomCas (g : GroupId) (w : Fields) (order : BitVec 2) (fetch : Bool)
  /-- BR (R73). Branches the whole group to PC plus 8 times IMM24. -/
  | ctlBr (g : GroupId) (w : Fields)
  /-- BRMZ (R73). Branches when the active mask is zero. -/
  | ctlBrmz (g : GroupId) (w : Fields)
  /-- BRANY (R73). Branches when any active lane has RS1 non-zero. -/
  | ctlBrany (g : GroupId) (w : Fields)
  /-- BRALL (R73). Branches when the mask is non-zero and every active lane has RS1 non-zero. -/
  | ctlBrall (g : GroupId) (w : Fields)
  /-- BRI (R73). Branches to the address in RS1, faulting if active lanes disagree. -/
  | ctlBri (g : GroupId) (w : Fields)
  /-- CALL (R73). Writes the link address and branches as BR. -/
  | ctlCall (g : GroupId) (w : Fields)
  /-- EXIT (R74). Ends the active lanes, and the group once its launch mask is zero and its engine work has left. -/
  | ctlExit (g : GroupId) (w : Fields)
  /-- TRAP (R75). Halts the group with fault TRAP recording IMM24. -/
  | ctlTrap (g : GroupId) (w : Fields)
  /-- NOP (R64). CTL no-operation. -/
  | ctlNop (g : GroupId) (w : Fields)
  /-- MIF (R72). Pushes a mask-stack entry and narrows the active mask to lanes with RS1 non-zero. -/
  | ctlMif (g : GroupId) (w : Fields)
  /-- MELSE (R72). Switches the active mask to the top entry's pending lanes. -/
  | ctlMelse (g : GroupId) (w : Fields)
  /-- MEND (R72). Restores the saved mask and pops the stack. -/
  | ctlMend (g : GroupId) (w : Fields)
  /-- MLOOP (R72). Pushes a loop entry with the current mask. -/
  | ctlMloop (g : GroupId) (w : Fields)
  /-- MBRK (R72). Removes breaking lanes from the mask and from the entries above the loop entry. -/
  | ctlMbrk (g : GroupId) (w : Fields)
  /-- RDSR (R68). Reads a special register into RD of every active lane. -/
  | spcRdsr (g : GroupId) (w : Fields)
  /-- SHFL (R67). Gives each active lane RS1 from the lane named by its RS2. -/
  | spcShfl (g : GroupId) (w : Fields)
  /-- VOTEANY (R67). Writes 1 to active lanes when any active lane has RS1 non-zero. -/
  | spcVoteany (g : GroupId) (w : Fields)
  /-- VOTEALL (R67). Writes 1 to active lanes when every active lane has RS1 non-zero. -/
  | spcVoteall (g : GroupId) (w : Fields)
  /-- BALLOT (R67). Writes the mask of active lanes whose RS1 is non-zero. -/
  | spcBallot (g : GroupId) (w : Fields)
  /-- PHASE (R347). Sets the group's phase in force and recomputes the half's preferred operating point. -/
  | spcPhase (g : GroupId) (w : Fields)
  /-- FYRESV (R34). Reserves a free ferry slot and returns its handle, stalling while none is free or no credit is held. -/
  | fyResv (g : GroupId) (w : Fields)
  /-- FYPUSH (R34). Waits for the group's writes into the slot, then commits it to the queue tail with release. -/
  | fyPush (g : GroupId) (w : Fields)
  /-- FYPOP (R34). Removes the oldest committed handle with acquire, or returns END on a closed empty queue. -/
  | fyPop (g : GroupId) (w : Fields)
  /-- FYFREE (R34). Returns a slot to the free set and, on a long ferry, a credit to the producer. -/
  | fyFree (g : GroupId) (w : Fields)
  /-- FYCLOSE (R34). Marks the group's stream on the queue as ended. -/
  | fyClose (g : GroupId) (w : Fields)
  /-- MXMMA (R101). Checks and queues a matrix multiply-accumulate into an accumulator tile. -/
  | mxMma (g : GroupId) (w : Fields)
  /-- MXDRAIN (R115). Checks and queues a drain of an open accumulator tile onto the slip. -/
  | mxDrain (g : GroupId) (w : Fields)
  /-- MXLDACC (R111). Checks and queues loading an accumulator tile from a scratchpad tile. -/
  | mxLdacc (g : GroupId) (w : Fields)
  /-- MATRIX_ENGINE_START (R119). The matrix engine starts the instruction at the head of its queue once its waits are over. -/
  | matrixEngineStart (cl : Fin 512)
  /-- SLIP_PASS (R150). The vector engine takes one 512-byte pass of a draining tile from the slip, running the chain or converting and writing. -/
  | slipPass (cl : Fin 512)
  /-- VECTOR_ENGINE_START (R135). The vector engine starts the VX instruction at the head of its queue in a clock with no slip pass due. -/
  | vectorEngineStart (cl : Fin 512)
  /-- VXSETVL (R136). Sets VL to the smaller of the request and 1,024 at issue. -/
  | vxSetvl (g : GroupId) (w : Fields)
  /-- VXLD (R136). Loads L elements from scratchpad into a vector register. -/
  | vxLd (g : GroupId) (w : Fields)
  /-- VXST (R136). Stores active elements of a vector register to scratchpad. -/
  | vxSt (g : GroupId) (w : Fields)
  /-- VXBCAST (R136). Writes a scalar into every active element. -/
  | vxBcast (g : GroupId) (w : Fields)
  /-- VXADD (R137). Element-wise addition. -/
  | vxAdd (g : GroupId) (w : Fields)
  /-- VXSUB (R137). Element-wise subtraction. -/
  | vxSub (g : GroupId) (w : Fields)
  /-- VXMUL (R137). Element-wise multiplication. -/
  | vxMul (g : GroupId) (w : Fields)
  /-- VXFMA (R137). Element-wise fused multiply-add. -/
  | vxFma (g : GroupId) (w : Fields)
  /-- VXMIN (R137). Element-wise minimum. -/
  | vxMin (g : GroupId) (w : Fields)
  /-- VXMAX (R137). Element-wise maximum. -/
  | vxMax (g : GroupId) (w : Fields)
  /-- VXABS (R137). Element-wise absolute value. -/
  | vxAbs (g : GroupId) (w : Fields)
  /-- VXNEG (R137). Element-wise negation. -/
  | vxNeg (g : GroupId) (w : Fields)
  /-- VXAND (R137). Element-wise bitwise AND. -/
  | vxAnd (g : GroupId) (w : Fields)
  /-- VXOR (R137). Element-wise bitwise OR. -/
  | vxOr (g : GroupId) (w : Fields)
  /-- VXXOR (R137). Element-wise bitwise XOR. -/
  | vxXor (g : GroupId) (w : Fields)
  /-- VXNOT (R137). Element-wise bitwise NOT. -/
  | vxNot (g : GroupId) (w : Fields)
  /-- VXCVT (R137). Element-wise format conversion. -/
  | vxCvt (g : GroupId) (w : Fields)
  /-- VXCMPEQ (R137). Sets mask bits where elements are equal. -/
  | vxCmpeq (g : GroupId) (w : Fields)
  /-- VXCMPLT (R137). Sets mask bits where elements are less. -/
  | vxCmplt (g : GroupId) (w : Fields)
  /-- VXCMPLE (R137). Sets mask bits where elements are less or equal. -/
  | vxCmple (g : GroupId) (w : Fields)
  /-- VXSEL (R137). Selects each element from vs1 or vs2 by a mask. -/
  | vxSel (g : GroupId) (w : Fields)
  /-- VXMAND (R137). ANDs mask registers. -/
  | vxMand (g : GroupId) (w : Fields)
  /-- VXMOR (R137). ORs mask registers. -/
  | vxMor (g : GroupId) (w : Fields)
  /-- VXMXOR (R137). XORs mask registers. -/
  | vxMxor (g : GroupId) (w : Fields)
  /-- VXMNOT (R137). Complements a mask register. -/
  | vxMnot (g : GroupId) (w : Fields)
  /-- VXPERM (R138). Permutes elements by 16-bit indices. -/
  | vxPerm (g : GroupId) (w : Fields)
  /-- VXIOTA (R138). Writes start plus i times step into 16-bit positions. -/
  | vxIota (g : GroupId) (w : Fields)
  /-- VXRED_ADD (R140). Reduction by addition over the lane-order tree. -/
  | vxRedAdd (g : GroupId) (w : Fields)
  /-- VXRED_PRODUCT (R140). Reduction by product. -/
  | vxRedProduct (g : GroupId) (w : Fields)
  /-- VXRED_MAX (R140). Reduction by maximum. -/
  | vxRedMax (g : GroupId) (w : Fields)
  /-- VXRED_MIN (R140). Reduction by minimum. -/
  | vxRedMin (g : GroupId) (w : Fields)
  /-- VXRED_AND (R140). Reduction by AND. -/
  | vxRedAnd (g : GroupId) (w : Fields)
  /-- VXRED_OR (R140). Reduction by OR. -/
  | vxRedOr (g : GroupId) (w : Fields)
  /-- VXRED_XOR (R140). Reduction by XOR. -/
  | vxRedXor (g : GroupId) (w : Fields)
  /-- VXEXP2 (R142). Element-wise base-2 exponential. -/
  | vxExp2 (g : GroupId) (w : Fields)
  /-- VXLOG2 (R142). Element-wise base-2 logarithm. -/
  | vxLog2 (g : GroupId) (w : Fields)
  /-- VXRCP (R142). Element-wise reciprocal. -/
  | vxRcp (g : GroupId) (w : Fields)
  /-- VXRSQRT (R142). Element-wise reciprocal square root. -/
  | vxRsqrt (g : GroupId) (w : Fields)
  /-- VXEXTR (R136). Extracts one element to a scalar register, stalling the group. -/
  | vxExtr (g : GroupId) (w : Fields)
  /-- VXGETS (R133). Returns the vector status word and optionally clears EMPTY. -/
  | vxGets (g : GroupId) (w : Fields)
  /-- VXCHLD (R145). Marks a chain slot loading, waits for its slip entries, then checks and loads a descriptor. -/
  | vxChld (g : GroupId) (w : Fields)
  /-- VXCHBASE (R145). Sets one operand base of a chain slot at issue. -/
  | vxChbase (g : GroupId) (w : Fields)
  /-- SYFENCE (R208). Orders earlier accesses before later ones except write-then-read. -/
  | syFence (g : GroupId) (w : Fields)
  /-- SYREL (R208). Orders earlier accesses before later writes. -/
  | syRel (g : GroupId) (w : Fields)
  /-- SYACQ (R208). Orders earlier reads before later accesses, invalidating the L1 at CLUSTER scope or wider. -/
  | syAcq (g : GroupId) (w : Fields)
  /-- SYFENCEC (R208). Stalls the group until earlier accesses are visible at its scope, then fences. -/
  | syFencec (g : GroupId) (w : Fields)
  /-- SYTALLY (R214). Stalls until a tally reaches the awaited value, then acquires. -/
  | syTally (g : GroupId) (w : Fields)
  /-- SYTRD (R206). Reads a tally into RD 32 clocks after issue without ordering. -/
  | syTrd (g : GroupId) (w : Fields)
  /-- SYTADD (R213). Adds an amount to a named tally as a release. -/
  | syTadd (g : GroupId) (w : Fields)
  /-- TALLY_WAIT_TIMEOUT (R216). A SYTALLY stalled beyond the tally wait limit faults with TALLY_TIMEOUT. -/
  | tallyWaitTimeout (g : GroupId)
  /-- TXLD (R124). Copies a tile from memory into scratchpad rows, optionally transposed. -/
  | txLd (g : GroupId) (w : Fields)
  /-- TXST (R124). Copies a tile from scratchpad to memory. -/
  | txSt (g : GroupId) (w : Fields)
  /-- TXLDL (R124). Copies a linear range from memory into scratchpad. -/
  | txLdl (g : GroupId) (w : Fields)
  /-- TXSTL (R124). Copies a linear range from scratchpad to memory. -/
  | txStl (g : GroupId) (w : Fields)
  /-- TXPUT (R218). Copies bytes to a destination and then increments a tally. -/
  | txPut (g : GroupId) (w : Fields)
  /-- TXRED_ADD (R218). Adds source elements into the destination as reduce-writes. -/
  | txRedAdd (g : GroupId) (w : Fields)
  /-- TXRED_MIN (R218). Reduce-writes by MIN. -/
  | txRedMin (g : GroupId) (w : Fields)
  /-- TXRED_MAX (R218). Reduce-writes by MAX. -/
  | txRedMax (g : GroupId) (w : Fields)
  /-- TXRED_AND (R218). Reduce-writes by AND. -/
  | txRedAnd (g : GroupId) (w : Fields)
  /-- TXRED_OR (R218). Reduce-writes by OR. -/
  | txRedOr (g : GroupId) (w : Fields)
  /-- TXRED_XOR (R218). Reduce-writes by XOR. -/
  | txRedXor (g : GroupId) (w : Fields)
  /-- TXDEAD (R174). Drops every cached copy of a line range without write-back. -/
  | txDead (g : GroupId) (w : Fields)
  /-- TRANSFER_LINE_PART (R205). The transfer unit performs one line part of a queued transfer. -/
  | transferLinePart (cl : Fin 512) (slot : Fin 16)
  /-- L1_FILL (R157). A missed line arrives and is written into the L1, ending the block of waiting groups. -/
  | l1Fill (cl : Fin 512) (line : BitVec 48)
  /-- PREFETCH_FILL (R163). A prefetched line arrives in the prefetch side buffer. -/
  | prefetchFill (cl : Fin 512) (line : BitVec 48)
  /-- WRITE_BUFFER_AGE (R160). An entry occupied for 32 clocks starts to drain. -/
  | writeBufferAge (cl : Fin 512)
  /-- STREAM_TRACKER_EXPIRY (R172). A stream tracker unmatched for 8,192 fabric clocks is freed. -/
  | streamTrackerExpiry (half : Fin 8) (stream : Fin 32)
  /-- DOORBELL (R327). Sets the fetch target and resumes fetching of a launch queue. -/
  | doorbell (q : QueueId) (via : Requester) (value : BitVec 32)
  /-- RECORD_REREAD (R327). A non-matching record is re-read after 250 ns, setting WAITING after 8 tries. -/
  | recordReread (q : QueueId) (host : HostRecord)
  /-- LAUNCH (R50). A LAUNCH record is taken, checked and the kernel placed whole or refused. -/
  | launch (q : QueueId) (host : HostRecord) (image : Bytes)
  /-- COMMAND_NOP (R326). A NOP record is consumed and advances QDONE. -/
  | commandNop (q : QueueId) (host : HostRecord)
  /-- UNDEFINED_RECORD (R326). A record with an undefined OPCODE is consumed, advances QDONE and is counted. -/
  | undefinedRecord (q : QueueId) (host : HostRecord)
  /-- QCFG_RESTART (R325). Resets QHEAD, the expected phase and the fetch target of a queue. -/
  | qcfgRestart (q : QueueId) (via : Requester) (value : BitVec 32)
  /-- KERNEL_COMPLETION (R222). When every group has exited and writes are drained and acknowledged, the completion record is written. -/
  | kernelCompletion (k : Nat)
  /-- PEER_FLUSH_READ_DONE (R330). The PEER-scope flush read completes, adjusting the status and writing DONE. -/
  | peerFlushReadDone (k : Nat) (ok : Bool)
  /-- SESSION_CTL_OPEN (R335). Opens a new session and clears the function's queues. -/
  | sessionCtlOpen (fn : Fn)
  /-- SESSION_CTL_REATTACH (R335). Reattaches an orphaned session named by SESSION_ARG. -/
  | sessionCtlReattach (fn : Fn)
  /-- SESSION_CTL_CLOSE (R335). Returns the session state to none unless a queue is enabled. -/
  | sessionCtlClose (fn : Fn)
  /-- SESSION_CTL_OPEN_FORCE (R335). Aborts the function's running kernels, then opens a session. -/
  | sessionCtlOpenForce (fn : Fn)
  /-- BAR4_READ (R324). A PCIe read at BAR4 is served as an RDN to node memory. -/
  | bar4Read (fn : Fn) (off : BitVec 48) (len : BitVec 13)
  /-- BAR4_WRITE (R324). A PCIe write at BAR4 is served as a WRN. -/
  | bar4Write (fn : Fn) (off : BitVec 48) (data : Bytes)
  /-- ATOMICOP_FETCHADD (R324). A PCIe FetchAdd is applied as a fetching ADD adder operation. -/
  | atomicopFetchadd (fn : Fn) (off : BitVec 48) (size : AtomicSize) (operand : BitVec 64)
  /-- ATOMICOP_SWAP (R324). A PCIe Swap is applied as SWAP. -/
  | atomicopSwap (fn : Fn) (off : BitVec 48) (size : AtomicSize) (operand : BitVec 64)
  /-- ATOMICOP_CAS (R324). A PCIe CAS is applied as CAS, 128-bit refused. -/
  | atomicopCas (fn : Fn) (off : BitVec 48) (size : AtomicSize) (operand : BitVec 64) (compare : BitVec 64)
  /-- CONFIGURATION_REQUEST (R320). A configuration request is answered from the function's configuration space. -/
  | configurationRequest (fn : Fn) (off : BitVec 12) (access : CfgAccess)
  /-- HOST_WINDOW_READ_COMPLETION (R331). A completion returns for a read through the host window, poisoned on error status. -/
  | hostWindowReadCompletion (port : Fin 2) (tag : Nat) (result : HostData)
  /-- COMPLETION_TIMEOUT (R331). A host-window read unanswered within the completion timeout returns poisoned data. -/
  | completionTimeout (port : Fin 2) (tag : Nat)
  /-- HOST_RESET (R333). Link loss, hot reset or PERST returns function state to reset, stops queues and orphans the session. -/
  | hostReset (port : Fin 2) (linkLost : Bool)
  /-- FLR (R333). A function level reset resets one function's state as a host reset does. -/
  | flr (fn : Fn)
  /-- ROOT_PORT_INBOUND_REQUEST (R340). An inbound request on a root port is served or completes with Unsupported Request. -/
  | rootPortInboundRequest (port : Fin 2) (req : InboundReq)
  /-- ROOT_PORT_RETRAIN (R340). After a link-down the root port retries training every 100 ms. -/
  | rootPortRetrain (port : Fin 2) (trained : Bool)
  /-- ATS_TRANSLATION_COMPLETION (R259). A Translation Completion fills a host entry or triggers a PRI request. -/
  | atsTranslationCompletion (fn : Fn) (tag : Nat) (c : AtsCompletion)
  /-- ATS_INVALIDATION_REQUEST (R260). Drops matching host entries and sends the Invalidation Completion after accesses end. -/
  | atsInvalidationRequest (fn : Fn) (itag : Fin 32) (va : BitVec 64) (log2size : Fin 64)
  /-- PRG_RESPONSE_SUCCESS (R261). Repeats the ATS request. -/
  | prgResponseSuccess (fn : Fn) (tag : Nat)
  /-- PRG_RESPONSE_INVALID_REQUEST (R261). Ends the access with HOST_PAGE_FAULT. -/
  | prgResponseInvalidRequest (fn : Fn) (tag : Nat)
  /-- PRG_RESPONSE_FAILURE (R261). Ends the access with HOST_PAGE_FAULT and stops PRI for the function. -/
  | prgResponseFailure (fn : Fn) (tag : Nat)
  /-- PRI_RESPONSE_TIMEOUT (R261). A page request unanswered within the timeout ends the access with HOST_PAGE_FAULT. -/
  | priResponseTimeout (fn : Fn) (tag : Nat)
  /-- INTSEND (R337). Sets interrupt source 768 plus n pending. -/
  | intsend (value : BitVec 32)
  /-- CLAIM (R336). Returns and clears the lowest pending source routed to the hart. -/
  | claim (hart : Fin 192)
  /-- HART_START (R341). Starts a stopped hart in machine mode at the written address. -/
  | hartStart (writer : Fin 8) (hart : Fin 192) (addr : BitVec 64)
  /-- INV_CTL_RANGE (R255). Queues invalidation of a range in one context. -/
  | invCtlRange (p : Fin 8) (width : BitVec 4) (value : BitVec 64)
  /-- INV_CTL_CONTEXT (R255). Queues invalidation of all of one context. -/
  | invCtlContext (p : Fin 8) (width : BitVec 4) (value : BitVec 64)
  /-- INV_CTL_PARTITION (R255). Queues invalidation of all contexts of the partition. -/
  | invCtlPartition (p : Fin 8) (width : BitVec 4) (value : BitVec 64)
  /-- INVALIDATION_COMPLETE (R255). An invalidation completes and INV_DONE reaches its number. -/
  | invalidationComplete (p : Fin 8)
  /-- RESUME_RETRY (R264). RESUME with FAIL 0 retries the stalled translation. -/
  | resumeRetry (p : Fin 8) (width : BitVec 4) (value : BitVec 64)
  /-- RESUME_FAIL (R264). RESUME with FAIL 1 halts the group with the recorded code. -/
  | resumeFail (p : Fin 8) (width : BitVec 4) (value : BitVec 64)
  /-- FQ_LOST_READ (R254). A read of FQ_LOST returns and clears the counter. -/
  | fqLostRead (p : Fin 8) (k : Fin 8) (off : BitVec 3) (width : BitVec 4)
  /-- TALLY_ADD (R215). A 64-bit write adds AMOUNT to a physical tally. -/
  | tallyAdd (die : Fin 4) (off : BitVec 17) (width : BitVec 4) (value : BitVec 64)
  /-- REGISTER_WRITE (R457). A write to a register with no row of its own sets its fields. -/
  | registerWrite (via : Requester) (addr : BitVec 48) (width : BitVec 4) (value : BitVec 64)
  /-- RDS (R236). Home serves a read-shared request. -/
  | cohRds (a : Fin 13) (addr : BitVec 48) (mask : BitVec 4)
  /-- RDU (R236). Home serves a read-unique request. -/
  | cohRdu (a : Fin 13) (addr : BitVec 48) (mask : BitVec 4)
  /-- UPG (R236). Home serves an upgrade to M. -/
  | cohUpg (a : Fin 13) (addr : BitVec 48)
  /-- WBK (R236). Home accepts a write-back. -/
  | cohWbk (a : Fin 13) (addr : BitVec 48)
  /-- EVC (R236). Home records a clean eviction. -/
  | cohEvc (a : Fin 13) (addr : BitVec 48)
  /-- RDN (R236). Home serves an uncached read. -/
  | cohRdn (a : Fin 13) (addr : BitVec 48) (mask : BitVec 4)
  /-- WRN (R236). Home serves an uncached write, optionally incrementing a tally. -/
  | cohWrn (a : Fin 13) (addr : BitVec 48) (bytes : BitVec 128) (data : BitVec 1024) (tally : Option (BitVec 20))
  /-- DEAD (R236). Home discards every copy of a line. -/
  | cohDead (a : Fin 13) (addr : BitVec 48)
  /-- ADDOP (R188). Home invalidates copies and forwards an adder operation to the base die or tier-2 controller. -/
  | cohAddop (a : Fin 13) (addr : BitVec 48) (arg : BitVec 29) (operand : BitVec 1024) (compare : BitVec 64)
  /-- SNPS (R233). Snooped agent downgrades and supplies data. -/
  | cohSnps (a : Fin 13) (addr : BitVec 48)
  /-- SNPU (R233). Snooped agent invalidates and supplies data with dirty sectors. -/
  | cohSnpu (a : Fin 13) (addr : BitVec 48)
  /-- SNPI (R233). Snooped agent invalidates without data. -/
  | cohSnpi (a : Fin 13) (addr : BitVec 48)
  /-- SNPD (R233). Snooped agent invalidates without write-back. -/
  | cohSnpd (a : Fin 13) (addr : BitVec 48)
  /-- SNPC (R233). Snooped agent supplies a copy and keeps state. -/
  | cohSnpc (a : Fin 13) (addr : BitVec 48)
  /-- SRSP (R234). Home receives a snoop response. -/
  | cohSrsp (a : Fin 13) (addr : BitVec 48)
  /-- CMP (R234). Requester receives the granted state. -/
  | cohCmp (addr : BitVec 48)
  /-- CMPACK (R234). Home clears the line's busy state. -/
  | cohCmpack (addr : BitVec 48)
  /-- RETRY (R382). Requester resends a refused request, with escalation after 64 retries. -/
  | cohRetry (a : Fin 13) (addr : BitVec 48)
  /-- CMPE (R273). Requester receives an error or poison completion. -/
  | cohCmpe (addr : BitVec 48) (status : BitVec 8)
  /-- DATA (R235). Requester receives sector data. -/
  | cohData (addr : BitVec 48)
  /-- WBD (R233). Home receives write-back data. -/
  | cohWbd (a : Fin 13) (addr : BitVec 48)
  /-- AGENT_DEATH (R240). An agent becomes dead to a home and reclamation starts. -/
  | agentDeath (home : Fin 12) (a : Fin 13)
  /-- DIRECTORY_SCAN (R240). The home scans one directory entry per fabric clock reclaiming the dead agent's lines. -/
  | directoryScan (home : Fin 12)
  /-- NCR_REGISTER_READ (R274). A non-coherent register read arrives. -/
  | ncrRegisterRead (src : Fin 9) (addr : BitVec 48) (width : BitVec 4)
  /-- NCR_REGISTER_WRITE (R274). A non-coherent register write arrives. -/
  | ncrRegisterWrite (src : Fin 9) (addr : BitVec 48) (width : BitVec 4) (value : BitVec 64)
  /-- NCR_SCRATCHPAD_WRITE (R274). A scratchpad write for ferry slots or queue commits arrives. -/
  | ncrScratchpadWrite (cl : Fin 512) (off : BitVec 19) (data : Bytes) (commit : Option FerryCommit)
  /-- NCR_INTERRUPT (R275). An interrupt message arrives on NCR. -/
  | ncrInterrupt (src : Fin 9) (source : Fin 1024)
  /-- NCP (R275). A non-coherent completion arrives. -/
  | ncp (die : Fin 9) (txid : BitVec 12) (data : BitVec 64)
  /-- TELEMETRY_RECORD (R350). A die's telemetry record reaches the power manager. -/
  | telemetryRecord (die : Fin 9) (t : Telemetry)
  /-- POWER_MANAGER_COMMAND (R275). A power-manager command reaches a die on MGT. -/
  | powerManagerCommand (die : Fin 9) (heartbeat : Bool)
  /-- FRD (R283). An intermediate die forwards a forded RSP or DAT message. -/
  | linkFrd (d : LinkDir) (dst : Fin 4) (msg : Message)
  /-- DATA_FLIT (R278). A data flit is accepted, discarded as duplicate, or triggers NAK. -/
  | dataFlit (d : LinkDir) (flit : WireFlit) (vcs : List (Fin 8))
  /-- NULL_FLIT (R271). A null flit delivers its ACK. -/
  | nullFlit (d : LinkDir) (flit : BitVec 2048)
  /-- NAK (R278). Sender replays from the named SEQ. -/
  | linkNak (d : LinkDir) (flit : NakFlit)
  /-- CAPS (R281). Capability words are exchanged and the intersection formed. -/
  | linkCaps (link : Fin 19) (a : CapWords) (b : CapWords)
  /-- CREDIT_INIT (R276). Initial credits are advertised and the link becomes ACTIVE. -/
  | creditInit (d : LinkDir) (counts : Vector (BitVec 12) 8)
  /-- LANECHECK (R271). Receiver counts bit errors per logical lane. -/
  | laneCheck (d : LinkDir) (flit : BitVec 2048)
  /-- RETRAIN (R279). A retrain starts, keeping replay buffers, SEQ and credits. -/
  | linkRetrain (flit : ControlFlit)
  /-- DETECT (R269). Receiver termination is sensed on every lane. -/
  | linkDetect (link : Fin 19) (sensed : Bool)
  /-- LOCK (R269). Lanes achieve bit lock on PRBS31, failing lanes replaced by spares. -/
  | linkLock (d : LinkDir) (errors : List (BitVec 8 × BitVec 16))
  /-- DESKEW (R269). Logical lanes are aligned. -/
  | linkDeskew (link : Fin 19) (aligned : Bool)
  /-- TRAINING_STATE_TIMEOUT (R269). A training state exceeds its limit and the attempt fails. -/
  | trainingStateTimeout (link : Fin 19)
  /-- REPLAY_TIMEOUT (R278). An unacknowledged flit without ACK progress for 1 µs is replayed. -/
  | replayTimeout (due : ReplayDue)
  /-- LINK_ACK_TIMER (R277). The receiver sends an ACK within 500 ns. -/
  | linkAckTimer (d : LinkDir)
  /-- NAK_ACK_TIMEOUT (R279). A NAKed flit unacknowledged within 4 µs forces a retrain. -/
  | nakAckTimeout (d : LinkDir)
  /-- RETRAIN_LIMIT_EXPIRY (R279). A retrain not ACTIVE within 100 µs declares the link down. -/
  | retrainLimitExpiry (link : Fin 19)
  /-- REQUEST_TIMEOUT (R280). A request uncompleted after 2 ms of link-up time completes with poison. -/
  | requestTimeout (source : RequestSource) (txid : BitVec 12)
  /-- FORD_ENGAGE (R283). A credit wait over the ford threshold sends RSP and DAT via another Kysar die. -/
  | fordEngage (d : LinkDir)
  /-- FORD_DISENGAGE (R283). The ford disengages after 1,024 clocks below the threshold. -/
  | fordDisengage (d : LinkDir)
  /-- PUT (R295). An NCT PUT writes data at a key's region and increments a tally. -/
  | nctPut (port : Fin 12) (pkt : NctIn)
  /-- GET (R295). An NCT GET reads data and sends GETRESP. -/
  | nctGet (port : Fin 12) (pkt : NctIn)
  /-- GETRESP (R295). Read data returns to the requester. -/
  | nctGetresp (port : Fin 12) (pkt : NctIn)
  /-- ATOMIC (R295). An NCT ATOMIC is applied once and answered with ATOMICRESP. -/
  | nctAtomic (port : Fin 12) (pkt : NctIn)
  /-- ATOMICRESP (R295). An atomic's old value returns to the requester. -/
  | nctAtomicresp (port : Fin 12) (pkt : NctIn)
  /-- REDUCE_PUT (R295). An NCT REDUCE-PUT applies elements as reduce-writes. -/
  | nctReducePut (port : Fin 12) (pkt : NctIn)
  /-- TADD (R295). An NCT TADD increments a tally. -/
  | nctTadd (port : Fin 12) (pkt : NctIn)
  /-- TILE (R313). A tile fragment is written into an IN-end slot and committed in TSEQ order. -/
  | nctTile (port : Fin 12) (pkt : NctIn)
  /-- CREDIT (R313). Long-ferry credits are added to the OUT end. -/
  | nctCredit (port : Fin 12) (pkt : NctIn)
  /-- CONNECT (R312). An OUT end's queue is matched to a registered IN end. -/
  | nctConnect (port : Fin 12) (pkt : NctIn)
  /-- END (R313). Records the number of tiles sent to close an IN queue. -/
  | nctEnd (port : Fin 12) (pkt : NctIn)
  /-- ABANDON (R313). Fails the IN end after its OUT end was aborted. -/
  | nctAbandon (port : Fin 12) (pkt : NctIn)
  /-- ACK (R298). Acknowledges PSNs of a flow, advancing the window and triggering gap resends. -/
  | nctAck (port : Fin 12) (pkt : NctIn)
  /-- ERROR (R302). An error response fails the named operation. -/
  | nctError (port : Fin 12) (pkt : NctIn)
  /-- MGMT (R395). An in-band dictionary frame arrives over NCT. -/
  | nctMgmt (port : Fin 12) (pkt : NctIn)
  /-- NCT_ACK_TIMER (R296). An ACK is sent 8 µs after a packet became acknowledgeable. -/
  | nctAckTimer (f : FlowId)
  /-- RETRANSMISSION_TIMEOUT (R298). The flow's timer expires and the oldest unacknowledged packet is resent. -/
  | retransmissionTimeout (f : FlowId)
  /-- OPERATION_TIMEOUT (R298). An operation unacknowledged within OPTIMEOUT fails and kills its flow. -/
  | operationTimeout (f : FlowId) (psn : BitVec 32)
  /-- FLOW_STATE_EXPIRY (R300). Receive state of a flow idle for four OPTIMEOUTs is freed. -/
  | flowStateExpiry (f : FlowId)
  /-- PORT_LINK_LOSS (R292). A port leaves every spray set and its queued packets move. -/
  | portLinkLoss (sp : SubPort)
  /-- PORT_LINK_UP (R292). A port's link returns, up but held. -/
  | portLinkUp (sp : SubPort)
  /-- PORT_HOLD_EXPIRY (R292). A held port re-enters spray sets. -/
  | portHoldExpiry (sp : SubPort)
  /-- NETWORK_LANE_RETIRE (R291). A lane over its error threshold narrows its port. -/
  | networkLaneRetire (lane : Fin 48) (cause : Fin 2)
  /-- LLDP_TRANSMIT (R290). An LLDP frame is sent every second on each port. -/
  | lldpTransmit (sp : SubPort)
  /-- LLDP_FRAME (R290). A received LLDP frame updates the neighbour. -/
  | lldpFrame (sp : SubPort) (chassis : Bytes) (portId : Bytes)
  /-- NEIGHBOR_SOLICITATION (R290). A Neighbor Solicitation for a hub address is answered. -/
  | neighborSolicitation (sp : SubPort) (target : BitVec 128) (sender : BitVec 128)
  /-- ROUTER_ADVERTISEMENT (R290). The on-link router is learned for next-hop discovery. -/
  | routerAdvertisement (sp : SubPort) (mac : BitVec 48)
  /-- ECHO_REQUEST (R290). An ICMPv6 Echo Request is answered. -/
  | echoRequest (sp : SubPort) (dst : BitVec 128) (src : BitVec 128) (data : Bytes)
  /-- PAUSE_FRAME (R289). A PAUSE or PFC frame is discarded and counted. -/
  | pauseFrame (sp : SubPort)
  /-- PEER_CAPPED_EXPIRY (R317). PEER_CAPPED clears 1 ms after the group's last CAPE packet. -/
  | peerCappedExpiry (grp : Fin 4096)
  /-- NETWORK_REFERENCE_LOSS (R425). Loss of the 156.25 MHz reference takes every port down. -/
  | networkReferenceLoss
  /-- GROUP_STATE_OPEN (R310). A write of STATE 001b opens a closed entry. -/
  | groupStateOpen (via : Requester) (grp : Fin 4096)
  /-- GROUP_STATE_CLOSING (R310). A write of STATE 010b moves an unbound open entry to closing. -/
  | groupStateClosing (via : Requester) (grp : Fin 4096)
  /-- GROUP_STATE_CLOSED (R310). A write of STATE 000b closes a closing entry at once. -/
  | groupStateClosed (via : Requester) (grp : Fin 4096)
  /-- GROUP_CLOSING_DONE (R310). The node closes a closing entry once every outstanding operation ended. -/
  | groupClosingDone (grp : Fin 4096)
  /-- KEY_ENTRY_VALID (R304). A key entry write setting VALID is accepted or refused. -/
  | keyEntryValid (via : Requester) (key : Fin 16384) (word : BitVec 64)
  /-- SEQ_GO (R316). Starts a schedule in a slot. -/
  | seqGo (hub : Fin 2) (slot : Fin 16) (width : BitVec 4)
  /-- SCHEDULE_NOP (R315). The sequencer starts a NOP step. -/
  | scheduleNop (hub : Fin 2) (slot : Fin 16)
  /-- SCHEDULE_PUT (R315). The sequencer starts a PUT step. -/
  | schedulePut (hub : Fin 2) (slot : Fin 16)
  /-- SCHEDULE_REDUCE (R315). The sequencer starts a REDUCE step. -/
  | scheduleReduce (hub : Fin 2) (slot : Fin 16)
  /-- SCHEDULE_TADD (R315). The sequencer starts a TADD step. -/
  | scheduleTadd (hub : Fin 2) (slot : Fin 16)
  /-- SCHEDULE_WAIT (R315). A WAIT step is satisfied when its tally is reached. -/
  | scheduleWait (hub : Fin 2) (slot : Fin 16)
  /-- PC_STATUS (R198). Wrapper instruction reading pseudo-channel status. -/
  | pcStatus (stack : Fin 16)
  /-- REPAIR_INFO (R198). Wrapper instruction reading spare rows or spare bank state. -/
  | repairInfo (stack : Fin 16)
  /-- ROW_REPAIR (R198). Wrapper instruction repairing a row, soft or hard. -/
  | rowRepair (stack : Fin 16)
  /-- BANK_REPAIR (R198). Wrapper instruction replacing a bank. -/
  | bankRepair (stack : Fin 16)
  /-- BYPASS (R198). Wrapper bypass instruction. -/
  | wrapperBypass (stack : Fin 16)
  /-- WRAPPER_INSTRUCTION_DONE (R198). A wrapper instruction finishes, clearing BUSY and setting RESULT. -/
  | wrapperInstructionDone (stack : Fin 16)
  /-- WRAPPER_TIMEOUT (R198). An instruction running after 5 s ends with RESULT 05h. -/
  | wrapperTimeout (stack : Fin 16)
  /-- PATROL_SCRUB (R185). The background scrubber reads and corrects a sector. -/
  | patrolScrub (addr : BitVec 48) (e : SectorError)
  /-- FILL_GRANULE (R195). One granule of a retired pseudo-channel is copied into its slot. -/
  | fillGranule (stack : Fin 16) (e : FillError)
  /-- TIER2_PACKAGE_FAILURE (R369). A failed LPDDR5X package's granules become poison. -/
  | tier2PackageFailure (pkg : Fin 24)
  /-- STACK_OFFLINE_REQUEST (R199). Takes a stack offline, or with FFh brings stacks back zeroed. -/
  | stackOfflineRequest (role : Role) (value : BitVec 8)
  /-- SPARE_SLOT_FREE (R197). Writing 0 to a slot entry while its stack is offline frees the slot. -/
  | spareSlotFree (role : Role) (sub : BitVec 8)
  /-- CONTROL_PERIOD (R351). Every 50 µs the manager sets half caps, ceilings and points. -/
  | controlPeriod (power : Nat)
  /-- LIMITER_PERIOD (R352). Every 500 ns a half's limiter sets its bubble rate. -/
  | limiterPeriod (half : Fin 8) (p : Nat) (q : Nat)
  /-- PWR_ALERT_N_ASSERT (R355). Every die drops to its lowest state within 1 µs. -/
  | pwrAlertAssert
  /-- PWR_ALERT_N_RELEASE (R355). The alert is released and the 1 ms hold starts. -/
  | pwrAlertRelease
  /-- ALERT_HOLD_EXPIRY (R355). After the hold, halves step back up. -/
  | alertHoldExpiry
  /-- TELEMETRY_MISSING (R350). A die silent for 1 ms is counted at its cap. -/
  | telemetryMissing (die : Fin 9)
  /-- DIE_FALLBACK (R358). A die without manager messages for 1 ms falls to its fallback. -/
  | dieFallback (die : Fin 9)
  /-- MANAGER_TAKEOVER (R358). After 5 ms without heartbeat the standby becomes manager. -/
  | managerTakeover
  /-- CAP_DISENGAGE (R356). A partition's cap disengages 1 ms after no half is capped. -/
  | capDisengage (p : Fin 8)
  /-- THERMAL_SAMPLE (R357). Junction and DRAM temperatures are sampled and thresholds applied. -/
  | thermalSample (part : ThermalPart) (deciC : Int)
  /-- PWR_EN_ASSERT (R446). After debounce and input in range, rails rise. -/
  | pwrEnAssert
  /-- PWR_EN_DEASSERT (R447). Node reset asserts and rails are removed. -/
  | pwrEnDeassert (tenMs : Bool)
  /-- RAILS_IN_TOLERANCE (R446). All rails in tolerance assert PGOOD. -/
  | railsInTolerance
  /-- MOD_RESET_N_ASSERT (R442). Node reset enters within 2 µs. -/
  | modResetAssert
  /-- MOD_RESET_N_RELEASE (R412). Node reset is released and the boot sequence starts. -/
  | modResetRelease
  /-- UNDERVOLTAGE_SHUTDOWN (R438). Input below 36 V shuts the module down. -/
  | undervoltageShutdown
  /-- OVERVOLTAGE_SHUTDOWN (R438). Input above 52 V shuts the module down. -/
  | overvoltageShutdown
  /-- INPUT_RESTART (R438). Input in range for 10 ms with PWR_EN asserted restarts the module. -/
  | inputRestart
  /-- OSCILLATOR_LOSS (R425). Oscillator absent 10 µs holds node reset. -/
  | oscillatorLoss
  /-- RESET_REQUEST (R433). A resetting domain asks its neighbour to flush. -/
  | resetRequest (b : Boundary)
  /-- FLUSH_TIMEOUT (R433). Without acknowledgement in 20 µs the domain resets anyway. -/
  | flushTimeout (b : Boundary)
  /-- TRST_N_ASSERT (R450). The TAP is held in Test-Logic-Reset. -/
  | trstAssert
  /-- IDCODE (R449). TAP selects the IDCODE register. -/
  | tapIdcode (die : Fin 2)
  /-- SAMPLE_PRELOAD (R449). TAP samples or preloads the boundary register. -/
  | tapSamplePreload (die : Fin 2) (cells : List Bool)
  /-- EXTEST (R450). TAP drives pins from the boundary register during reset. -/
  | tapExtest (die : Fin 2) (cells : List Bool)
  /-- EXTEST_PULSE (R449). 1149.6 AC pulse test. -/
  | tapExtestPulse (die : Fin 2) (cells : List Bool)
  /-- EXTEST_TRAIN (R449). 1149.6 AC train test. -/
  | tapExtestTrain (die : Fin 2) (cells : List Bool)
  /-- CLAMP (R449). TAP clamps pins and selects bypass. -/
  | tapClamp (die : Fin 2)
  /-- HIGHZ (R449). TAP sets outputs to high impedance. -/
  | tapHighz (die : Fin 2)
  /-- TAP_BYPASS (R449). TAP selects the bypass register. -/
  | tapBypass (die : Fin 2)
  /-- BOOT_ROM (R412). Stage 01h locks the PLL and runs the ROM. -/
  | bootRom
  /-- BOOT_IDENTITY (R420). Stage 02h reconstructs the PUF root and derives secrets. -/
  | bootIdentity (pufOk : Bool)
  /-- BOOT_IMAGE (R411). Stage 03h reads and checks the flash image. -/
  | bootImage
  /-- BOOT_HANDOVER (R412). Stage 04h signs the alias certificate, opens the security record and loads settings. -/
  | bootHandover
  /-- BOOT_PACKAGE_LINKS (R413). Stage 05h brings up links in three waves. -/
  | bootPackageLinks (links : LinkOutcome) (companion : Option CapWords)
  /-- BOOT_MEMORY (R414). Stage 06h trains memory, restores redirects and starts clearing. -/
  | bootMemory (stacksFailed : BitVec 16) (packagesFailed : BitVec 24)
  /-- BOOT_PROCESSOR_DIES (R412). Stage 07h clears caches and starts the standby controller. -/
  | bootProcessorDies (failed : BitVec 9)
  /-- BOOT_HOST_PORTS (R412). Stage 08h releases PCIe ports to train. -/
  | bootHostPorts
  /-- BOOT_NETWORK (R412). Stage 09h trains network ports. -/
  | bootNetwork (failed : BitVec 12)
  /-- MEMORY_CLEARING_DONE (R414). Memory clearing ends and the node enters running. -/
  | memoryClearingDone (ms : BitVec 32)
  /-- REC_GO (R416). Starts checking an image in the recovery window. -/
  | recGo (width : BitVec 4)
  /-- RECOVERY_CHUNK_RESPONSE (R416). A chunk of the image arrives from the recovery server. -/
  | recoveryChunkResponse (chunk : BitVec 14) (data : Bytes)
  /-- RECOVERY_RETRY (R416). An unanswered chunk request is retried after 100 ms. -/
  | recoveryRetry
  /-- BOOT_NOW (R341). Boots a partition's OS image from node memory. -/
  | bootNow (role : Role) (p : Fin 8) (value : BitVec 8)
  /-- READ (R391). Milmiuno READ returns an object value. -/
  | dictRead (ch : Channel) (frame : Bytes)
  /-- WRITE (R391). Milmiuno WRITE sets an object's working value. -/
  | dictWriteFrame (ch : Channel) (frame : Bytes)
  /-- DESCRIBE (R391). Returns an object's type, access and default. -/
  | dictDescribe (ch : Channel) (frame : Bytes)
  /-- NEXT (R391). Returns the next defined sub. -/
  | dictNext (ch : Channel) (frame : Bytes)
  /-- SESSION_OPEN (R393). Opens an authenticated session and returns a nonce. -/
  | sessionOpen (ch : Channel) (frame : Bytes)
  /-- SESSION_CLOSE (R391). Closes a session. -/
  | sessionClose (ch : Channel) (frame : Bytes)
  /-- SESSION_IDLE_TIMEOUT (R393). A session idle beyond the limit closes. -/
  | sessionIdleTimeout (id : BitVec 16)
  /-- RESOURCE_HOLD_EXPIRY (R405). A diagnostic index register unused for 1 s is released. -/
  | resourceHoldExpiry (row : Fin 4)
  /-- STORE_COMMAND (R401). Saves persisted settings to flash. -/
  | storeCommand (role : Role) (value : BitVec 32)
  /-- STORE_SAVE_DONE (R402). The settings section is committed. -/
  | storeSaveDone (ok : Bool)
  /-- RESTORE_COMMAND (R401). Erases the settings section. -/
  | restoreCommand (role : Role) (value : BitVec 32)
  /-- NODE_RECORD_WRITE (R404). The older node-record copy is rewritten at least hourly. -/
  | nodeRecordWrite
  /-- SLACK_WATER (R371). Declares a step boundary for a partition's twins. -/
  | slackWater (role : Role) (p : Fin 8) (step : BitVec 64)
  /-- FLIP (R371). Once no twin is draining, CUR inverts and drains start. -/
  | twinFlip (p : Fin 8)
  /-- HUB_DRAIN_END (R373). A hub drain writes its commit word or fails, clearing DRAINING. -/
  | hubDrainEnd (twin : BitVec 8) (ok : Bool) (ms : BitVec 32)
  /-- DRAIN_DONE (R372). Software reports a successful drain. -/
  | drainDone (role : Role) (twin : BitVec 8)
  /-- DRAIN_DONE_FAILED (R372). Software reports a failed drain. -/
  | drainDoneFailed (role : Role) (twin : BitVec 8)
  /-- GROUP_IMAGE_ADDRESS (R377). Starts writing a group-state image. -/
  | groupImageAddress (role : Role) (p : Fin 8) (addr : BitVec 64)
  /-- GROUP_IMAGE_DONE (R377). The group-state image is written. -/
  | groupImageDone (p : Fin 8)
  /-- DIRECTORY_PROBE_ADDRESS (R243). Starts reading a line's directory entry. -/
  | directoryProbeAddress (role : Role) (src : Channel) (addr : BitVec 64)
  /-- DIRECTORY_PROBE_DONE (R243). The probe result appears. -/
  | directoryProbeDone
  /-- PARTITION_SAILING (R311). Sets a partition's sailing and invalidates keys of other sailings. -/
  | partitionSailing (role : Role) (p : Fin 8) (value : BitVec 32)
  /-- RECOVERY_REQUEST (R416). Requests the recovery loader at next reset. -/
  | recoveryRequest (role : Role) (value : BitVec 8)
  /-- UPDATE_FROM_ADDRESS (R419). Starts a firmware update from node memory. -/
  | updateFromAddress (role : Role) (addr : BitVec 64)
  /-- UPDATE_FROM_NETWORK (R419). Starts a firmware update from the network. -/
  | updateFromNetwork (role : Role) (value : BitVec 8)
  /-- UPDATE_DONE (R419). The update copy and check end. -/
  | updateDone (image : Bytes)
  /-- COMMIT_FLOOR (R418). Raises the version floor to the running SVN. -/
  | commitFloor (role : Role) (value : BitVec 8)
  /-- OWNER_KEY_HASH_ENROL (R417). Enrols an owner key hash. -/
  | ownerKeyHashEnrol (role : Role) (hash : BitVec 512)
  /-- RELEASE_OWNERSHIP (R417). Erases the owner key hash and role keys. -/
  | releaseOwnership (role : Role) (value : BitVec 32)
  /-- OWNER_ROLE_KEY (R417). Replaces the OWNER role key. -/
  | ownerRoleKey (role : Role) (key : BitVec 256)
  /-- OPERATOR_ROLE_KEY (R417). Replaces the OPERATOR role key. -/
  | operatorRoleKey (role : Role) (key : BitVec 256)
  /-- GET_VERSION (R422). SPDM GET_VERSION. -/
  | spdmGetVersion (t : SpdmTransport) (req : Bytes)
  /-- GET_CAPABILITIES (R422). SPDM GET_CAPABILITIES. -/
  | spdmGetCapabilities (t : SpdmTransport) (req : Bytes)
  /-- NEGOTIATE_ALGORITHMS (R422). SPDM NEGOTIATE_ALGORITHMS. -/
  | spdmNegotiateAlgorithms (t : SpdmTransport) (req : Bytes)
  /-- GET_DIGESTS (R422). SPDM GET_DIGESTS. -/
  | spdmGetDigests (t : SpdmTransport) (req : Bytes)
  /-- GET_CERTIFICATE (R422). SPDM GET_CERTIFICATE. -/
  | spdmGetCertificate (t : SpdmTransport) (req : Bytes)
  /-- CHALLENGE (R422). SPDM CHALLENGE. -/
  | spdmChallenge (t : SpdmTransport) (req : Bytes)
  /-- GET_MEASUREMENTS (R422). SPDM GET_MEASUREMENTS. -/
  | spdmGetMeasurements (t : SpdmTransport) (req : Bytes)
  /-- CHUNK_GET (R422). SPDM CHUNK_GET. -/
  | spdmChunkGet (t : SpdmTransport) (req : Bytes)
  /-- CHUNK_SEND (R422). SPDM CHUNK_SEND. -/
  | spdmChunkSend (t : SpdmTransport) (req : Bytes)
  /-- UNSUPPORTED_SPDM_REQUEST (R422). Any other SPDM request is answered with ERROR UnsupportedRequest. -/
  | spdmUnsupported (t : SpdmTransport) (req : Bytes)
  /-- CORE_ACCESS (R338). A processor core's load, store, fetch or AMO to a window is served under the core memory attributes, or raises an access fault. -/
  | coreAccess (hart : Fin 192) (a : CoreAccess)
  /-- CORE_FENCE (R203). A core FENCE acts at NODE scope, and a FENCE iorw,iorw completes at SYSTEM scope with the effect of SYFENCEC. -/
  | coreFence (hart : Fin 192) (pred : BitVec 4) (succ : BitVec 4)
  /-- CBO_FLUSH (R339). CBO.CLEAN or CBO.FLUSH writes dirty lines back, and CBO.INVAL is performed as CBO.FLUSH. -/
  | cboFlush (hart : Fin 192) (op : CboOp) (addr : BitVec 48)
  /-- STIMECMP_MATCH (R430). A hart's time reaches stimecmp, raising its timer interrupt and waking it from WFI. -/
  | stimecmpMatch (hart : Fin 192)
  /-- IN_END_TIMEOUT (R312). An IN end with a duplicate TAG, or whose OUT end never connects, fails its stalled FYPOP with REMOTE_INCOMPLETE after OPTIMEOUT. -/
  | inEndTimeout (k : Nat) (ferry : Fin 64)
  /-- PSEUDO_CHANNEL_HARD_FAILURE (R364). A pseudo-channel whose accesses all fail for 1 ms, or that its base die reports out of service, is retired. -/
  | pseudoChannelHardFailure (pc : Fin 1024)
  /-- RECOVERY_IMAGE_WRITTEN (R416). The recovery loader finishes writing and reading back the image in flash, then resets the node, or reports 15h. -/
  | recoveryImageWritten (readback : Bytes)
  /-- PCIE_LINK_UP (R334). An endpoint port's link trains up after a host reset or PERST release, ending host-window discards and delivering pending MSI-X. -/
  | pcieLinkUp (port : Fin 2) (rate : BitVec 8) (lanes : BitVec 8)
  /-- TRST_N_RELEASE (R450). TRST_N goes high and the TAP leaves the held Test-Logic-Reset state. -/
  | trstRelease
  /-- OSCILLATOR_RETURN (R425). The 25 MHz oscillator returns and the clock monitor stops holding node reset. -/
  | oscillatorReturn
  /-- NETWORK_REFERENCE_RETURN (R425). The 156.25 MHz reference returns and the ports may train again. -/
  | networkReferenceReturn
  /-- STACK_ZEROED (R199). A stack brought back from offline has every sector zeroed and starts serving accesses. -/
  | stackZeroed (stack : Fin 16)
  /-- NON_COHERENT_TAG_STATE_RELEASE (R405). Once every remote-node line or tombstone has been dropped, the non-coherent tag state resource is released. -/
  | nonCoherentTagStateRelease
  /-- FLUSH_ACKNOWLEDGEMENT (R433). The neighbouring side finishes its flush and asserts its acknowledgement, and the resetting side enters reset. -/
  | flushAcknowledgement (b : Boundary)
  /-- OS_IMAGE_LOADED (R341). A partition's OS image has been read from NVMe, checked, and placed, and the node writes the boot block and starts the lowest hart. -/
  | osImageLoaded (p : Fin 8) (image : Bytes)
  deriving DecidableEq, Repr

end Sys2Proof
end

