-- ==== Sys2Proof/Decode.lean ====
section
/-! DEFINITION. The instruction a group's word spells (R60, R61, R64), and the command a table word spells. -/
namespace Sys2Proof

/-- A row that takes a group and the fields of its word. -/
abbrev GroupRow := GroupId → Fields → Instr

/-- The row of an OP in a list that gives the OPs from a first one on. -/
def rowFrom (first : Nat) (rows : List GroupRow) (op : Nat) : Option GroupRow := if op < first then none else rows[op - first]?

/-- The atomics: ORDER in OP 5:4, FETCH in bit 3, the adder operation in bits 2:0 (R219). -/
def atomRow (op : Nat) : Option GroupRow :=
  let order : BitVec 2 := BitVec.ofNat 2 (op / 16)
  let fetch := op.testBit 3
  ([fun g w => .atomAdd g w order fetch, fun g w => .atomMin g w order fetch, fun g w => .atomMax g w order fetch,
    fun g w => .atomAnd g w order fetch, fun g w => .atomOr g w order fetch, fun g w => .atomXor g w order fetch,
    fun g w => .atomSwap g w order fetch, fun g w => .atomCas g w order fetch] : List GroupRow)[op % 8]?

/-- VXRED by REDOP in AUX 2:0; the reserved REDOP is one of its ADD row's refused words (R139). -/
def vxRedRow (w : Fields) : GroupRow :=
  ([Instr.vxRedAdd, .vxRedProduct, .vxRedMax, .vxRedMin, .vxRedAnd, .vxRedOr, .vxRedXor] : List GroupRow).getD (w.low.toNat % 8) Instr.vxRedAdd

/-- TXRED by the adder operation in AUX 7:5; a code that is no reduce-write is one of its ADD row's refused
words (R217). -/
def txRedRow (w : Fields) : GroupRow :=
  ([Instr.txRedAdd, .txRedMin, .txRedMax, .txRedAnd, .txRedOr, .txRedXor] : List GroupRow).getD (w.low.toNat / 32 % 8) Instr.txRedAdd

/-- The row of a CLASS and OP; none where they are reserved (R59, R61, R64, R106, R123, R134, R206, R217,
R219, R458). -/
def rowOf (cls op : Nat) (w : Fields) : Option GroupRow :=
  match cls with
  | 0x0 => rowFrom 1 [.intAdd, .intSub, .intAnd, .intOr, .intXor, .intNot, .intShl, .intShr, .intSra, .intRot, .intMov, .intLih, .intClz, .intPopc] op
  | 0x1 => rowFrom 1 [.imdMul, .imdMulhi, .imdDiv, .imdRem] op
  | 0x2 => rowFrom 1 [.f32Add, .f32Sub, .f32Mul, .f32Fma, .f32Min, .f32Max, .f32Abs, .f32Neg, .f32Div, .f32Sqrt] op
  | 0x3 => rowFrom 1 [.f64Add, .f64Sub, .f64Mul, .f64Fma, .f64Min, .f64Max, .f64Abs, .f64Neg, .f64Div, .f64Sqrt] op
  | 0x4 => rowFrom 1 [.cmpEq, .cmpNe, .cmpLt, .cmpLe, .cmpSel] op
  | 0x5 => rowFrom 1 [.cvtCvt, .cvtCvte, .cvtEcvt] op
  | 0x6 =>
    if 0x40 ≤ op ∧ op ≤ 0x7F then atomRow op
    else if op = 0x10 then some .memPf
    else if 9 ≤ op then rowFrom 9 [.memSt8, .memSt16, .memSt32, .memSt64] op
    else rowFrom 1 [.memLd8, .memLd8u, .memLd16, .memLd16u, .memLd32, .memLd64] op
  | 0x7 =>
    if 0x10 ≤ op then rowFrom 0x10 [.ctlMif, .ctlMelse, .ctlMend, .ctlMloop, .ctlMbrk] op
    else rowFrom 1 [.ctlBr, .ctlBrmz, .ctlBrany, .ctlBrall, .ctlBri, .ctlCall, .ctlExit, .ctlTrap, .ctlNop] op
  | 0x8 => if op = 0x10 then some .spcPhase else rowFrom 1 [.spcRdsr, .spcShfl, .spcVoteany, .spcVoteall, .spcBallot] op
  | 0x9 => rowFrom 1 [.mxMma, .mxDrain, .mxLdacc] op
  | 0xA =>
    if op < 0x10 then rowFrom 1 [.vxSetvl, .vxLd, .vxSt, .vxBcast] op
    else if op < 0x20 then
      rowFrom 0x10 [.vxAdd, .vxSub, .vxMul, .vxFma, .vxMin, .vxMax, .vxAbs, .vxNeg, .vxAnd, .vxOr, .vxXor, .vxNot, .vxCvt] op
    else if op < 0x30 then
      rowFrom 0x20 [.vxCmpeq, .vxCmplt, .vxCmple, .vxSel, .vxMand, .vxMor, .vxMxor, .vxMnot, .vxPerm, .vxIota] op
    else if op = 0x30 then some (vxRedRow w)
    else if op < 0x40 then rowFrom 0x38 [.vxExp2, .vxLog2, .vxRcp, .vxRsqrt] op
    else if op < 0x48 then rowFrom 0x40 [.vxExtr, .vxGets] op
    else rowFrom 0x48 [.vxChld, .vxChbase] op
  | 0xB => rowFrom 1 [.fyResv, .fyPush, .fyPop, .fyFree, .fyClose] op
  | 0xC => if op < 0x10 then rowFrom 1 [.syFence, .syRel, .syAcq, .syFencec] op else rowFrom 0x10 [.syTally, .syTrd, .syTadd] op
  | 0xD =>
    if op < 0x10 then rowFrom 1 [.txLd, .txSt, .txLdl, .txStl] op
    else if op = 0x10 then some .txPut else if op = 0x11 then some (txRedRow w) else if op = 0x12 then some .txDead else none
  | _ => none

/-- The fields of an instruction word below CLASS and OP (R60). -/
def wordFields (w : W64) : Fields :=
  { type := w.extractLsb' 48 4, form := w.extractLsb' 46 2, mod := w.extractLsb' 40 6, rd := w.extractLsb' 32 8
    rs1 := w.extractLsb' 24 8, low := w.extractLsb' 0 24 }

/-- The command that a group's instruction word spells: the row of its CLASS (63:60) and OP (59:52). A word with a
reserved CLASS or OP belongs to no row; it comes under the row of NOP, which refuses it as an
ILLEGAL_INSTRUCTION (R60, R61; DESIGN CHOICE, log 1). -/
def decodeWord (g : GroupId) (w : W64) : Instr :=
  let f := wordFields w
  match rowOf (w.extractLsb' 60 4).toNat (w.extractLsb' 52 8).toNat f with
  | some row => row g f
  | none => .ctlNop g { f with other := some (w.extractLsb' 52 12) }

/-- spec/opcode_table.json gives no row a pattern of bits (every row's "fields" is empty), so no word of the
table spells a command; `decodeWord` reads the words of the groups' instructions, which need a group beside
them (DESIGN CHOICE, log 1). -/
def decodeTableWord (_nbits _w : Nat) : Option Instr := none

end Sys2Proof
end

