-- ==== Sys2Proof/Config.lean ====
section
/-! DEFINITION. What the spec leaves to the individual module or to another standard, and the free
values of the model. Every constant here is opaque: nothing can be proved about its value. -/
namespace Sys2Proof.Config

/-- Free values: the n-th value the spec leaves open. A step that needs one reads it at the state's
counter `free` and advances the counter. (DESIGN CHOICE, log 3) -/
opaque freeNat : Nat → Nat
/-- Free 64-bit words, used like `freeNat`. (DESIGN CHOICE, log 3) -/
opaque freeWord : Nat → W64
/-- Free bytes, used like `freeNat`. (DESIGN CHOICE, log 3) -/
opaque freeByte : Nat → Byte
/-- SHA3-512 of FIPS 202 (R5, R410): another standard's function, left uninterpreted. (DESIGN CHOICE, log 4) -/
opaque sha3_512 : Bytes → BitVec 512
/-- FIPS 204 ML-DSA-87 verification of a message under a public key and a context string (R410,
R423): left uninterpreted. (DESIGN CHOICE, log 4) -/
opaque mldsaVerify : (publicKey message context signature : Bytes) → Bool
/-- FIPS 204 ML-DSA-87 signature made with a secret seed (R422): left uninterpreted. (DESIGN CHOICE, log 4) -/
opaque mldsaSign : (seed : BitVec 512) → (message : Bytes) → Bytes
/-- The serial number of this module, 24 characters (R4). (DESIGN CHOICE, log 5) -/
opaque serialNumber : BitVec 192
/-- The hardware stepping of this module (R4). (DESIGN CHOICE, log 5) -/
opaque stepping : BitVec 16
/-- The root secret of this module's PUF (R420). (DESIGN CHOICE, log 5) -/
opaque pufRoot : BitVec 512
/-- The vendor key hash held in ROM (R411). (DESIGN CHOICE, log 5) -/
opaque vendorKeyHash : BitVec 512
/-- The firmware image in flash at manufacture (R407, R408). (DESIGN CHOICE, log 5) -/
opaque flashImage : Bytes
/-- The device identity public key (R420). (DESIGN CHOICE, log 5) -/
opaque identityPublicKey : Bytes
/-- The certificate chain of slot 0 for a running image digest: vendor device CA, device identity and alias
certificates in DER, with the header SPDM puts before them (R421, R422). (DESIGN CHOICE, log 5) -/
opaque certificateChain : BitVec 512 → Bytes
/-- Spare rows left at manufacture, by linear pseudo-channel and bank (R198). (DESIGN CHOICE, log 6) -/
opaque spareRows : Nat → Nat → Nat
/-- Whether the spare bank of a channel (16 stacks of 32) is unused at manufacture (R198). (DESIGN CHOICE, log 6) -/
opaque spareBankUnused : Nat → Bool
/-- The number of rows of a DRAM bank, the range of ROW (R198). (DESIGN CHOICE, log 6) -/
opaque rowsPerBank : Nat
/-- What a sector of HBM reads as after a change of the die-local layout, by the change and the sector
(R180). (DESIGN CHOICE, log 60) -/
opaque oldSector : Nat → Nat → Nat

/-- What tells the core ceiling that a processor die's cap of so many watts allows (R351). (DESIGN CHOICE, log 36) -/
opaque coreCeiling : Nat → Nat
/-- Data buffers of a home, by agent (R238). (DESIGN CHOICE, log 146) -/
opaque homeBuffers : Nat → Nat
/-- What tells an NCR, NCP or MGT message's length from its header, whose OPCODE values the spec does not
give for these classes (R273, R274), by channel and header. (DESIGN CHOICE, log 151) -/
opaque classLength : Nat → BitVec 128 → Nat

end Sys2Proof.Config
end

