-- ==== Sys2Proof/Machine/State.lean ====
section
/-! DEFINITION. The state of the node: everything the spec gives it, as plain data, and its value
right after node reset. Default field values are the reset values. -/
namespace Sys2Proof.Machine

/-- Reasons a step can stop with a fault. The type is empty: the spec gives every command of the
table an effect, so no command ends in a machine stop. (Group faults, link errors and interface
error statuses are effects on the state.) -/
inductive Fault where
  deriving DecidableEq, Repr

/-- Reasons a command is refused. -/
inductive Refusal where
  /-- A command without a meaning in this model yet; raised by the dispatcher alone. Safe. -/
  | notModelled (mnemonic : String)
  deriving DecidableEq, Repr

/-! ### Thread groups (R56 to R79) -/

/-- One lane's access: lane, virtual address or scratchpad offset, physical address, and the location
by which caches and buffers know its bytes (R17). -/
structure LaneAccess where
  lane : Nat
  va : W64
  pa : Nat
  loc : Nat
  deriving DecidableEq, Repr

/-- A 128-byte line held as data with a poison bit for each 32-byte sector. -/
structure LineData where
  data : BitVec 1024 := 0
  poison : BitVec 4 := 0
  deriving DecidableEq, Repr

/-- A load that blocks its group (R157, R158, R331): destination, width and sign, the lanes, the
lines still missing and the lines that have arrived. -/
structure LoadBlock where
  word : W64
  rd : Nat
  bytes : Nat
  signed : Bool
  lanes : List LaneAccess
  need : List Nat
  got : Sparse LineData
  source : Nat := 0
  /-- with no L1, lines not yet asked for: line, uncached, translated (R158, R381) -/
  later : List (Nat × Bool × Bool) := []
  deriving DecidableEq, Repr

/-- An atomic whose result comes from another node (R220): the operation that will answer it. -/
structure AtomicBlock where
  /-- the lowest of its lanes -/
  lane : Nat
  /-- virtual address -/
  addr : Nat
  pa : Nat
  /-- where its bytes lie (R17) -/
  loc : Nat
  lanes : List Nat
  /-- the old value, once the answer has come -/
  result : Option Nat := none
  deriving DecidableEq, Repr

/-- What a group waits for (R70). -/
inductive Wait where
  /-- Ready to issue. -/
  | ready
  /-- Blocked by a load whose lines have not all arrived (R157). -/
  | load (b : LoadBlock)
  /-- Waiting for the results of network atomics (R220). -/
  | atomics (word : W64) (bs : List AtomicBlock)
  /-- Stalled in the instruction at its PC (R34, R70, R206); the word is kept. -/
  | stall (word : W64)
  /-- Waiting for an engine to execute the instruction before the PC (R135). -/
  | engine
  /-- Stalled by a recoverable fault, named by its record (R263). -/
  | faulted (die seq : Nat)
  deriving DecidableEq, Repr

/-- The ordering a fence of a group asks for (R208): accesses issued with a number below `no` come
before later ones, for the kinds named. -/
structure Fence where
  no : Nat
  scope : Nat
  /-- earlier writes are ordered (a release or a full fence); reads are always ordered. -/
  writesBefore : Bool
  /-- later reads are ordered too (an acquire or a completing fence). -/
  readsAfter : Bool
  /-- an acquire that waits for earlier reads in the engines before it invalidates (R208, R209) -/
  acquires : Bool := false
  deriving DecidableEq, Repr

/-- A resident thread group (R56 to R59, R72, R93, R129 to R133). -/
structure Group where
  kernel : Nat
  landing : Nat
  lcluster : Nat
  index : Nat
  regCount : Nat
  vregCount : Nat
  accumCount : Nat
  accumBase : Nat
  pc : W64
  launch : W32 := 0xFFFFFFFF
  active : W32 := 0xFFFFFFFF
  stack : List (W32 × W32) := []
  flags : BitVec 4 := 0
  phase : Nat
  /-- scalar registers, index 256 × lane + register (R57) -/
  regs : Sparse W32 := []
  vregs : Sparse (BitVec 4096) := []
  vl : Nat := 128
  /-- mask registers VM1 to VM7 (R132) -/
  vmask : Sparse (BitVec 1024) := []
  empty : Bool := false
  /-- streams this group has closed: 512 × ferry + queue (R37, R38) -/
  closed : List Nat := []
  wait : Wait := .ready
  halted : Bool := false
  /-- count of instructions issued, the order number of its accesses (R204) -/
  issued : Nat := 0
  fences : List Fence := []
  deriving DecidableEq, Repr

/-! ### Cluster engines -/

/-- The kind of an accumulator tile (R97, R110). -/
inductive AccKind where
  | fp64 | fp32 | i32
  deriving DecidableEq, Repr

/-- What is latched for a tile at its first MXMMA, as the checks see it (R112). -/
structure LatchMeta where
  kindA : BitVec 2
  kindB : BitVec 2
  blockA : Bool
  blockB : Bool
  deriving DecidableEq, Repr

/-- An accumulator tile: its state in the groups' instruction streams (R108, R110), and the values
and scale latch at the engine (R111, R112). -/
structure AccTile where
  /-- open for this group (16 × scheduler + slot) with this kind; none: closed or draining -/
  openBy : Option (Nat × AccKind) := none
  latchMeta : Option LatchMeta := none
  /-- engine side: a slip entry holds the tile (R110 draining) -/
  draining : Bool := false
  kind : AccKind := .fp32
  /-- values as bits, index 64 × row + column -/
  vals : Sparse W64 := []
  /-- row scales of A and column scales of B as latched, fp32 bits; none: scale 1 (R95, R112) -/
  rowScale : Option (Sparse W32) := none
  colScale : Option (Sparse W32) := none
  deriving DecidableEq, Repr

/-- A chain stage (R146). -/
structure Stage where
  kind : Nat
  ninstr : Nat
  redop : Nat
  rowBase : Nat
  rowEn : Bool
  rowBf16 : Bool
  colBase : Nat
  colEn : Bool
  colBf16 : Bool
  outBase : Nat
  outDest : Nat
  consts : List W32
  program : List W32
  deriving DecidableEq, Repr

/-- A loaded chain descriptor (R146). -/
structure Chain where
  wide : Bool
  stages : List Stage
  deriving DecidableEq, Repr

/-- A chain slot (R145). -/
structure ChainSlot where
  /-- loads of the slot that are queued (R145) -/
  loading : Nat := 0
  chain : Option Chain := none
  bases : Sparse Nat := []
  deriving DecidableEq, Repr

/-- A queued MX operation with its operands as read at issue (R119). -/
inductive MxOp where
  | mma (fmtA : Nat) (a b : W64) (off : W32) (start latch : Bool) (tile : Nat)
  | drain (dest : W64) (off : W32) (slot : Nat) (chain : Option (Chain × Sparse Nat)) (tile : Nat)
  | ldacc (src : W64) (off : W32) (tile : Nat)
  deriving DecidableEq, Repr

/-- An entry of the matrix engine's queue. -/
structure MxEntry where
  group : Nat
  no : Nat
  op : MxOp
  word : W64
  pc : W64
  deriving DecidableEq, Repr

/-- An entry of the slip (R115). -/
structure SlipEntry where
  group : Nat
  no : Nat
  tile : Nat
  dest : W64
  off : W32
  slot : Nat
  chain : Option (Chain × Sparse Nat)
  /-- passes taken, 0 to 32 (R150) -/
  pass : Nat := 0
  /-- the MXDRAIN and its place, for a fault it still meets (R365) -/
  word : W64 := 0
  pc : W64 := 0
  deriving DecidableEq, Repr

/-- An entry of the vector engine's queue, with VL and scalar operands as read at issue (R131,
R135). -/
structure VxEntry where
  group : Nat
  no : Nat
  word : W64
  pc : W64
  vl : Nat
  s1 : W64
  s2 : W64
  deriving DecidableEq, Repr

/-- A transfer in progress (R123 to R126, R217). `pos` counts the line parts performed. -/
structure Xfer where
  group : Nat
  no : Nat
  kernel : Nat
  word : W64
  pc : W64
  addr : W64
  stride : W64
  count : Nat
  handle : W64
  off : Nat
  tally : Option W32 := none
  pos : Nat := 0
  /-- the current part's read of another node or of the host is outstanding (R331) -/
  awaiting : Bool := false
  /-- what such a read has returned, and whether it is poisoned -/
  arrived : Option (Bytes × Bool) := none
  /-- false once remote-node lines were invalidated while the read was outstanding (R173) -/
  keepRemote : Bool := true
  deriving DecidableEq, Repr

/-- A line of the L1, newest use first in its list (R155). -/
structure L1Line where
  line : Nat
  data : LineData
  deriving DecidableEq, Repr

/-- An entry of the prefetch side buffer, oldest first (R163). -/
structure PfEntry where
  line : Nat
  data : Option LineData := none
  keep : Bool := true
  /-- what a window of another node or of the host has returned -/
  came : Option LineData := none
  hint : Nat := 0
  owner : Option (Nat × Nat) := none
  /-- false while its request waits for the write buffer's drain (R160) -/
  asked : Bool := true
  translated : Bool := false
  /-- false once remote-node lines were invalidated while it was outstanding (R173) -/
  keepRemote : Bool := true
  /-- the prefetching group and its order number -/
  by' : Option (Nat × Nat) := none
  deriving DecidableEq, Repr

/-- A prefetch whose address is not translated yet: the group, its kernel and landing, the hint, the
virtual line address and the group's order number (R163, R208). -/
structure PfWait where
  group : Nat
  kernel : Nat
  landing : Nat
  no : Nat
  hint : Nat
  va : Nat
  deriving DecidableEq, Repr

/-- A missed line in flight (R157); `keep` is false after an invalidation (R164). -/
structure Fill where
  line : Nat
  keep : Bool := true
  hint : Nat := 0
  uncached : Bool := false
  owner : Option (Nat × Nat) := none
  /-- what a window of another node or of the host has returned -/
  data : Option LineData := none
  /-- false once remote-node lines were invalidated while it was outstanding (R173) -/
  keepRemote : Bool := true
  deriving DecidableEq, Repr

/-- An entry of the merging write buffer (R160): the location of its sector / 32, byte mask, data, and
the groups whose stores it holds, with the number of the last one; the hint and memory type of the last
store. `parts`: the stores it holds, by offset and width, oldest first, which a register sees one by one
(R457). -/
structure WbEntry where
  sector : Nat
  mask : BitVec 32
  data : BitVec 256
  owners : List (Nat × Nat)
  parts : List (Nat × Nat) := []
  hint : Nat := 0
  uncached : Bool := false
  translated : Bool := false
  deriving DecidableEq, Repr

/-- A translation held in a TLB (R251, R252, R259). -/
structure TlbEntry where
  part : Nat
  asid : Nat
  /-- first 4 KiB page and log2 of the number of 4 KiB pages -/
  vpn : Nat
  log2pages : Nat
  level : Nat
  pte : W64
  /-- a host entry: translated host address and granted permissions (R259) -/
  host : Option (Nat × Bool × Bool) := none
  deriving DecidableEq, Repr

/-- A non-leaf entry of the walk cache (R252). -/
structure WalkEntry where
  part : Nat
  asid : Nat
  level : Nat
  prefixVpn : Nat
  table : Nat
  deriving DecidableEq, Repr

/-- A compute cluster (R101, R129, R135, R153 to R164, R251). -/
structure Cluster where
  kernel : Option Nat := none
  lastQueue : Option Nat := none
  lastCtx : Option Nat := none
  /-- L1 size in force, bytes (R153) -/
  l1size : Nat := 0
  spad : List Host.Cell := []
  l1 : List L1Line := []
  fills : List Fill := []
  pf : List PfEntry := []
  /-- prefetches that wait for a translation or for an earlier acquire of their group -/
  pfWait : List PfWait := []
  wb : List WbEntry := []
  mxq : List MxEntry := []
  slip : List SlipEntry := []
  /-- clocks left before the slip's next pass is due, less those of the instructions started since (R135, R150) -/
  slipPace : Nat := 0
  tiles : Sparse AccTile := []
  /-- format class of the last MXMMA (R119) -/
  lastClass : Option Nat := none
  vxq : List VxEntry := []
  slots : Sparse ChainSlot := []
  xfers : List Xfer := []
  utlb : List TlbEntry := []
  deriving DecidableEq, Repr

/-! ### Kernels and ferries (R25 to R54) -/

/-- The image header (R25). -/
structure ImageHeader where
  magic : Nat
  version : Nat
  hdrsize : Nat
  imgsize : Nat
  crc : Nat
  codeOff : Nat
  codeSize : Nat
  constOff : Nat
  constSize : Nat
  manOff : Nat
  manSize : Nat
  deriving DecidableEq, Repr

/-- A landing record (R45). -/
structure Landing where
  clusters : Nat
  colocate : Nat
  groups : Nat
  regs : Nat
  vregs : Nat
  accum : Nat
  phase0 : Nat
  entry : Nat
  deriving DecidableEq, Repr

/-- A ferry record (R45). -/
structure Ferry where
  producer : Nat
  consumer : Nat
  capacity : Nat
  pattern : Nat
  tileSize : Nat
  cycleCredit : Nat
  netgroup : Nat
  tag : Nat
  deriving DecidableEq, Repr

/-- A berth record (R45). -/
structure Berth where
  size : Nat
  landing : Nat
  zero : Bool
  deriving DecidableEq, Repr

/-- A mooring record (R45). -/
structure Mooring where
  landing : Nat
  ways : Nat
  deriving DecidableEq, Repr

/-- A kernel manifest (R45). -/
structure Manifest where
  version : Nat
  l1size : Nat
  tallies : Nat
  features : Nat
  landings : List Landing
  ferries : List Ferry
  berths : List Berth
  moorings : List Mooring
  netgroups : List Nat
  phases : List Nat
  deriving DecidableEq, Repr

/-- A ferry slot (R34, R122). -/
inductive SlotState where
  | free
  | reserved (group : Nat)
  | committed
  | held (group : Nat)
  /-- freed by FYFREE, waiting for an MX read issued earlier (R122) -/
  | freeing (group no : Nat)
  deriving DecidableEq, Repr

/-- A tile of an IN end whose fragments are still arriving, or that waits for its turn (R313): TSEQ, slot
position, handle, bytes received, and its size once the LAST fragment has come. -/
structure PartialTile where
  tseq : Nat
  slot : Nat
  handle : W64
  got : Nat
  total : Option Nat
  deriving DecidableEq, Repr

/-- One queue of a ferry (R33 to R38, R42, R312, R313). -/
structure FerryQueue where
  slots : List SlotState
  /-- committed handles, oldest first -/
  fifo : List W64 := []
  /-- producer groups whose stream has ended by FYCLOSE -/
  closedBy : List Nat := []
  /-- END's tile count: received by an IN end, sent by an OUT end -/
  endCount : Option Nat := none
  /-- credits held by an OUT end; none until connected -/
  credits : Option Nat := none
  /-- tiles sent by an OUT end, committed by an IN end -/
  tiles : Nat := 0
  partialTiles : List PartialTile := []
  matched : Bool := false
  /-- the long ferry's other end: its member index (R312) -/
  peer : Nat := 0
  gone : Bool := false
  deriving DecidableEq, Repr

/-- How a kernel ends (R39, R40, R222). -/
inductive KernelPhase where
  | running
  | aborted
  /-- completion record bytes 0 to 55 written, waiting for the PEER flush read (R330) -/
  | flushing
  deriving DecidableEq, Repr

/-- A placed kernel (R47, R51, R52, R325 to R330). -/
structure Kernel where
  part : Nat
  queue : Nat
  seq : W32
  cscope : Nat
  irq : Bool
  flushAddr : W64
  kernelId : W32
  args : W64
  image : W64
  completionPa : Nat
  /-- COMPLETION was translated through a host leaf (R331) -/
  completionXl : Bool := false
  ctx : Nat
  flush : Bool
  fixedPoint : Option Nat
  header : ImageHeader
  man : Manifest
  /-- for each landing, its clusters by index (R27, R49) -/
  clusters : List (List Nat)
  /-- scratchpad offset of each berth (R31) -/
  berthOff : List Nat
  /-- scratchpad offset of each ferry's slots (R33) -/
  ferryOff : List Nat
  /-- queues: 512 × ferry + queue -/
  ferries : Sparse FerryQueue
  /-- first tally on each Kysar die (R211) -/
  tallyBase : Sparse Nat
  boundGroups : List Nat
  phase : KernelPhase := .running
  reason : Nat := 0
  flags : BitVec 4 := 0
  residue : Bool := false
  /-- some bubble has been inserted in its clusters (R349) -/
  bubbled : Bool := false
  clockLost : Bool := false
  /-- BUBBLES of its completion record, once it is being written (R349) -/
  bubbleField : Nat := 0
  /-- the launch was refused: only its completion record is left to finish -/
  refused : Bool := false
  /-- a network-window write failed at the transport: address and network group (R222, R224) -/
  remoteFail : Option (Nat × Nat) := none
  /-- refused for its record's header, whose scope then asks for no flush -/
  noFlush : Bool := false
  /-- a SESSION OPEN with FORCE aborted it: no completion record (R335) -/
  silent : Bool := false
  deriving DecidableEq, Repr

/-- The tallies of one Kysar die (R211): values, and the runs held as (base, length, kernel). -/
structure TallySet where
  vals : Sparse W64 := []
  runs : List (Nat × Nat × Nat) := []
  deriving DecidableEq, Repr

/-! ### Level-2 cache and coherence (R165 to R177, R226 to R243) -/

/-- Line states (R228). -/
inductive Coh where
  | I | S | F | E | M | O
  deriving DecidableEq, Repr

/-- A line held by a caching agent, or by a home half as its own copy, newest use first in its list
(R165 to R169, R228). -/
structure Copy where
  line : Nat
  st : Coh
  valid : BitVec 4
  dirty : BitVec 4
  poison : BitVec 4 := 0
  data : BitVec 1024
  way : Nat := 0
  keep : Bool := false
  remote : Bool := false
  tomb : Bool := false
  /-- a read has reached the tombstone (R176) -/
  tombRead : Bool := false
  deriving DecidableEq, Repr

/-- A directory entry (R231), newest use first in its list. -/
structure DirEntry where
  line : Nat
  st : Coh
  resp : Option Nat
  sharers : BitVec 13
  deriving DecidableEq, Repr

/-- The requests a home serves (R233, R236). -/
inductive CohReq where
  | rds | rdu | upg | wbk | evc | rdn | wrn | dead | addop | backInval
  deriving DecidableEq, Repr

/-- A transaction at its home (R234): from the acceptance of the request to CMPACK. -/
structure Txn where
  line : Nat
  req : CohReq
  agent : Nat
  mask : BitVec 4
  /-- snoops sent and not yet answered: agent and SNP code -/
  snoops : List (Nat × Nat)
  /-- snoops performed whose SRSP has not reached the home: agent, new state, sectors sent, dirty -/
  responses : List (Nat × Coh × BitVec 4 × BitVec 4)
  /-- data on its way to the requester -/
  dataSect : BitVec 4 := 0
  dirtySect : BitVec 4 := 0
  poisonSect : BitVec 4 := 0
  data : BitVec 1024 := 0
  /-- sectors the requester has received -/
  received : BitVec 4 := 0
  grant : Coh := .I
  cmpSent : Bool := false
  cmpGot : Bool := false
  bytes : BitVec 128 := 0
  wdata : BitVec 1024 := 0
  tally : Option (BitVec 20) := none
  arg : BitVec 29 := 0
  compare : W64 := 0
  error : Option (BitVec 8) := none
  /-- the way its requester keeps for the fill (R238) -/
  way : Option Nat := none
  deriving DecidableEq, Repr

/-- A stream tracker (R172). -/
structure Tracker where
  cluster : Nat
  next : Nat
  count : Nat
  deriving DecidableEq, Repr

/-- One coherent agent (R226): an L2 half, an L3 complex, a hub or the companion. -/
structure CohAgent where
  copies : List Copy := []
  /-- lines sent by WBK, kept until the home's CMP (R237) -/
  wbBuf : List Copy := []
  dir : List DirEntry := []
  /-- dead agents whose lines are still being reclaimed, and the lines poisoned so far (R240) -/
  reclaim : List (Nat × Nat) := []
  /-- agents dead to this home -/
  deadTo : List Nat := []
  trackers : List (Option Tracker) := []
  /-- moored ways: way, kernel, landing (R170) -/
  moored : List (Nat × Nat × Nat) := []
  /-- requests answered with RETRY and not yet accepted, oldest first, with the RETRYs given (R382) -/
  retries : List (Txn × Nat) := []
  deriving DecidableEq, Repr

/-! ### Translation (R245 to R267) -/

/-- A recoverable fault that stalls an access (R263): the record's die and SEQ, and the group key
or, for a transfer, the cluster and the transfer's order number. -/
structure StalledFault where
  part : Nat
  die : Nat
  seq : Nat
  code : Nat
  group : Nat
  xfer : Option Nat
  deriving DecidableEq, Repr

/-- An access that waits for a host translation: its group, or a launch (`launchWaiter`), the transfer
where it is one's, the virtual address and the ACCESS code (R262). -/
structure XlWaiter where
  group : Nat
  xfer : Option Nat
  va : Nat
  access : Nat
  /-- physical address of the host leaf its walk read, 0 on a TLB hit (R262) -/
  leaf : Nat := 0
  deriving DecidableEq, Repr

/-- A page request awaiting its PRG response, or an ATS request awaiting its completion (R259,
R261). -/
structure HostXlate where
  port : Nat
  vf : Nat
  tag : Nat
  part : Nat
  ctx : Nat
  va : W64
  write : Bool
  pri : Bool
  /-- a page request waiting for allocation (R261) -/
  queued : Bool := false
  /-- it has failed: the launch that waits for it learns so when it is tried again -/
  failed : Bool := false
  waiters : List XlWaiter := []
  deriving DecidableEq, Repr

/-- The translation register block and queues of a partition (R250, R254, R255, R265). -/
structure Xlate where
  fqBase : W64 := 0
  fqSize : W32 := 256
  fqHead : W32 := 0
  fqTail : W32 := 0
  invDrop : Bool := false
  overflow : Bool := false
  inten : Bool := false
  enable : Bool := false
  fqLost : Sparse W64 := []
  invAddr : W64 := 0
  invDone : W64 := 0
  invIssued : W64 := 0
  /-- queued invalidations, oldest first: OP, context, first page, pages -/
  invQueue : List (Nat × Nat × Nat × Nat) := []
  ctxRoot : Sparse W64 := []
  ctxId : Sparse W64 := []
  /-- recoverable records that wait for room in the queue (R266) -/
  waitingRecords : List (BitVec 512) := []
  deriving DecidableEq, Repr

/-- The translation structures of a Kysar die (R252). -/
structure DieXlate where
  tlb : List TlbEntry := []
  walks : List WalkEntry := []
  faultSeq : Nat := 0
  deriving DecidableEq, Repr

/-! ### Package links (R268 to R287) -/

/-- Link states (R269, R287). -/
inductive LinkState where
  | reset | detect | lock | deskew | caps | credit | up | upSpares | retraining | down
  deriving DecidableEq, Repr

/-- A message whose slots are still arriving (R272, R274): its channel, its slots so far, how many are
still to come, and whether the next one is the enclosed header of an FRD message. -/
structure Assembly where
  vc : Nat
  slots : List (BitVec 128)
  more : Nat
  enclosing : Bool := false
  deriving DecidableEq, Repr

/-- One direction of a link, seen from its sender and its receiver (R270 to R278). -/
structure LinkEnd where
  nextSeq : Nat := 0
  expSeq : Nat := 0
  /-- data flits sent and not acknowledged, oldest first -/
  replay : List (Nat × BitVec 2048) := []
  /-- credits held, by virtual channel -/
  credits : List Nat := [0, 0, 0, 0, 0, 0, 0, 0]
  /-- the receiver has sent NAK and still waits for the flit it expects -/
  nakSent : Bool := false
  /-- replays of the last 4 µs (R279, log 56) -/
  replayCount : Nat := 0
  /-- data flits received since the receiver's last ACK -/
  sinceAck : Nat := 0
  assembling : Option Assembly := none
  /-- the message whose slots its sender has begun to send -/
  sending : Option Assembly := none
  /-- slots the receiver has freed and not yet returned as credit, by virtual channel (R276) -/
  owed : List Nat := [0, 0, 0, 0, 0, 0, 0, 0]
  /-- data flits sent since the last LANECHECK (R271) -/
  sinceCheck : Nat := 0
  /-- training: LOCK and CREDIT done in this direction -/
  locked : Bool := false
  credited : Bool := false
  /-- physical lanes that failed or were retired, rising (R282) -/
  failedLanes : List Nat := []
  /-- LANECHECK errors by logical lane, and how many LANECHECKs in a row showed more than 8 -/
  laneErrors : Sparse Nat := []
  laneStreak : Sparse Nat := []
  forded : Bool := false
  deriving DecidableEq, Repr

/-- A Grentirus link (R12, R269, R281). -/
structure Link where
  state : LinkState := .reset
  attempts : Nat := 0
  /-- it has been ACTIVE since node reset -/
  trained : Bool := false
  fwd : LinkEnd := {}
  rev : LinkEnd := {}
  /-- CAP0 in force and the second end's CAP1 -/
  caps : Option (W64 × W64) := none
  /-- GL18: windows the companion offers of its memory, and windows granted to it (R285) -/
  offered : List W64 := []
  granted : List W64 := []
  deriving DecidableEq, Repr

/-- A package request that has not completed (R280): its SRC and DST codes (agents, or dies for an NCR
request), TXID, address and the dies it runs between. -/
structure PkgRequest where
  src : Nat
  ncr : Bool
  txid : Nat
  fromDie : Nat
  toDie : Nat
  dst : Nat := 0
  addr : Nat := 0
  expired : Bool := false
  deriving DecidableEq, Repr

/-- A message an intermediate die has received and not yet sent on (R13): the direction it leaves by, its
channel there, and the direction, channel and slots by which it came. -/
structure Forward where
  link : Fin 19
  rev : Bool
  vc : Nat
  msg : Message
  fromLink : Fin 19
  fromRev : Bool
  fromVc : Nat
  slots : Nat
  deriving DecidableEq, Repr

/-- The fields of a message's header slot (R273). -/
structure MsgHeader where
  addr : Nat
  opcode : Nat
  src : Nat
  dst : Nat
  txid : Nat
  sect : Nat
  dirty : Nat
  poison : Nat
  state : Nat
  arg : Nat
  deriving DecidableEq, Repr

/-! ### Network (R288 to R317) -/

/-- Sub-port states (R318): down, training, up but held, up, up and narrowed. -/
inductive PortState where
  | down | training | held | up | narrowed
  deriving DecidableEq, Repr

/-- A frame in a transmit queue: its flow, NCT header and payload. -/
structure QueuedFrame where
  flow : Nat
  header : BitVec 384
  payload : Bytes
  deriving DecidableEq, Repr

/-- A sub-port (R288 to R292). -/
structure SubPortState where
  state : PortState := .down
  lanes : List Nat := []
  neighbour : Option (Bytes × Bytes) := none
  nextHop : Option (BitVec 48) := none
  narrowed : Bool := false
  /-- it lost its link and has not regained it -/
  lost : Bool := false
  /-- the node address taken at its last training (OD 5010h) -/
  address : BitVec 128 := 0
  /-- the frames of its transmit queue that may not be on the wire yet, oldest first (R292, R299) -/
  queue : List QueuedFrame := []
  deriving DecidableEq, Repr

/-- A packet sent and not acknowledged (R297, R298). -/
structure TxPacket where
  psn : BitVec 32
  header : BitVec 384
  payload : Bytes
  port : Nat
  sent : Bool := false
  gapResent : Bool := false
  /-- the network operation it belongs to; none for a response -/
  op : Option Nat
  deriving DecidableEq, Repr

/-- Who asked for a network operation, for its outcome (R302). -/
inductive NetUser where
  /-- a write, reduce-write or tally add of stores or transfers of groups (group, number), by its address -/
  | store (kernel : Nat) (owners : List (Nat × Nat)) (addr : Nat)
  /-- a missed or prefetched line; a prefetch by its group and number -/
  | load (cluster line : Nat) (by' : Option (Nat × Nat))
  | xferRead (cluster group no : Nat)
  | atomic (group lane : Nat)
  | schedule (hub slot step : Nat)
  | tile (kernel ferryQueue slot : Nat) (by' : Nat × Nat)
  /-- a CONNECT, CREDIT, END or ABANDON; one an instruction causes, by its group and number -/
  | ferryCtl (kernel ferryQueue : Nat) (by' : Option (Nat × Nat))
  | core (hart : Nat)
  | coreStore (hart : Nat)
  | drain (twin : Nat)
  deriving DecidableEq, Repr

/-- A network operation in progress: its packets not yet acknowledged, and for a read the bytes
still missing. -/
structure NetOp where
  id : Nat
  flow : Nat
  user : NetUser
  awaiting : Nat
  /-- it ends with its response and not with the acknowledgement of its request -/
  reply : Bool := false
  /-- the PSNs of its packets -/
  psns : List (BitVec 32) := []
  deriving DecidableEq, Repr

/-- A flow (R293, R297 to R301): the sender's and the receiver's side. -/
structure Flow where
  nextPsn : BitVec 32 := 0
  unacked : List TxPacket := []
  window : Nat := 16
  acked : Nat := 0
  timerUs : Nat := 64
  killed : Bool := false
  /-- the sub-port used last, and the round of the spray, 0 to 3 (R291, R299) -/
  lastPort : Nat := 47
  pass : Nat := 0
  halved : Bool := false
  /-- whether the hub holds receive state for it (R300) -/
  receiving : Bool := false
  /-- receiver: next PSN wanted minus one is C; PSNs recorded above it -/
  cum : BitVec 32 := 0xFFFFFFFF
  recorded : List (BitVec 32) := []
  sinceAck : Nat := 0
  sawCe : Bool := false
  deriving DecidableEq, Repr

/-- Registered IN ends (R312): kernel, ferry, group, TAG; second registrations are not listed. -/
structure InEnd where
  kernel : Nat
  ferry : Nat
  group : Nat
  tag : Nat
  failed : Bool := false
  deriving DecidableEq, Repr

/-- A schedule slot (R314 to R316). -/
structure SchedSlot where
  addr : W64 := 0
  /-- where the schedule last started lies -/
  base : W64 := 0
  stepIndex : Nat := 0
  status : Nat := 0
  /-- 0 idle, 1 running, 2 done, 3 failed -/
  state : Nat := 0
  /-- steps started and not acknowledged: step, network operation -/
  inFlight : List (Nat × Nat) := []
  group : Nat := 0
  steps : Nat := 0
  done : W32 := 0
  deriving DecidableEq, Repr

/-- The network side of the node. -/
structure Net where
  subports : Sparse SubPortState := []
  retiredLanes : List Nat := []
  groups : Sparse (BitVec 512) := []
  apertures : Sparse (BitVec 128) := []
  keys : Sparse (BitVec 256) := []
  flows : Sparse Flow := []
  ops : List NetOp := []
  nextOp : Nat := 0
  inEnds : List InEnd := []
  goneTags : List (Nat × Nat) := []
  sched : Sparse SchedSlot := []
  laneErrors : Sparse Nat := []
  reference : Bool := true
  deriving DecidableEq, Repr

/-! ### Host attachment (R319 to R342) -/

/-- Per-function PCIe state (R319 to R324, R332). -/
structure FnState where
  /-- configuration space, 32-bit words written by the host, by word index -/
  cfg : Sparse W32 := []
  /-- the MSI-X table: address, data and vector control of an entry; unlisted entries are masked -/
  msix : Sparse (BitVec 128) := []
  b4base : W64 := 0
  /-- log2 of the BAR4 size in force (R322) -/
  bar4 : Nat := 36
  sessionId : W64 := 0
  sessionArg : W64 := 0
  sessionResult : Nat := 0
  /-- 0 none, 1 attached, 2 orphaned -/
  sessionState : Nat := 0
  priStopped : Bool := false
  deriving DecidableEq, Repr

/-- A launch queue (R325, R327). -/
structure Queue where
  qbase : W64 := 0
  enable : Bool := false
  ctx : Nat := 0
  log2size : Nat := 8
  qseq : W32 := 0
  qhead : Nat := 0
  qdone : W32 := 0
  stopped : Bool := false
  fetchErr : Bool := false
  cplLost : Bool := false
  waiting : Bool := false
  phase : Bool := true
  target : Nat := 0
  rereads : Nat := 0
  deriving DecidableEq, Repr

/-- Who a host-window read belongs to (R331). -/
inductive HostUser where
  | load (cluster line : Nat)
  | xfer (cluster group no : Nat)
  | core (hart : Nat)
  | flush (kernel : Nat)
  /-- the read that covers a hub drain's writes (R373) -/
  | drain (twin : Nat)
  deriving DecidableEq, Repr

/-- A read outstanding at a port (R331), by its requester's function; `sent` is false while 1,024 others are
outstanding there (R319). -/
structure HostRead where
  port : Nat
  vf : Nat
  tag : Nat
  addr : Nat
  len : Nat
  user : HostUser
  translated : Bool := false
  sent : Bool := true
  deriving DecidableEq, Repr

/-- An ATS invalidation whose completion waits for host reads, by their tags (R260). -/
structure AtsInval where
  port : Nat
  vf : Nat
  itag : Nat
  reads : List Nat
  deriving DecidableEq, Repr

/-- A port (R319, R334, R340). -/
structure HostPort where
  /-- 0 down, 1 training, 2 up -/
  link : Nat := 0
  rate : Nat := 0
  lanes : Nat := 0
  released : Bool := false
  /-- log2 of the BAR4 size taken at the last conventional reset (R322) -/
  bar4 : Nat := 36
  ecam : Sparse W32 := []
  deriving DecidableEq, Repr

/-- A hart (R336, R341, R354, R430). -/
structure Hart where
  running : Bool := false
  pc : W64 := 0
  a0 : W64 := 0
  a1 : W64 := 0
  mmode : Bool := true
  freqReq : BitVec 12 := 800
  timerIrq : Bool := false
  /-- LR reservation: the line (R338) -/
  reservation : Option Nat := none
  /-- access fault taken: 1 load, 2 store, 3 instruction -/
  accessFault : Option Nat := none
  /-- what its last load returned, up to 64 bytes -/
  lastLoad : BitVec 512 := 0
  deriving DecidableEq, Repr

/-- The host side of the node. -/
structure HostSide where
  fns : Sparse FnState := []
  queues : Sparse Queue := []
  ports : Sparse HostPort := []
  reads : List HostRead := []
  nextTag : Nat := 0
  nextSession : Nat := 1
  /-- pending interrupt sources (R336) -/
  irqPending : Sparse Bool := []
  routes : Sparse W64 := []
  harts : Sparse Hart := []
  ats : List HostXlate := []
  atsInvals : List AtsInval := []
  nextAts : Nat := 0
  /-- by partition: the queue a record was last taken from, and the queue whose launch is under way (R48, R327) -/
  lastQueue : Sparse Nat := []
  launchWait : Sparse Nat := []
  deriving DecidableEq, Repr

/-! ### Power and temperature (R343 to R361) -/

/-- A Kysar die half's clock limits (R351, R352, R355, R357). -/
structure Half where
  capAllowed : Nat := 9
  tempAllowed : Nat := 9
  /-- half cap in milliwatts -/
  cap : Nat := 390000
  bubble : Nat := 0
  /-- point reached while stepping back up after an alert (R355) -/
  ramp : Option Nat := none
  /-- the conditions of R345 held throughout the last period -/
  boost : Bool := false
  /-- the bubble rate stood at its limit, or at zero, since the last control period -/
  atLimit : Bool := false
  atZero : Bool := true
  deriving DecidableEq, Repr

/-- Per-die power state (R350, R351, R354, R358). -/
structure DiePower where
  telemetry : Option Telemetry := none
  missing : Bool := false
  /-- core ceiling the module cap allows, in MHz -/
  ceiling : Nat := 3400
  /-- core ceiling the temperature allows, in MHz (R357) -/
  tempCeiling : Nat := 3400
  watchdog : Bool := false
  deriving DecidableEq, Repr

/-- A part's thermal state (R357): throttling, limiting, and samples below the limit's release since it
was last above. -/
structure Thermal where
  temp : Option Int := none
  throttle : Bool := false
  limit : Bool := false
  cool : Nat := 0
  deriving DecidableEq, Repr

/-- The power manager and the alert path (R350 to R359). -/
structure Power where
  halves : Sparse Half := []
  dies : Sparse DiePower := []
  alert : Bool := false
  hold : Bool := false
  /-- the hub whose controller is the manager -/
  manager : Nat := 0
  capEngaged : Sparse Bool := []
  periods : Nat := 0
  lastInput : Option Nat := none
  /-- dies 0 to 8, base dies at 16 + stack, DRAM at 32 + stack -/
  thermal : Sparse Thermal := []
  deriving DecidableEq, Repr

/-! ### Memory repair, errors, twins, events (R179 to R200, R362 to R383) -/

/-- The 1500 port of a stack and what it repairs (R198, R199). -/
structure Stack where
  wir : BitVec 8 := 0xFF
  busy : Bool := false
  result : BitVec 8 := 0
  wdrin : W64 := 0
  wdrout : W64 := 0
  running : BitVec 8 := 0xFF
  operand : W64 := 0
  offline : Bool := false
  zeroing : Bool := false
  /-- zeroed since every sector was poisoned at node reset (R199, R404) -/
  cleared : Bool := false
  failed : Bool := false
  /-- its sectors are unspecified since this layout change, but those of `Mem.known` (R180) -/
  mixed : Option Nat := none
  /-- linear pseudo-channel being filled, slot key, next granule -/
  fill : Option (Nat × Nat × Nat) := none
  /-- retirements waiting for the running fill: pseudo-channel and cause -/
  fillWaiting : List (Nat × Nat) := []
  deriving DecidableEq, Repr

/-- A pseudo-channel's error counts and repairs (R198, R364). -/
structure PseudoChannel where
  correctedSectors : List Nat := []
  repeatSectors : List Nat := []
  uncorrectableRows : List Nat := []
  /-- command and address parity errors (R364) -/
  parityErrors : Nat := 0
  retired : Bool := false
  /-- retired without data recovery (R196) -/
  lost : Bool := false
  /-- every remaining sector of its fill is lost (R368) -/
  failedHard : Bool := false
  rowsRepaired : Bool := false
  bankReplaced : Bool := false
  /-- spare rows used by hard repairs and by soft ones, by bank -/
  rowsUsed : Sparse Nat := []
  softRows : Sparse Nat := []
  deriving DecidableEq, Repr

/-- A spare slot (R194, R197), keyed by its sub-index of OD 4031h. -/
structure SpareSlot where
  filled : Bool := false
  lost : Bool := false
  pc : Nat
  deriving DecidableEq, Repr

/-- A twin region (R370). -/
structure Twin where
  back0 : W64 := 0
  back1 : W64 := 0
  size : W64 := 0
  part : Nat := 0
  mode : BitVec 8 := 0xFF
  target0 : W64 := 0
  target1 : W64 := 0
  valid : Bool := false
  drainFail : Bool := false
  draining : Bool := false
  cur : Bool := false
  /-- hub drain: 0 not running, 1 descriptor and data written, 2 commit word written -/
  stage : Nat := 0
  /-- a write of the running hub drain was refused or has failed -/
  broken : Bool := false
  /-- step of the flip whose drain runs -/
  step : W64 := 0
  deriving DecidableEq, Repr

/-- Twin flips of a partition (R371). -/
structure FlipState where
  pending : Option W64 := none
  sinceDrain : Nat := 0
  deriving DecidableEq, Repr

/-- The on-die arrays of R365. -/
inductive ArrayKind where
  | l1 | cache | tag | writeBuffer | scratchpad | registers | accumulators | staging | replay
  deriving DecidableEq, Repr

/-- An error in an on-die array that no access has met yet (R365): where it lies (a cluster, an agent, a group's
key, a hub or a link direction), which line, sector, byte, register or tile it is in, and whether more than one
bit is wrong. -/
structure ArrayUpset where
  kind : ArrayKind
  place : Nat
  entry : Nat := 0
  fatal : Bool
  deriving DecidableEq, Repr

/-- The memory side and the error records. -/
structure Mem where
  /-- bytes of HBM and tier 2 by key address (R17, R165); an unlisted byte reads 0 (R414) -/
  cells : List Host.Cell := []
  /-- poisoned 32-byte sectors, by key address / 32 (R184) -/
  poison : Sparse Bool := []
  /-- every sector poisoned but those written since (R404) -/
  allPoisoned : Bool := false
  /-- sectors whose stored word has symbols in error that no read has met yet: their number and the row, by
  key address / 32 (R183) -/
  upsets : Sparse (Nat × Nat) := []
  /-- errors in on-die arrays that no access has met yet (R365) -/
  arrays : List ArrayUpset := []
  /-- sectors written since the last layout change (R180) -/
  known : Sparse Bool := []
  hbmStacks : Sparse Stack := []
  pcs : Sparse PseudoChannel := []
  slots : Sparse SpareSlot := []
  spareBanks : Sparse Bool := []
  failedPkgs : List Nat := []
  eccMode : Nat := 0
  poolGB : Nat := 64
  halfMode : Bool := false
  twins : Sparse Twin := []
  flips : Sparse FlipState := []
  events : List (BitVec 512) := []
  nextLog : Nat := 0
  eventSeq : Sparse Nat := []
  flashLog : List (BitVec 512) := []
  /-- flash-log appends held by an update (R419) -/
  flashHeld : List (BitVec 512) := []
  lifeFailures : Nat := 0
  lifeHours : Nat := 0
  /-- OD 5061h of each partition -/
  groupImage : Sparse Nat := []
  /-- writes held while a group-state image is written (R377): partition, group or 4,096 for the
  sailing, value -/
  heldWrites : List (Nat × Nat × Nat) := []
  /-- trace ring of each hub, newest first (R405) -/
  trace : Sparse (List (BitVec 512)) := []
  deriving DecidableEq, Repr

/-! ### Dictionary (R384 to R406) -/

/-- A session (R393). -/
structure Session where
  id : Nat
  channel : Channel
  owner : Bool
  nonce : BitVec 128
  counter : Nat
  deriving DecidableEq, Repr

/-- A kept response (R397). -/
structure Kept where
  channel : Channel
  frame : Bytes
  response : Bytes
  deriving DecidableEq, Repr

/-- A dictionary mailbox (R396). -/
structure Mailbox where
  req : Sparse Byte := []
  rsp : Sparse Byte := []
  done : Bool := false
  busy : Bool := false
  deriving DecidableEq, Repr

/-- The dictionary and its store. -/
structure Dict where
  /-- working values that differ from the default, by 256 × index + sub -/
  vals : Sparse Nat := []
  /-- the settings as loaded at the last node reset, in force for objects whose change waits for the
  next one -/
  force : Sparse Nat := []
  /-- the settings section as the last node reset loaded it: none under fallback; no values where it
  was erased (R422) -/
  loaded : Option (Option (Sparse Nat)) := none
  /-- the settings section: none never saved or erased; values stored -/
  stored : Option (Sparse Nat) := none
  /-- a save in progress and its snapshot -/
  saving : Option (Sparse Nat) := none
  /-- the commit word is absent: a save was cut off (R403) -/
  storeBroken : Bool := false
  /-- the two node-record copies: generation, slots, failures, hours; none when not valid -/
  records : List (Option (Nat × Sparse SpareSlot × Nat × Nat)) := [none, none]
  /-- copies that are not valid do not all read FFh (R404) -/
  recordsBad : Bool := false
  sessions : List Session := []
  kept : List Kept := []
  mailboxes : Sparse Mailbox := []
  indexHolder : Sparse Channel := []
  /-- a directory probe is under way (R243) -/
  probing : Bool := false
  deriving DecidableEq, Repr

/-! ### Boot, security, pins (R407 to R451) -/

/-- The security record (R417). -/
structure SecurityRecord where
  generation : Nat
  ownerHash : BitVec 512
  ownerKey : Option (BitVec 256)
  operatorKey : Option (BitVec 256)
  deriving DecidableEq, Repr

/-- A requester of the SPDM responder (R422): how far its negotiation has come, a large response being
fetched and a large request being sent: handle, next chunk, bytes. -/
structure SpdmConn where
  transport : SpdmTransport
  /-- 0 nothing, 1 GET_VERSION, 2 GET_CAPABILITIES, 3 NEGOTIATE_ALGORITHMS served -/
  phase : Nat := 0
  /-- the messages a signature covers: of the version and negotiation, of the certificate, of the
  measurements -/
  vca : Bytes := []
  certs : Bytes := []
  measured : Bytes := []
  largeOut : Option (Nat × Nat × Bytes) := none
  largeIn : Option (Nat × Nat × Bytes) := none
  deriving DecidableEq, Repr

/-- Firmware, flash and boot state. -/
structure Boot where
  /-- OD 9070h/01; 01h when node reset is released (R412) -/
  stage : Nat := 1
  degraded : BitVec 8 := 0
  powerOn : Bool := true
  clearing : Bool := false
  /-- the firmware image in flash; none: as manufactured (Config.flashImage) -/
  image : Option Bytes := none
  imageValid : Bool := true
  /-- version, SVN and digest of the running image (R410, R424) -/
  running : Option (Nat × Nat × BitVec 512) := none
  rootSecret : Bool := false
  identity : Nat := 0
  counter0 : Nat := 0
  counter1 : Nat := 0
  records : List SecurityRecord := []
  recoveryRequested : Bool := false
  bootPath : Nat := 0
  /-- the path by which the image in flash came, until it has booted once (R416) -/
  recoveredBy : Nat := 0
  /-- recovery loader: size, status, window bytes, source now tried, chunks, failures in a row -/
  recSize : W32 := 0
  recStatus : Nat := 0
  recWindow : Sparse Byte := []
  recNetwork : Bool := false
  recChunks : Sparse Bytes := []
  recFailures : Nat := 0
  updating : Option W64 := none
  updateNetwork : Bool := false
  updateStatus : Nat := 0
  osDigests : Sparse (BitVec 512) := []
  /-- connections of the SPDM responder -/
  spdm : List SpdmConn := []
  /-- a thermal shutdown to be recorded at the next power-on: die and cause (R380) -/
  tripEvent : Option (Nat × Nat) := none
  deriving DecidableEq, Repr

/-- The pins and the power sequencer (R425, R438 to R448). -/
structure Pins where
  pwrEn : Bool := true
  pgood : Bool := true
  /-- true: the pin is deasserted (high) -/
  modResetN : Bool := true
  inputInRange : Bool := true
  tripLatched : Bool := false
  railsRising : Bool := false
  oscillator : Bool := true
  nodeReset : Bool := false
  /-- POS0 to POS3 as sampled when node reset was released (R444) -/
  posSampled : BitVec 4 := 0xF
  deriving DecidableEq, Repr

/-- One TAP controller (R449 to R451). -/
structure Tap where
  ir : BitVec 8 := 0x01
  /-- the update stage of the boundary register -/
  boundary : List Bool := []
  deriving DecidableEq, Repr

/-- An Ethernet frame of the crossing transport as it leaves a sub-port (R290): next hop, IPv6 and UDP
fields, NCT header and payload. The hop limit is 64, ECN is ECT(0) for request and response packets. -/
structure NctFrame where
  mac : BitVec 48
  src : BitVec 128
  dst : BitVec 128
  dscp : Nat
  ect : Bool
  flowLabel : Nat
  udpSrc : Nat
  udpDst : Nat
  header : BitVec 384
  payload : Bytes
  deriving DecidableEq, Repr

/-- What the node sends to its surroundings and to requesters. -/
inductive Out where
  /-- a PCIe completion to a function's requester: data, poisoned -/
  | pcieCompletion (fn : Fn) (data : Bytes) (poisoned : Bool)
  | pcieUnsupported (fn : Fn)
  | cfgCompletion (fn : Fn) (value : W32)
  | rootCompletion (port : Nat) (data : Bytes) (poisoned : Bool)
  | rootUnsupported (port : Nat)
  /-- configuration requests below a root port: ECAM offset, written bits and value (R340) -/
  | rootConfigRead (port off : Nat)
  | rootConfigWrite (port off mask value : Nat)
  /-- a posted write through a host window: the requester's function, and whether its address is translated -/
  | hostWrite (port vf : Nat) (addr : Nat) (data : Bytes) (translated : Bool)
  | hostReadRequest (port vf : Nat) (tag addr len : Nat) (translated : Bool)
  /-- bytes written to the companion's memory at an offset of its window -/
  | companionWrite (off : Nat) (data : Bytes)
  | msix (port vf vector : Nat)
  | atsRequest (port vf tag : Nat) (va : W64) (write : Bool) (pasid : Nat)
  | pageRequest (port vf tag : Nat) (va : W64) (write : Bool) (pasid : Nat)
  | atsInvalidationCompletion (fn : Fn) (itag : Nat)
  | registerRead (value : W64)
  | coreResult (hart : Nat) (value : BitVec 512)
  /-- a frame handed to the transmit queue of a sub-port (4 × port + sub) -/
  | nct (subport : Nat) (f : NctFrame)
  /-- an LLDP frame: chassis ID and port ID, both of subtype 7, and its TTL in seconds (R290) -/
  | lldp (port sub : Nat) (chassis : BitVec 192) (portName : Bytes) (ttl : Nat)
  | neighbourAdvertisement (port sub : Nat) (target : BitVec 128)
  | echoReply (port sub : Nat) (src dst : BitVec 128) (data : Bytes)
  | milmiuno (ch : Channel) (frame : Bytes)
  /-- the status of a write of an object (R392) -/
  | dictStatus (status : Nat)
  | spdm (t : SpdmTransport) (msg : Bytes)
  /-- the request for a chunk of an image: the MAC address it goes to from the primary port, and the frame (R416) -/
  | recoveryRead (chunk mac : Nat) (frame : Bytes)
  /-- a message delivered at a die: its channel, its header's fields and the slots that follow -/
  | message (vc die : Nat) (header : MsgHeader) (slots : List (BitVec 128))
  /-- a control flit: its header's ACK and its control word; a LANECHECK's other slots are R271's pattern -/
  | controlFlit (link : Nat) (rev : Bool) (ack : Nat) (word : BitVec 128)
  /-- credits a receiver is to return in a data flit: channel and slots -/
  | creditReturn (link : Nat) (rev : Bool) (vc slots : Nat)
  /-- a requester completes a request with poison (R280): non-coherent, SRC and TXID -/
  | requestPoisoned (ncr : Bool) (src txid : Nat)
  | nullFlit (link : Nat) (rev : Bool) (ack : Nat)
  | replayed (link : Nat) (rev : Bool) (flits : Nat)
  /-- a coherence message: class and code of R233, sender, destination and line, and of R273's other fields the
  masks, the state code and ARG -/
  | cohMessage (cls code : Nat) (src dst : Nat) (line : Nat) (sect dirty poison : Nat := 0) (state arg : Nat := 0)
  | telemetry (die : Nat)
  | tdo (die : Nat) (bits : List Bool)
  deriving DecidableEq, Repr

/-- The whole node. -/
structure State where
  /-- commands waiting, first in first out -/
  pending : List Instr := []
  /-- the model's own: number of free values used (DESIGN CHOICE, logs 3 and 130) -/
  free : Nat := 0
  /-- sent by the node, newest first -/
  out : List Out := []
  groups : Sparse Group := []
  clusters : Sparse Cluster := []
  kernels : Sparse Kernel := []
  nextKernel : Nat := 0
  tallies : Sparse TallySet := []
  mem : Mem := {}
  agents : Sparse CohAgent := []
  txns : List Txn := []
  xlate : Sparse Xlate := []
  dieXlate : Sparse DieXlate := []
  stalled : List StalledFault := []
  links : Sparse Link := []
  pkgRequests : List PkgRequest := []
  /-- messages that intermediate dies hold, oldest first -/
  forwards : List Forward := []
  dieState : Sparse Nat := []
  counters : Sparse W64 := []
  net : Net := {}
  host : HostSide := {}
  power : Power := {}
  dict : Dict := {}
  boot : Boot := {}
  pins : Pins := {}
  taps : Sparse Tap := []
  trstHeld : Bool := true
  flushes : List Boundary := []
  parts : Nat := 1
  deriving DecidableEq, Repr

/-- Right after node reset is released at power-on (R412, R446): boot stage 01h, every register at
its reset value, memory with nothing listed, no command waiting.
(DESIGN CHOICE, log 131.) -/
def State.reset : State := {}

end Sys2Proof.Machine
end

