-- ==== Sys2Proof/Machine/Bits.lean ====
section
/-! DEFINITION. Sparse tables, bit fields, byte order and the two check codes: the helpers every
meaning shares. -/
namespace Sys2Proof.Machine

/-! ### Sparse tables: indices strictly rising -/

/-- The entry at `k`, if listed. -/
def sget? {α : Type} (k : Nat) : Sparse α → Option α
  | [] => none
  | (i, a) :: r => if i = k then some a else sget? k r

/-- The entry at `k`, or `d` where none is listed. -/
def sgetD {α : Type} (m : Sparse α) (k : Nat) (d : α) : α := (sget? k m).getD d

/-- List `a` at `k`. -/
def sset {α : Type} (k : Nat) (a : α) : Sparse α → Sparse α
  | [] => [(k, a)]
  | (i, b) :: r => if k < i then (k, a) :: (i, b) :: r else if k = i then (k, a) :: r else (i, b) :: sset k a r

/-- Drop the entry at `k`. -/
def sdel {α : Type} (k : Nat) : Sparse α → Sparse α
  | [] => []
  | (i, b) :: r => if i = k then sdel k r else (i, b) :: sdel k r

/-- Store `a` at `k` in a table whose unlisted entries read `d`. -/
def sput {α : Type} [DecidableEq α] (m : Sparse α) (k : Nat) (a d : α) : Sparse α :=
  if a = d then sdel k m else sset k a m

/-- Change the entry at `k` of a table whose unlisted entries read `d`. -/
def smod {α : Type} (m : Sparse α) (k : Nat) (d : α) (f : α → α) : Sparse α :=
  sset k (f (sgetD m k d)) m

/-- The keys of a sparse table rise strictly, and each is above `lo` where one is given. -/
def keysRise {α : Type} : Option Nat → Sparse α → Bool
  | _, [] => true
  | lo, (i, _) :: r => (match lo with | none => true | some l => decide (l < i)) && keysRise (some i) r

/-- The canonical form of a table whose unlisted entries read `d`: keys rise strictly and no listed
entry is `d`. -/
def sparseWf {α : Type} [DecidableEq α] (d : α) (m : Sparse α) : Bool :=
  keysRise none m && m.all fun e => decide (e.2 ≠ d)

/-- Change the first element that satisfies `p`. -/
def modFirst {α : Type} (p : α → Bool) (f : α → α) : List α → List α
  | [] => []
  | a :: r => if p a then f a :: r else a :: modFirst p f r

/-! ### Bit fields -/

/-- Bits `lo + w - 1` to `lo` of `x`. -/
def field (x lo w : Nat) : Nat := (x >>> lo) % 2 ^ w
/-- Bit `i` of `x`. -/
def bitOf (x i : Nat) : Bool := x.testBit i
/-- `x` with bits `lo + w - 1` to `lo` replaced by `v`. -/
def setField (x lo w v : Nat) : Nat := x - (field x lo w) <<< lo + (v % 2 ^ w) <<< lo
/-- A Bool as one bit. -/
def b2n (b : Bool) : Nat := if b then 1 else 0
/-- The signed value of a `w`-bit pattern. -/
def sext (w x : Nat) : Int := if x % 2 ^ w < 2 ^ (w - 1) then (x % 2 ^ w : Nat) else (x % 2 ^ w : Nat) - (2 ^ w : Nat)
/-- The `w`-bit pattern of an integer, wrapping. -/
def wrap (w : Nat) (x : Int) : Nat := (x % (2 ^ w : Nat)).toNat
/-- The indices below `w` of the set bits of `x`, rising. -/
def setBits (x w : Nat) : List Nat := (List.range w).filter fun i => x.testBit i
/-- Number of set bits below `w`. -/
def popcount (x w : Nat) : Nat := (setBits x w).length
/-- A mask with the listed bits set. -/
def maskOf (l : List Nat) : Nat := l.foldl (fun m i => m ||| 1 <<< i) 0

/-! ### Bytes: little-endian everywhere but in Ethernet headers (R6) -/

/-- The number whose bytes, lowest first, are `l`. -/
def fromLE : Bytes → Nat
  | [] => 0
  | b :: r => b.toNat + 256 * fromLE r
/-- The lowest `n` bytes of `x`, lowest first. -/
def toLE : Nat → Nat → Bytes
  | 0, _ => []
  | n + 1, x => BitVec.ofNat 8 x :: toLE n (x / 256)
/-- The number whose bytes, highest first, are `l`. -/
def fromBE (l : Bytes) : Nat := fromLE l.reverse
/-- The lowest `n` bytes of `x`, highest first. -/
def toBE (n x : Nat) : Bytes := (toLE n x).reverse
/-- `n` bytes of `l` from offset `o`; short or empty where `l` ends. -/
def slice (l : Bytes) (o n : Nat) : Bytes := (l.drop o).take n
/-- The little-endian number of `n` bytes at offset `o`. -/
def le (l : Bytes) (o n : Nat) : Nat := fromLE (slice l o n)

/-! ### Check codes -/

/-- One bit step of a reflected 32-bit CRC. -/
def crcStep (poly c : Nat) : Nat := if c % 2 = 1 then (c / 2) ^^^ poly else c / 2
/-- Eight bit steps. -/
def crc8 (poly c : Nat) : Nat :=
  crcStep poly (crcStep poly (crcStep poly (crcStep poly (crcStep poly (crcStep poly (crcStep poly (crcStep poly c)))))))
/-- CRC-32C with reflected polynomial 82F6_3B78h, initial value and final XOR all ones (R25).
(PRESUMED, log 7.) -/
def crc32c (l : Bytes) : Nat :=
  (l.foldl (fun c b => crc8 0x82F63B78 (c ^^^ b.toNat)) 0xFFFFFFFF) ^^^ 0xFFFFFFFF
/-- The link CRC: 64 bits, polynomial 42F0_E1EB_A9EA_3693h reflected, initial value and final XOR all
ones, each byte least significant bit first (R270; DEDUCED, log 55). -/
def crc64 (l : Bytes) : Nat :=
  (l.foldl (fun c b => crc8 0xC96C5795D7870F42 (c ^^^ b.toNat)) 0xFFFFFFFFFFFFFFFF) ^^^ 0xFFFFFFFFFFFFFFFF

end Sys2Proof.Machine
end

