-- ==== Sys2Proof/Machine/DictTable.lean ====
section
/-! DEFINITION. The object dictionary as the chapters' object tables give it (R4, R24, R55, R80, R100,
R128, R152, R178, R200, R225, R244, R267, R287, R318, R342, R361, R383, R406, R424, R435, R456): index
range, sub range, type code (R386), size in bytes, access class code (R387) and default. -/
namespace Sys2Proof.Machine

/-- A row of the object tables: a range of indices and of subs with one type, size, access class and
default; no default where the table gives none that is fixed. -/
structure ObjRow where
  lo : Nat
  hi : Nat
  sub0 : Nat
  sub1 : Nat
  type : Nat
  size : Nat
  access : Nat
  dflt : Option Nat
  deriving DecidableEq, Repr

/-- Object rows of indices 1000h to 1012h. -/
def objRows0 : List ObjRow := [
  ⟨0x1000, 0x1000, 0x01, 0x01, 8, 24, 0, some 16400296454301921485182579584787500787011⟩,
  ⟨0x1000, 0x1000, 0x02, 0x02, 8, 24, 0, some 997655007470616060611752817873486⟩,
  ⟨0x1000, 0x1000, 0x03, 0x03, 8, 24, 1, none⟩,
  ⟨0x1000, 0x1000, 0x04, 0x04, 1, 1, 1, none⟩,
  ⟨0x1000, 0x1000, 0x05, 0x05, 2, 2, 1, none⟩,
  ⟨0x1000, 0x1000, 0x06, 0x06, 2, 2, 0, some 1⟩,
  ⟨0x1000, 0x1000, 0x07, 0x07, 1, 1, 0, some 1⟩,
  ⟨0x1010, 0x1010, 0x00, 0x00, 1, 1, 0, some 9⟩,
  ⟨0x1010, 0x1010, 0x01, 0x09, 1, 1, 1, none⟩,
  ⟨0x1011, 0x1011, 0x01, 0x01, 2, 2, 1, some 65535⟩,
  ⟨0x1011, 0x1011, 0x02, 0x02, 3, 4, 1, some 1280⟩,
  ⟨0x1011, 0x1011, 0x03, 0x03, 3, 4, 1, some 16777215⟩,
  ⟨0x1011, 0x1011, 0x04, 0x04, 3, 4, 1, some 1536⟩,
  ⟨0x1011, 0x1011, 0x05, 0x05, 3, 4, 1, some 2752⟩,
  ⟨0x1012, 0x1012, 0x01, 0x01, 4, 8, 1, some 320000000000⟩,
  ⟨0x1012, 0x1012, 0x02, 0x02, 4, 8, 1, some 1280000000000⟩,
  ⟨0x1012, 0x1012, 0x03, 0x03, 4, 8, 1, some 736000000000⟩,
  ⟨0x1012, 0x1012, 0x04, 0x04, 4, 8, 1, some 736000000000⟩]

/-- Object rows of indices 1020h to 1050h. -/
def objRows1 : List ObjRow := [
  ⟨0x1020, 0x1020, 0x01, 0x01, 4, 8, 2, none⟩,
  ⟨0x1020, 0x1020, 0x02, 0x02, 4, 8, 2, none⟩,
  ⟨0x1020, 0x1020, 0x03, 0x03, 2, 2, 2, some 34997⟩,
  ⟨0x1020, 0x1020, 0x04, 0x04, 1, 1, 2, some 0⟩,
  ⟨0x1020, 0x1020, 0x05, 0x05, 2, 2, 2, some 60⟩,
  ⟨0x1021, 0x1021, 0x01, 0x01, 1, 1, 2, some 0⟩,
  ⟨0x1021, 0x1021, 0x02, 0x02, 1, 1, 2, some 17⟩,
  ⟨0x1021, 0x1021, 0x03, 0x03, 1, 1, 2, some 1⟩,
  ⟨0x1030, 0x1030, 0x01, 0x01, 5, 16, 1, none⟩,
  ⟨0x1030, 0x1030, 0x11, 0x18, 5, 16, 2, some 0⟩,
  ⟨0x1031, 0x1031, 0x01, 0x08, 5, 16, 1, some 0⟩,
  ⟨0x1040, 0x1040, 0x01, 0x01, 4, 8, 1, some 0⟩,
  ⟨0x1040, 0x1040, 0x02, 0x02, 4, 8, 1, some 0⟩,
  ⟨0x1040, 0x1040, 0x03, 0x03, 4, 8, 1, some 0⟩,
  ⟨0x1040, 0x1040, 0x04, 0x04, 4, 8, 1, some 0⟩,
  ⟨0x1050, 0x1050, 0x01, 0x01, 1, 1, 1, none⟩,
  ⟨0x1050, 0x1050, 0x02, 0x02, 1, 1, 1, none⟩]

/-- Object rows of indices 2000h to 3011h. -/
def objRows2 : List ObjRow := [
  ⟨0x2000, 0x2000, 0x01, 0x01, 3, 4, 3, none⟩,
  ⟨0x2000, 0x2000, 0x02, 0x02, 3, 4, 3, none⟩,
  ⟨0x2001, 0x2001, 0x01, 0x01, 1, 1, 1, some 0⟩,
  ⟨0x2001, 0x2001, 0x02, 0x02, 1, 1, 1, some 0⟩,
  ⟨0x2001, 0x2001, 0x03, 0x03, 1, 1, 1, some 0⟩,
  ⟨0x2001, 0x2001, 0x04, 0x04, 3, 4, 1, some 0⟩,
  ⟨0x2001, 0x2001, 0x05, 0x05, 1, 1, 1, some 0⟩,
  ⟨0x2010, 0x2010, 0x01, 0x06, 1, 1, 1, some 0⟩,
  ⟨0x3000, 0x3000, 0x01, 0x01, 1, 1, 0, some 9⟩,
  ⟨0x3000, 0x3000, 0x02, 0x02, 2, 2, 0, some 50⟩,
  ⟨0x3000, 0x3000, 0x03, 0x03, 1, 1, 0, some 2⟩,
  ⟨0x3000, 0x3000, 0x04, 0x04, 1, 1, 0, some 1⟩,
  ⟨0x3001, 0x3001, 0x01, 0x09, 2, 2, 0, some 0⟩,
  ⟨0x3010, 0x3010, 0x01, 0x01, 2, 2, 2, some 5200⟩,
  ⟨0x3011, 0x3011, 0x01, 0x04, 2, 2, 2, some 780⟩,
  ⟨0x3011, 0x3011, 0x05, 0x06, 2, 2, 2, some 220⟩]

/-- Object rows of indices 3020h to 3040h. -/
def objRows3 : List ObjRow := [
  ⟨0x3020, 0x3020, 0x01, 0x08, 1, 1, 2, some 0⟩,
  ⟨0x3021, 0x3021, 0x01, 0x08, 1, 1, 2, some 7⟩,
  ⟨0x3022, 0x3022, 0x01, 0x01, 1, 1, 2, some 1⟩,
  ⟨0x3030, 0x3030, 0x01, 0x01, 2, 2, 1, none⟩,
  ⟨0x3030, 0x3030, 0x02, 0x02, 2, 2, 1, none⟩,
  ⟨0x3030, 0x3030, 0x03, 0x03, 2, 2, 1, none⟩,
  ⟨0x3031, 0x3031, 0x01, 0x09, 2, 2, 1, none⟩,
  ⟨0x3032, 0x3032, 0x01, 0x09, 6, 2, 1, none⟩,
  ⟨0x3032, 0x3032, 0x11, 0x20, 6, 2, 1, none⟩,
  ⟨0x3033, 0x3033, 0x01, 0x08, 3, 4, 1, none⟩,
  ⟨0x3040, 0x3040, 0x01, 0x01, 4, 8, 1, some 0⟩,
  ⟨0x3040, 0x3040, 0x02, 0x02, 4, 8, 1, some 0⟩,
  ⟨0x3040, 0x3040, 0x03, 0x03, 4, 8, 1, some 0⟩,
  ⟨0x3040, 0x3040, 0x04, 0x04, 4, 8, 1, some 0⟩,
  ⟨0x3040, 0x3040, 0x05, 0x05, 4, 8, 1, some 0⟩,
  ⟨0x3040, 0x3040, 0x06, 0x06, 4, 8, 1, some 0⟩,
  ⟨0x3040, 0x3040, 0x07, 0x07, 4, 8, 1, some 0⟩]

/-- Object rows of indices 3041h to 4020h. -/
def objRows4 : List ObjRow := [
  ⟨0x3041, 0x3041, 0x01, 0x01, 1, 1, 1, some 0⟩,
  ⟨0x3050, 0x3050, 0x01, 0x01, 6, 2, 1, none⟩,
  ⟨0x3050, 0x3050, 0x02, 0x02, 6, 2, 1, none⟩,
  ⟨0x4000, 0x4000, 0x01, 0x01, 1, 1, 0, some 64⟩,
  ⟨0x4000, 0x4000, 0x02, 0x02, 3, 4, 0, some 1250000000⟩,
  ⟨0x4000, 0x4000, 0x03, 0x03, 1, 1, 0, some 16⟩,
  ⟨0x4000, 0x4000, 0x04, 0x04, 2, 2, 0, some 256⟩,
  ⟨0x4001, 0x4001, 0x01, 0x01, 1, 1, 1, some 0⟩,
  ⟨0x4010, 0x4010, 0x01, 0x10, 4, 8, 1, some 0⟩,
  ⟨0x4011, 0x4011, 0x01, 0x10, 4, 8, 1, some 0⟩,
  ⟨0x4012, 0x4012, 0x01, 0x10, 4, 8, 1, some 0⟩,
  ⟨0x4013, 0x4013, 0x01, 0x10, 4, 8, 1, some 0⟩,
  ⟨0x4014, 0x4014, 0x01, 0x01, 4, 8, 1, some 0⟩,
  ⟨0x4014, 0x4014, 0x02, 0x02, 4, 8, 1, some 0⟩,
  ⟨0x4020, 0x4020, 0x01, 0x01, 2, 2, 2, some 24⟩,
  ⟨0x4020, 0x4020, 0x02, 0x02, 1, 1, 2, some 0⟩]

/-- Object rows of indices 4030h to 4051h. -/
def objRows5 : List ObjRow := [
  ⟨0x4030, 0x4030, 0x01, 0x01, 1, 1, 2, some 64⟩,
  ⟨0x4030, 0x4030, 0x02, 0x02, 1, 1, 1, some 64⟩,
  ⟨0x4030, 0x4030, 0x03, 0x03, 1, 1, 2, some 16⟩,
  ⟨0x4030, 0x4030, 0x04, 0x04, 1, 1, 1, some 50⟩,
  ⟨0x4030, 0x4030, 0x05, 0x05, 2, 2, 1, some 0⟩,
  ⟨0x4030, 0x4030, 0x06, 0x06, 3, 4, 1, some 0⟩,
  ⟨0x4031, 0x4031, 0x01, 0x33, 3, 4, 2, some 0⟩,
  ⟨0x4031, 0x4031, 0x41, 0x73, 3, 4, 2, some 0⟩,
  ⟨0x4040, 0x4040, 0x01, 0x01, 1, 1, 2, some 255⟩,
  ⟨0x4040, 0x4040, 0x02, 0x02, 2, 2, 1, some 0⟩,
  ⟨0x4050, 0x4050, 0x01, 0x01, 4, 8, 1, some 0⟩,
  ⟨0x4050, 0x4050, 0x02, 0x02, 4, 8, 1, some 0⟩,
  ⟨0x4050, 0x4050, 0x03, 0x03, 4, 8, 1, some 0⟩,
  ⟨0x4050, 0x4050, 0x04, 0x04, 4, 8, 1, some 0⟩,
  ⟨0x4051, 0x4051, 0x01, 0x10, 4, 8, 1, some 0⟩,
  ⟨0x4051, 0x4051, 0x11, 0x12, 4, 8, 1, some 0⟩]

/-- Object rows of indices 4052h to 4080h. -/
def objRows6 : List ObjRow := [
  ⟨0x4052, 0x4052, 0x01, 0x10, 4, 8, 1, some 0⟩,
  ⟨0x4052, 0x4052, 0x11, 0x12, 4, 8, 1, some 0⟩,
  ⟨0x4060, 0x4060, 0x01, 0x01, 1, 1, 0, some 12⟩,
  ⟨0x4060, 0x4060, 0x02, 0x02, 2, 2, 0, some 256⟩,
  ⟨0x4070, 0x4070, 0x01, 0x08, 4, 8, 2, some 0⟩,
  ⟨0x4071, 0x4071, 0x01, 0x08, 4, 8, 1, some 0⟩,
  ⟨0x4072, 0x4072, 0x01, 0x08, 2, 2, 2, some 1⟩,
  ⟨0x4073, 0x4073, 0x01, 0x08, 3, 4, 1, some 0⟩,
  ⟨0x4074, 0x4074, 0x01, 0x08, 3, 4, 2, some 60⟩,
  ⟨0x4075, 0x4075, 0x01, 0x08, 3, 4, 1, none⟩,
  ⟨0x4076, 0x4076, 0x01, 0x01, 3, 4, 2, some 20000⟩,
  ⟨0x4076, 0x4076, 0x02, 0x02, 3, 4, 2, some 8760⟩,
  ⟨0x4076, 0x4076, 0x03, 0x03, 3, 4, 1, some 0⟩,
  ⟨0x4076, 0x4076, 0x04, 0x04, 3, 4, 1, some 0⟩,
  ⟨0x4080, 0x4080, 0x01, 0x01, 2, 2, 0, some 64⟩,
  ⟨0x4080, 0x4080, 0x02, 0x02, 1, 1, 0, some 4⟩,
  ⟨0x4080, 0x4080, 0x03, 0x03, 1, 1, 0, some 16⟩,
  ⟨0x4080, 0x4080, 0x04, 0x04, 1, 1, 0, some 8⟩,
  ⟨0x4080, 0x4080, 0x05, 0x05, 1, 1, 0, some 16⟩]

/-- Object rows of indices 4100h to 5000h. -/
def objRows7 : List ObjRow := [
  ⟨0x4100, 0x41FF, 0x01, 0x02, 4, 8, 2, some 0⟩,
  ⟨0x4100, 0x41FF, 0x03, 0x03, 4, 8, 2, some 0⟩,
  ⟨0x4100, 0x41FF, 0x04, 0x04, 1, 1, 2, some 0⟩,
  ⟨0x4100, 0x41FF, 0x05, 0x05, 1, 1, 2, some 255⟩,
  ⟨0x4100, 0x41FF, 0x06, 0x07, 4, 8, 2, some 0⟩,
  ⟨0x4100, 0x41FF, 0x08, 0x08, 3, 4, 2, some 0⟩,
  ⟨0x4100, 0x41FF, 0x09, 0x09, 1, 1, 3, some 0⟩,
  ⟨0x5000, 0x5000, 0x01, 0x01, 1, 1, 0, some 12⟩,
  ⟨0x5000, 0x5000, 0x02, 0x02, 2, 2, 0, some 4096⟩,
  ⟨0x5000, 0x5000, 0x03, 0x03, 2, 2, 0, some 4096⟩,
  ⟨0x5000, 0x5000, 0x04, 0x04, 2, 2, 0, some 64⟩,
  ⟨0x5000, 0x5000, 0x05, 0x05, 2, 2, 0, some 8000⟩,
  ⟨0x5000, 0x5000, 0x06, 0x06, 2, 2, 0, some 4096⟩,
  ⟨0x5000, 0x5000, 0x07, 0x07, 3, 4, 0, some 131072⟩,
  ⟨0x5000, 0x5000, 0x08, 0x08, 2, 2, 0, some 16384⟩,
  ⟨0x5000, 0x5000, 0x09, 0x09, 2, 2, 0, some 4096⟩,
  ⟨0x5000, 0x5000, 0x0A, 0x0A, 3, 4, 0, some 262144⟩,
  ⟨0x5000, 0x5000, 0x0B, 0x0B, 1, 1, 0, some 16⟩]

/-- Object rows of indices 5001h to 5020h. -/
def objRows8 : List ObjRow := [
  ⟨0x5001, 0x5001, 0x01, 0x0C, 1, 1, 2, some 0⟩,
  ⟨0x5002, 0x5002, 0x01, 0x0C, 1, 1, 1, none⟩,
  ⟨0x5003, 0x5003, 0x01, 0x0C, 3, 4, 1, some 0⟩,
  ⟨0x5004, 0x5004, 0x01, 0x01, 2, 2, 2, some 50⟩,
  ⟨0x5010, 0x5010, 0x01, 0x01, 5, 16, 2, some 0⟩,
  ⟨0x5010, 0x5010, 0x02, 0x02, 5, 16, 2, some 0⟩,
  ⟨0x5010, 0x5010, 0x03, 0x03, 2, 2, 2, some 46200⟩,
  ⟨0x5010, 0x5010, 0x04, 0x04, 1, 1, 2, some 26⟩,
  ⟨0x5010, 0x5010, 0x05, 0x05, 1, 1, 2, some 48⟩,
  ⟨0x5020, 0x5020, 0x01, 0x01, 4, 8, 1, some 0⟩,
  ⟨0x5020, 0x5020, 0x02, 0x02, 4, 8, 1, some 0⟩,
  ⟨0x5020, 0x5020, 0x03, 0x03, 4, 8, 1, some 0⟩,
  ⟨0x5020, 0x5020, 0x04, 0x04, 4, 8, 1, some 0⟩,
  ⟨0x5020, 0x5020, 0x05, 0x05, 4, 8, 1, some 0⟩,
  ⟨0x5020, 0x5020, 0x06, 0x06, 4, 8, 1, some 0⟩,
  ⟨0x5020, 0x5020, 0x07, 0x07, 4, 8, 1, some 0⟩,
  ⟨0x5020, 0x5020, 0x08, 0x08, 4, 8, 1, some 0⟩,
  ⟨0x5020, 0x5020, 0x09, 0x09, 4, 8, 1, some 0⟩,
  ⟨0x5020, 0x5020, 0x0A, 0x0A, 4, 8, 1, some 0⟩,
  ⟨0x5020, 0x5020, 0x0B, 0x0B, 4, 8, 1, some 0⟩,
  ⟨0x5020, 0x5020, 0x0C, 0x0C, 4, 8, 1, some 0⟩]

/-- Object rows of indices 5040h to 6001h. -/
def objRows9 : List ObjRow := [
  ⟨0x5040, 0x5040, 0x01, 0x08, 3, 4, 2, some 0⟩,
  ⟨0x5041, 0x5041, 0x01, 0x08, 4, 8, 1, some 0⟩,
  ⟨0x5042, 0x5042, 0x01, 0x08, 3, 4, 1, some 0⟩,
  ⟨0x5050, 0x5050, 0x01, 0x01, 4, 8, 1, some 0⟩,
  ⟨0x5050, 0x5050, 0x02, 0x02, 4, 8, 1, some 0⟩,
  ⟨0x5050, 0x5050, 0x03, 0x03, 4, 8, 1, some 0⟩,
  ⟨0x5060, 0x5060, 0x01, 0x08, 4, 8, 2, some 0⟩,
  ⟨0x5061, 0x5061, 0x01, 0x08, 1, 1, 1, some 0⟩,
  ⟨0x6000, 0x6000, 0x01, 0x01, 1, 1, 0, some 2⟩,
  ⟨0x6000, 0x6000, 0x02, 0x02, 1, 1, 0, some 64⟩,
  ⟨0x6000, 0x6000, 0x03, 0x03, 3, 4, 0, some 65536⟩,
  ⟨0x6000, 0x6000, 0x04, 0x04, 2, 2, 0, some 8034⟩,
  ⟨0x6000, 0x6000, 0x05, 0x05, 2, 2, 0, some 17952⟩,
  ⟨0x6000, 0x6000, 0x06, 0x06, 2, 2, 0, some 17954⟩,
  ⟨0x6000, 0x6000, 0x07, 0x07, 2, 2, 0, some 17953⟩,
  ⟨0x6001, 0x6001, 0x01, 0x02, 1, 1, 2, some 0⟩]

/-- Object rows of indices 6002h to 6050h. -/
def objRows10 : List ObjRow := [
  ⟨0x6002, 0x6002, 0x01, 0x02, 1, 1, 1, none⟩,
  ⟨0x6002, 0x6002, 0x03, 0x04, 2, 2, 1, none⟩,
  ⟨0x6003, 0x6003, 0x01, 0x02, 1, 1, 2, some 0⟩,
  ⟨0x6010, 0x6010, 0x01, 0x01, 1, 1, 2, some 1⟩,
  ⟨0x6010, 0x6010, 0x02, 0x02, 1, 1, 1, some 1⟩,
  ⟨0x6020, 0x6020, 0x01, 0x08, 1, 1, 2, some 0⟩,
  ⟨0x6021, 0x6021, 0x01, 0x01, 1, 1, 2, some 36⟩,
  ⟨0x6022, 0x6022, 0x01, 0x01, 2, 2, 2, some 50⟩,
  ⟨0x6030, 0x6030, 0x01, 0x01, 3, 4, 2, some 1000⟩,
  ⟨0x6030, 0x6030, 0x02, 0x02, 4, 8, 1, some 0⟩,
  ⟨0x6030, 0x6030, 0x03, 0x03, 4, 8, 1, some 0⟩,
  ⟨0x6030, 0x6030, 0x04, 0x04, 4, 8, 1, some 0⟩,
  ⟨0x6040, 0x6040, 0x01, 0x08, 1, 1, 2, some 0⟩,
  ⟨0x6041, 0x6041, 0x01, 0x08, 4, 8, 2, some 0⟩,
  ⟨0x6043, 0x6043, 0x01, 0x08, 1, 1, 2, some 0⟩,
  ⟨0x6050, 0x6050, 0x01, 0x01, 4, 8, 1, some 0⟩,
  ⟨0x6050, 0x6050, 0x02, 0x02, 4, 8, 1, some 0⟩,
  ⟨0x6050, 0x6050, 0x03, 0x03, 4, 8, 1, some 0⟩,
  ⟨0x6050, 0x6050, 0x04, 0x04, 4, 8, 1, some 0⟩,
  ⟨0x6050, 0x6050, 0x05, 0x05, 4, 8, 1, some 0⟩,
  ⟨0x6050, 0x6050, 0x06, 0x06, 4, 8, 1, some 0⟩,
  ⟨0x6050, 0x6050, 0x07, 0x07, 4, 8, 1, some 0⟩]

/-- Object rows of indices 7000h to 7020h. -/
def objRows11 : List ObjRow := [
  ⟨0x7000, 0x7000, 0x01, 0x13, 1, 1, 1, none⟩,
  ⟨0x7001, 0x7001, 0x01, 0x13, 1, 1, 1, some 0⟩,
  ⟨0x7002, 0x7002, 0x01, 0x13, 4, 8, 1, some 0⟩,
  ⟨0x7003, 0x7003, 0x01, 0x13, 4, 8, 1, some 0⟩,
  ⟨0x7004, 0x7004, 0x01, 0x13, 4, 8, 1, some 0⟩,
  ⟨0x7005, 0x7005, 0x01, 0x01, 4, 8, 1, some 0⟩,
  ⟨0x7005, 0x7005, 0x02, 0x02, 4, 8, 1, some 0⟩,
  ⟨0x7006, 0x7006, 0x01, 0x01, 1, 1, 0, some 16⟩,
  ⟨0x7006, 0x7006, 0x02, 0x02, 2, 2, 0, some 100⟩,
  ⟨0x7006, 0x7006, 0x03, 0x03, 2, 2, 0, some 2⟩,
  ⟨0x7010, 0x7010, 0x01, 0x01, 2, 2, 2, some 256⟩,
  ⟨0x7010, 0x7010, 0x02, 0x02, 1, 1, 2, some 1⟩,
  ⟨0x7010, 0x7010, 0x03, 0x03, 4, 8, 1, some 0⟩,
  ⟨0x7020, 0x7020, 0x01, 0x01, 1, 1, 2, some 0⟩,
  ⟨0x7020, 0x7020, 0x02, 0x02, 1, 1, 2, some 1⟩,
  ⟨0x7020, 0x7020, 0x03, 0x0A, 4, 8, 2, some 0⟩]

/-- Object rows of indices 7021h to 8000h. -/
def objRows12 : List ObjRow := [
  ⟨0x7021, 0x7021, 0x01, 0x01, 4, 8, 1, some 0⟩,
  ⟨0x7021, 0x7021, 0x02, 0x02, 4, 8, 1, some 0⟩,
  ⟨0x7021, 0x7021, 0x03, 0x03, 4, 8, 1, some 0⟩,
  ⟨0x7100, 0x7100, 0x01, 0x01, 3, 4, 0, some 262144⟩,
  ⟨0x7100, 0x7100, 0x02, 0x02, 3, 4, 0, some 131072⟩,
  ⟨0x7101, 0x7101, 0x01, 0x01, 4, 8, 1, some 0⟩,
  ⟨0x7101, 0x7101, 0x02, 0x02, 4, 8, 1, some 0⟩,
  ⟨0x7101, 0x7101, 0x03, 0x03, 4, 8, 1, some 0⟩,
  ⟨0x7101, 0x7101, 0x04, 0x04, 4, 8, 1, some 0⟩,
  ⟨0x7101, 0x7101, 0x05, 0x05, 4, 8, 1, some 0⟩,
  ⟨0x7101, 0x7101, 0x06, 0x06, 4, 8, 1, some 0⟩,
  ⟨0x7101, 0x7101, 0x07, 0x07, 4, 8, 1, some 0⟩,
  ⟨0x7102, 0x7102, 0x01, 0x01, 4, 8, 2, some 0⟩,
  ⟨0x7102, 0x7102, 0x02, 0x02, 4, 8, 1, some 0⟩,
  ⟨0x7103, 0x7103, 0x01, 0x0D, 1, 1, 1, none⟩,
  ⟨0x8000, 0x8000, 0x01, 0x01, 2, 2, 0, some 8192⟩,
  ⟨0x8000, 0x8000, 0x02, 0x02, 2, 2, 0, some 1024⟩,
  ⟨0x8000, 0x8000, 0x03, 0x03, 4, 8, 1, some 0⟩,
  ⟨0x8000, 0x8000, 0x04, 0x04, 4, 8, 1, some 0⟩]

/-- Object rows of indices 8001h to 9000h. -/
def objRows13 : List ObjRow := [
  ⟨0x8001, 0x8001, 0x01, 0x01, 3, 4, 2, some 0⟩,
  ⟨0x8001, 0x8001, 0x02, 0x02, 9, 64, 1, none⟩,
  ⟨0x8002, 0x8002, 0x01, 0x01, 2, 2, 2, some 0⟩,
  ⟨0x8002, 0x8002, 0x02, 0x02, 9, 64, 1, none⟩,
  ⟨0x8010, 0x8010, 0x01, 0x06, 4, 8, 1, some 0⟩,
  ⟨0x8011, 0x8011, 0x01, 0x01, 4, 8, 1, some 0⟩,
  ⟨0x8020, 0x8020, 0x01, 0x01, 1, 1, 2, some 8⟩,
  ⟨0x8020, 0x8020, 0x02, 0x02, 1, 1, 2, some 0⟩,
  ⟨0x8021, 0x8021, 0x01, 0x01, 3, 4, 2, some 0⟩,
  ⟨0x8021, 0x8021, 0x02, 0x02, 9, 64, 1, none⟩,
  ⟨0x8030, 0x8030, 0x01, 0x01, 3, 4, 0, some 100000000⟩,
  ⟨0x8030, 0x8030, 0x02, 0x02, 1, 1, 0, some 20⟩,
  ⟨0x8031, 0x8031, 0x01, 0x09, 4, 8, 1, none⟩,
  ⟨0x8032, 0x8032, 0x01, 0x01, 4, 8, 1, some 0⟩,
  ⟨0x8032, 0x8032, 0x02, 0x02, 4, 8, 1, some 0⟩,
  ⟨0x9000, 0x9000, 0x01, 0x01, 3, 4, 1, none⟩,
  ⟨0x9000, 0x9000, 0x02, 0x02, 3, 4, 1, none⟩,
  ⟨0x9000, 0x9000, 0x03, 0x03, 9, 64, 1, none⟩,
  ⟨0x9000, 0x9000, 0x04, 0x04, 2, 2, 0, some 1⟩]

/-- Object rows of indices 9001h to 9050h. -/
def objRows14 : List ObjRow := [
  ⟨0x9001, 0x9001, 0x01, 0x01, 1, 1, 1, some 0⟩,
  ⟨0x9010, 0x9010, 0x01, 0x01, 9, 64, 3, none⟩,
  ⟨0x9010, 0x9010, 0x02, 0x02, 9, 64, 1, some 0⟩,
  ⟨0x9010, 0x9010, 0x03, 0x03, 3, 4, 3, none⟩,
  ⟨0x9011, 0x9011, 0x01, 0x01, 9, 32, 3, none⟩,
  ⟨0x9011, 0x9011, 0x02, 0x02, 9, 32, 3, none⟩,
  ⟨0x9030, 0x9030, 0x01, 0x01, 3, 4, 1, some 0⟩,
  ⟨0x9030, 0x9030, 0x02, 0x02, 1, 1, 2, some 1⟩,
  ⟨0x9030, 0x9030, 0x03, 0x03, 1, 1, 3, none⟩,
  ⟨0x9032, 0x9032, 0x01, 0x01, 1, 1, 2, some 0⟩,
  ⟨0x9040, 0x9040, 0x01, 0x01, 1, 1, 3, none⟩,
  ⟨0x9040, 0x9040, 0x02, 0x02, 1, 1, 2, some 0⟩,
  ⟨0x9040, 0x9040, 0x03, 0x03, 4, 8, 2, some 281474976710655⟩,
  ⟨0x9040, 0x9040, 0x04, 0x04, 1, 1, 1, some 0⟩,
  ⟨0x9050, 0x9050, 0x01, 0x01, 4, 8, 3, none⟩,
  ⟨0x9050, 0x9050, 0x02, 0x02, 1, 1, 3, none⟩,
  ⟨0x9050, 0x9050, 0x03, 0x03, 1, 1, 1, some 0⟩]

/-- Object rows of indices 9060h to A010h. -/
def objRows15 : List ObjRow := [
  ⟨0x9060, 0x9060, 0x01, 0x01, 2, 2, 2, some 34998⟩,
  ⟨0x9060, 0x9060, 0x02, 0x02, 4, 8, 1, some 0⟩,
  ⟨0x9070, 0x9070, 0x01, 0x01, 1, 1, 1, none⟩,
  ⟨0x9070, 0x9070, 0x02, 0x02, 3, 4, 1, some 0⟩,
  ⟨0x9070, 0x9070, 0x03, 0x03, 1, 1, 1, some 0⟩,
  ⟨0x9080, 0x9080, 0x01, 0x01, 1, 1, 1, none⟩,
  ⟨0x9080, 0x9080, 0x02, 0x02, 9, 64, 1, none⟩,
  ⟨0x9090, 0x9090, 0x01, 0x01, 3, 4, 1, some 0⟩,
  ⟨0xA000, 0xA000, 0x01, 0x01, 2, 2, 0, some 128⟩,
  ⟨0xA000, 0xA000, 0x02, 0x02, 2, 2, 0, some 512⟩,
  ⟨0xA000, 0xA000, 0x03, 0x03, 1, 1, 0, some 4⟩,
  ⟨0xA000, 0xA000, 0x04, 0x04, 3, 4, 0, some 1500⟩,
  ⟨0xA000, 0xA000, 0x05, 0x05, 1, 1, 0, some 96⟩,
  ⟨0xA010, 0xA010, 0x01, 0x01, 1, 1, 0, some 16⟩,
  ⟨0xA010, 0xA010, 0x02, 0x02, 1, 1, 0, some 64⟩,
  ⟨0xA010, 0xA010, 0x03, 0x03, 2, 2, 0, some 256⟩,
  ⟨0xA010, 0xA010, 0x04, 0x04, 1, 1, 0, some 8⟩,
  ⟨0xA010, 0xA010, 0x05, 0x05, 2, 2, 0, some 1⟩]

/-- Object rows of indices A011h to A030h. -/
def objRows16 : List ObjRow := [
  ⟨0xA011, 0xA011, 0x01, 0x01, 4, 8, 1, some 0⟩,
  ⟨0xA011, 0xA011, 0x02, 0x02, 4, 8, 1, some 0⟩,
  ⟨0xA011, 0xA011, 0x03, 0x03, 2, 2, 1, some 0⟩,
  ⟨0xA011, 0xA011, 0x04, 0x04, 3, 4, 1, some 0⟩,
  ⟨0xA011, 0xA011, 0x05, 0x05, 4, 8, 1, some 0⟩,
  ⟨0xA020, 0xA020, 0x01, 0x01, 1, 1, 0, some 16⟩,
  ⟨0xA020, 0xA020, 0x02, 0x02, 2, 2, 0, some 256⟩,
  ⟨0xA020, 0xA020, 0x03, 0x03, 1, 1, 0, some 8⟩,
  ⟨0xA020, 0xA020, 0x04, 0x04, 1, 1, 0, some 16⟩,
  ⟨0xA020, 0xA020, 0x05, 0x05, 2, 2, 0, some 1⟩,
  ⟨0xA021, 0xA021, 0x01, 0x01, 4, 8, 1, some 0⟩,
  ⟨0xA021, 0xA021, 0x02, 0x02, 2, 2, 1, some 0⟩,
  ⟨0xA021, 0xA021, 0x03, 0x03, 4, 8, 1, some 0⟩,
  ⟨0xA021, 0xA021, 0x04, 0x04, 4, 8, 1, some 0⟩,
  ⟨0xA030, 0xA030, 0x01, 0x01, 2, 2, 0, some 8191⟩,
  ⟨0xA030, 0xA030, 0x02, 0x02, 1, 1, 0, some 1⟩,
  ⟨0xA030, 0xA030, 0x03, 0x03, 1, 1, 0, some 4⟩,
  ⟨0xA030, 0xA030, 0x04, 0x04, 1, 1, 0, some 8⟩,
  ⟨0xA030, 0xA030, 0x05, 0x05, 1, 1, 0, some 16⟩,
  ⟨0xA030, 0xA030, 0x06, 0x06, 1, 1, 0, some 32⟩,
  ⟨0xA030, 0xA030, 0x07, 0x07, 1, 1, 0, some 64⟩,
  ⟨0xA030, 0xA030, 0x08, 0x08, 1, 1, 0, some 48⟩]

/-- Object rows of indices A031h to A041h. -/
def objRows17 : List ObjRow := [
  ⟨0xA031, 0xA031, 0x01, 0x01, 4, 8, 1, some 0⟩,
  ⟨0xA031, 0xA031, 0x02, 0x02, 4, 8, 1, some 0⟩,
  ⟨0xA031, 0xA031, 0x03, 0x03, 4, 8, 1, some 0⟩,
  ⟨0xA031, 0xA031, 0x04, 0x04, 4, 8, 1, some 0⟩,
  ⟨0xA031, 0xA031, 0x05, 0x05, 4, 8, 1, some 0⟩,
  ⟨0xA040, 0xA040, 0x01, 0x01, 1, 1, 0, some 4⟩,
  ⟨0xA040, 0xA040, 0x02, 0x02, 1, 1, 0, some 8⟩,
  ⟨0xA040, 0xA040, 0x03, 0x03, 1, 1, 0, some 16⟩,
  ⟨0xA040, 0xA040, 0x04, 0x04, 2, 2, 0, some 256⟩,
  ⟨0xA040, 0xA040, 0x05, 0x05, 1, 1, 0, some 16⟩,
  ⟨0xA040, 0xA040, 0x06, 0x06, 1, 1, 0, some 16⟩,
  ⟨0xA040, 0xA040, 0x07, 0x07, 1, 1, 0, some 7⟩,
  ⟨0xA041, 0xA041, 0x01, 0x01, 4, 8, 1, some 0⟩,
  ⟨0xA041, 0xA041, 0x02, 0x02, 4, 8, 1, some 0⟩,
  ⟨0xA041, 0xA041, 0x03, 0x03, 4, 8, 1, some 0⟩,
  ⟨0xA041, 0xA041, 0x04, 0x04, 4, 8, 1, some 0⟩,
  ⟨0xA041, 0xA041, 0x05, 0x05, 4, 8, 1, some 0⟩,
  ⟨0xA041, 0xA041, 0x06, 0x06, 4, 8, 1, some 0⟩]

/-- Object rows of indices A050h to A060h. -/
def objRows18 : List ObjRow := [
  ⟨0xA050, 0xA050, 0x01, 0x01, 1, 1, 0, some 128⟩,
  ⟨0xA050, 0xA050, 0x02, 0x02, 2, 2, 0, some 512⟩,
  ⟨0xA050, 0xA050, 0x03, 0x03, 1, 1, 0, some 32⟩,
  ⟨0xA050, 0xA050, 0x04, 0x04, 2, 2, 0, some 1024⟩,
  ⟨0xA050, 0xA050, 0x05, 0x05, 1, 1, 0, some 8⟩,
  ⟨0xA050, 0xA050, 0x06, 0x06, 1, 1, 0, some 8⟩,
  ⟨0xA050, 0xA050, 0x07, 0x07, 1, 1, 0, some 16⟩,
  ⟨0xA050, 0xA050, 0x08, 0x08, 1, 1, 0, some 8⟩,
  ⟨0xA050, 0xA050, 0x09, 0x09, 2, 2, 0, some 1⟩,
  ⟨0xA051, 0xA051, 0x01, 0x01, 4, 8, 1, some 0⟩,
  ⟨0xA051, 0xA051, 0x02, 0x02, 4, 8, 1, some 0⟩,
  ⟨0xA051, 0xA051, 0x03, 0x03, 4, 8, 1, some 0⟩,
  ⟨0xA051, 0xA051, 0x04, 0x04, 4, 8, 1, some 0⟩,
  ⟨0xA051, 0xA051, 0x05, 0x05, 4, 8, 1, some 0⟩,
  ⟨0xA060, 0xA060, 0x01, 0x01, 1, 1, 0, some 15⟩,
  ⟨0xA060, 0xA060, 0x02, 0x02, 1, 1, 0, some 8⟩,
  ⟨0xA060, 0xA060, 0x03, 0x03, 2, 2, 0, some 128⟩,
  ⟨0xA060, 0xA060, 0x04, 0x04, 1, 1, 0, some 32⟩,
  ⟨0xA060, 0xA060, 0x05, 0x05, 1, 1, 0, some 16⟩,
  ⟨0xA060, 0xA060, 0x06, 0x06, 1, 1, 0, some 64⟩,
  ⟨0xA060, 0xA060, 0x07, 0x07, 1, 1, 0, some 16⟩,
  ⟨0xA060, 0xA060, 0x08, 0x08, 3, 4, 0, some 32768⟩,
  ⟨0xA060, 0xA060, 0x09, 0x09, 1, 1, 0, some 12⟩,
  ⟨0xA060, 0xA060, 0x0A, 0x0A, 2, 2, 0, some 32⟩,
  ⟨0xA060, 0xA060, 0x0B, 0x0B, 1, 1, 0, some 32⟩]

/-- Object rows of indices A061h to A070h. -/
def objRows19 : List ObjRow := [
  ⟨0xA061, 0xA061, 0x01, 0x08, 1, 1, 2, some 0⟩,
  ⟨0xA061, 0xA061, 0x09, 0x09, 1, 1, 2, some 4⟩,
  ⟨0xA062, 0xA062, 0x01, 0x01, 1, 1, 2, some 0⟩,
  ⟨0xA063, 0xA063, 0x01, 0x01, 1, 1, 2, some 1⟩,
  ⟨0xA064, 0xA064, 0x01, 0x08, 4, 8, 1, none⟩,
  ⟨0xA065, 0xA065, 0x01, 0x08, 4, 8, 1, some 0⟩,
  ⟨0xA066, 0xA066, 0x01, 0x08, 4, 8, 1, some 0⟩,
  ⟨0xA067, 0xA067, 0x01, 0x08, 2, 2, 1, some 0⟩,
  ⟨0xA068, 0xA068, 0x01, 0x01, 4, 8, 1, some 0⟩,
  ⟨0xA068, 0xA068, 0x02, 0x02, 4, 8, 1, some 0⟩,
  ⟨0xA068, 0xA068, 0x03, 0x03, 4, 8, 1, some 0⟩,
  ⟨0xA068, 0xA068, 0x04, 0x04, 4, 8, 1, some 0⟩,
  ⟨0xA068, 0xA068, 0x05, 0x05, 4, 8, 1, some 0⟩,
  ⟨0xA068, 0xA068, 0x06, 0x06, 4, 8, 1, some 0⟩,
  ⟨0xA068, 0xA068, 0x07, 0x07, 4, 8, 1, some 0⟩,
  ⟨0xA070, 0xA070, 0x01, 0x01, 2, 2, 0, some 16384⟩,
  ⟨0xA070, 0xA070, 0x02, 0x02, 2, 2, 0, some 128⟩,
  ⟨0xA070, 0xA070, 0x03, 0x03, 2, 2, 0, some 64⟩]

/-- Object rows of indices A071h to A081h. -/
def objRows20 : List ObjRow := [
  ⟨0xA071, 0xA071, 0x01, 0x01, 2, 2, 2, some 0⟩,
  ⟨0xA072, 0xA072, 0x01, 0x01, 4, 8, 1, some 0⟩,
  ⟨0xA072, 0xA072, 0x02, 0x02, 4, 8, 1, some 0⟩,
  ⟨0xA072, 0xA072, 0x03, 0x03, 4, 8, 1, some 0⟩,
  ⟨0xA072, 0xA072, 0x04, 0x04, 4, 8, 1, some 0⟩,
  ⟨0xA072, 0xA072, 0x05, 0x05, 4, 8, 1, some 0⟩,
  ⟨0xA073, 0xA073, 0x01, 0x04, 2, 2, 1, some 16384⟩,
  ⟨0xA073, 0xA073, 0x05, 0x08, 2, 2, 1, some 16384⟩,
  ⟨0xA080, 0xA080, 0x01, 0x01, 1, 1, 0, some 64⟩,
  ⟨0xA080, 0xA080, 0x02, 0x02, 2, 2, 0, some 16384⟩,
  ⟨0xA080, 0xA080, 0x03, 0x03, 2, 2, 0, some 1024⟩,
  ⟨0xA080, 0xA080, 0x04, 0x04, 1, 1, 0, some 32⟩,
  ⟨0xA080, 0xA080, 0x05, 0x05, 1, 1, 0, some 64⟩,
  ⟨0xA080, 0xA080, 0x06, 0x06, 1, 1, 0, some 31⟩,
  ⟨0xA081, 0xA081, 0x01, 0x01, 4, 8, 1, some 0⟩,
  ⟨0xA081, 0xA081, 0x02, 0x02, 4, 8, 1, some 0⟩,
  ⟨0xA081, 0xA081, 0x03, 0x03, 4, 8, 1, some 0⟩,
  ⟨0xA081, 0xA081, 0x04, 0x04, 4, 8, 1, some 0⟩,
  ⟨0xA081, 0xA081, 0x05, 0x05, 4, 8, 1, some 0⟩,
  ⟨0xA081, 0xA081, 0x06, 0x06, 4, 8, 1, some 0⟩]

/-- Object rows of indices F000h to F000h. -/
def objRows21 : List ObjRow := [
  ⟨0xF000, 0xF000, 0x01, 0x01, 1, 1, 0, some 2⟩,
  ⟨0xF000, 0xF000, 0x02, 0x02, 3, 4, 0, some 341982663⟩,
  ⟨0xF000, 0xF000, 0x03, 0x03, 1, 1, 0, some 8⟩,
  ⟨0xF000, 0xF000, 0x04, 0x04, 2, 2, 0, some 860⟩,
  ⟨0xF000, 0xF000, 0x05, 0x05, 2, 2, 0, some 812⟩]

/-- Every row of the object tables; sub 00 of each object is the highest sub it defines (R384). -/
def objRows : List ObjRow :=
  objRows0 ++ objRows1 ++ objRows2 ++ objRows3 ++ objRows4 ++ objRows5 ++ objRows6 ++ objRows7 ++ objRows8 ++ objRows9 ++ objRows10 ++ objRows11 ++ objRows12 ++ objRows13 ++ objRows14 ++ objRows15 ++ objRows16 ++ objRows17 ++ objRows18 ++ objRows19 ++ objRows20 ++ objRows21

/-- The rows among which those of an index stand. -/
def objPage (idx : Nat) : List ObjRow :=
  if idx < 0x7000 then (if idx < 0x4030 then (if idx < 0x2000 then (if idx < 0x1020 then objRows0
  else objRows1)
  else (if idx < 0x3020 then objRows2
  else (if idx < 0x3041 then objRows3
  else objRows4)))
  else (if idx < 0x5001 then (if idx < 0x4052 then objRows5
  else (if idx < 0x4100 then objRows6
  else objRows7))
  else (if idx < 0x5040 then objRows8
  else (if idx < 0x6002 then objRows9
  else objRows10))))
  else (if idx < 0xA011 then (if idx < 0x8001 then (if idx < 0x7021 then objRows11
  else objRows12)
  else (if idx < 0x9001 then objRows13
  else (if idx < 0x9060 then objRows14
  else objRows15)))
  else (if idx < 0xA061 then (if idx < 0xA031 then objRows16
  else (if idx < 0xA050 then objRows17
  else objRows18))
  else (if idx < 0xA071 then objRows19
  else (if idx < 0xF000 then objRows20
  else objRows21))))

/-- The row that defines a sub of an object. -/
def objRow (idx sub : Nat) : Option ObjRow :=
  (objPage idx).find? fun r => r.lo ≤ idx && idx ≤ r.hi && r.sub0 ≤ sub && sub ≤ r.sub1

/-- Whether an object exists at an index. -/
def objExists (idx : Nat) : Bool := (objPage idx).any fun r => r.lo ≤ idx && idx ≤ r.hi

/-- The highest sub an object defines (R384). -/
def objHighSub (idx : Nat) : Nat :=
  (objPage idx).foldl (fun m r => if r.lo ≤ idx ∧ idx ≤ r.hi ∧ m < r.sub1 then r.sub1 else m) 0

/-- The default primary MAC address (R420): SHA3-512 over the root secret and "MAC", first 6 bytes, with
bit 1 of the first octet set and bit 0 clear; the first octet is 47:40.
(DEDUCED, log 86.) -/
def macDefault : Nat :=
  let h := (Config.sha3_512 (toBE 64 Config.pufRoot.toNat ++ [0x4D, 0x41, 0x43])).toNat / 2 ^ 464
  (h - field h 40 2 * 2 ^ 40) + 2 * 2 ^ 40

/-- The default of an object: the fixed value of its table; the clock of an operating point (R343),
the host port of partition p, p mod 2 (R342), the MAC addresses of this module's identity (R406, R420),
and 0 where the table gives none. -/
def dictDefault (idx sub : Nat) : Nat :=
  if idx = 0x3001 then [600, 750, 900, 1050, 1200, 1350, 1500, 1650, 1800].getD (sub - 1) 0
  else if idx = 0x6020 then (sub - 1) % 2
  else if idx = 0x1020 ∧ sub ≤ 2 then macDefault + (sub - 1)
  else match objRow idx sub with
    | some r => r.dflt.getD 0
    | none => 0

/-- The key of an object's sub in a sparse table. -/
def odKey (idx sub : Nat) : Nat := 256 * idx + sub

/-- The working value of a setting. -/
def setting (s : State) (idx sub : Nat) : Nat := sgetD s.dict.vals (odKey idx sub) (dictDefault idx sub)

/-- The value of a setting as loaded at the last node reset. -/
def inForce (s : State) (idx sub : Nat) : Nat := sgetD s.dict.force (odKey idx sub) (dictDefault idx sub)

end Sys2Proof.Machine
end

