-- ==== Sys2Proof/Machine/Map.lean ====
section
/-! DEFINITION. The node's geography: dies, links and routes (R10 to R14), the physical address map
(R15 to R20), the interleaves (R180 to R182, R191) and what each partition holds (R53, R54, R192). -/
namespace Sys2Proof.Machine

/-! ### Dies, links, routes -/

/-- State of a die, OD 1010h: 0 absent, 1 up, 2 up on spares, 3 down (R24). The companion site is
empty unless found (R3). -/
def State.die (s : State) (d : Nat) : Nat := sgetD s.dieState d (if d = 8 then 0 else 1)

/-- The ends of the Grentirus links by die index, first end first (R12). -/
def linkEnds : List (Nat × Nat) :=
  [(0,1),(0,2),(0,3),(1,2),(1,3),(2,3),(4,0),(4,1),(5,2),(5,3),(6,0),(6,1),(7,2),(7,3),(4,6),(5,7),(4,5),(6,7),(7,8)]

/-- The link that joins two dies directly. -/
def directLink (a b : Nat) : Option Nat := linkEnds.findIdx? fun e => e = (a, b) || e = (b, a)

/-- The intermediate die of two dies that share no link (R13), for one order of the pair. -/
def viaTable : List (Nat × Nat × Nat) :=
  [(4,2,0),(4,3,1),(5,0,2),(5,1,3),(6,2,0),(6,3,1),(7,0,2),(7,1,3),(4,7,6),(5,6,7)]

/-- The dies of the route between two dies other than the companion, ends included (R13). -/
def routeDies (a b : Nat) : List Nat :=
  if a = b then [a]
  else if (directLink a b).isSome then [a, b]
  else match viaTable.find? (fun e => (e.1 = a ∧ e.2.1 = b) ∨ (e.1 = b ∧ e.2.1 = a)) with
    | some (_, _, v) => [a, v, b]
    | none => [a, b]

/-- The dies of the route between any two dies: the companion goes by HB1 (R13). -/
def fullRoute (a b : Nat) : List Nat :=
  if a = b then [a]
  else if a = 8 then 8 :: routeDies 7 b
  else if b = 8 then routeDies a 7 ++ [8]
  else routeDies a b

/-- The links along a list of dies. -/
def linksAlong : List Nat → List Nat
  | a :: b :: r => (match directLink a b with | some l => [l] | none => []) ++ linksAlong (b :: r)
  | _ => []

/-- The links of the route between two dies. -/
def routeLinks (a b : Nat) : List Nat := linksAlong (fullRoute a b)

/-- A link, in reset where nothing has trained it. -/
def State.link (s : State) (l : Nat) : Link := sgetD s.links l {}
def State.setLink (s : State) (l : Nat) (x : Link) : State := { s with links := sput s.links l x {} }

/-- A link that carries traffic to the next die: it has not been declared down (R14). A link in
reset has carried nothing yet; messages wait for it. -/
def State.linkDown (s : State) (l : Nat) : Bool := (s.link l).state == .down

/-- Whether a die is present and up (R24). -/
def State.dieUp (s : State) (d : Nat) : Bool := s.die d != 0 && s.die d != 3

/-- Whether a request from die `a` can reach die `b`: both present and up, no link of the route down
(R14, R20). -/
def State.reaches (s : State) (a b : Nat) : Bool :=
  s.dieUp a && s.dieUp b && (routeLinks a b).all (fun l => !s.linkDown l)

/-! ### Address map -/

/-- The window of R15 an address lies in, with the offset from its base. -/
inductive Window where
  | hbm (die off : Nat)
  | aliasWindow (off : Nat)
  | tier2 (hub off : Nat)
  | companion (off : Nat)
  | regs (off : Nat)
  | net (off : Nat)
  | host (port off : Nat)
  | reserved
  deriving DecidableEq, Repr

/-- The node physical address map (R15). -/
def window (a : Nat) : Window :=
  if a < 0x020000000000 then .hbm (a / 0x8000000000) (a % 0x8000000000)
  else if a < 0x040000000000 then .reserved
  else if a < 0x060000000000 then .aliasWindow (a - 0x040000000000)
  else if a < 0x080000000000 then .reserved
  else if a < 0x0A0000000000 then .tier2 ((a - 0x080000000000) / 0x10000000000) (a % 0x10000000000)
  else if a < 0x0C0000000000 then .reserved
  else if a < 0x100000000000 then .companion (a - 0x0C0000000000)
  else if a < 0x110000000000 then .regs (a - 0x100000000000)
  else if a < 0x400000000000 then .reserved
  else if a < 0xC00000000000 then .net (a - 0x400000000000)
  else if a < 0xE00000000000 then .host 0 (a - 0xC00000000000)
  else if a < 0x1000000000000 then .host 1 (a - 0xE00000000000)
  else .reserved

/-- Bytes of a populated die-local window and of the alias (R15, R24). -/
def hbmBytes : Nat := 320000000000
def aliasBytes : Nat := 1280000000000
/-- Bytes of a populated tier-2 window: 768 GB less half of the spare pool (R18). -/
def State.tier2Bytes (s : State) : Nat := 768000000000 - 500000000 * s.mem.poolGB

/-- The alias mapping of R182: the die-local address of an alias offset. -/
def aliasToLocal (x : Nat) : Nat :=
  let g := x / 4096
  let q := g / 4
  0x8000000000 * ((g % 4) ^^^ (q % 4)) + 4096 * q + x % 4096

/-- The key address of a memory byte (R17, R165): the die-local address of an HBM location, the
address itself in tier 2; none where no memory backs it. The alias is unbacked in a node of more
than one partition (R54). -/
def State.keyAddr (s : State) (a : Nat) : Option Nat :=
  match window a with
  | .hbm _ off => if off < hbmBytes then some a else none
  | .aliasWindow off => if s.parts = 1 ∧ off < aliasBytes then some (aliasToLocal off) else none
  | .tier2 _ off => if off < s.tier2Bytes then some a else none
  | _ => none

/-- The location by which caches, buffers and the directory know a byte: the key address of a memory
byte, any other byte's own address (R17, R165). -/
def State.location (s : State) (a : Nat) : Nat := (s.keyAddr a).getD a

/-- Where a die-local offset lies (R181): stack within the die, pseudo-channel and byte. -/
def interleave (half : Bool) (x : Nat) : Nat × Nat × Nat :=
  let p := if half then 128 else 256
  let start := if half ∧ x ≥ 160000000000 then 160000000000 else 0
  let h := if half ∧ x ≥ 160000000000 then 1 else 0
  let y := x - start
  let tail := 4882812 * (256 * p)
  let (j, byte) :=
    if y < tail then
      let g := y / 256
      let r := g / p
      ((g % p) ^^^ (r % p), r * 256 + y % 256)
    else ((y - tail) / 128, 1249999872 + y % 128)
  if half then (2 * h + j % 2, (j / 2) % 64, byte) else (j % 4, (j / 4) % 64, byte)

/-- The stack and linear pseudo-channel of a key address in HBM. -/
def State.keyPc (s : State) (k : Nat) : Nat × Nat × Nat :=
  let d := k / 0x8000000000
  let (st, pc, byte) := interleave s.mem.halfMode (k % 0x8000000000)
  (4 * d + st, 64 * (4 * d + st) + pc, byte)

/-- Whether a key address names tier 2. -/
def isTier2 (k : Nat) : Bool := k ≥ 0x080000000000
/-- The hub of a tier-2 key address. -/
def tier2Hub (k : Nat) : Nat := (k - 0x080000000000) / 0x10000000000
/-- The package of an offset in a hub's tier-2 space (R191). -/
def tier2Package (hub off : Nat) : Nat := 12 * hub + (off / 256) % 12

/-- The home agent of a key address (R11, R226). -/
def State.home (s : State) (k : Nat) : Nat :=
  if isTier2 k then 10 + tier2Hub k else (s.keyPc k).1 / 2

/-- The die an agent is on (R226). -/
def agentDie (a : Nat) : Nat := if a < 8 then a / 2 else a - 4

/-- The half of a cluster (R10). -/
def clusterHalf (c : Nat) : Nat := 2 * (c / 128) + (c % 128) / 64
/-- The die of a cluster. -/
def clusterDie (c : Nat) : Nat := c / 128
/-- The line address of a byte. -/
def lineOf (a : Nat) : Nat := a / 128 * 128

/-! ### Partitions (R53, R192) -/

/-- The partition of a cluster. -/
def State.clusterPart (s : State) (c : Nat) : Nat := clusterHalf c / (8 / s.parts)
/-- The partition of a hart (R10, R53). -/
def State.hartPart (s : State) (h : Nat) : Nat := h / (192 / s.parts)

/-- Whether partition `p` holds the memory at a key address (R53, R192). -/
def State.partHolds (s : State) (p k : Nat) : Bool :=
  if isTier2 k then
    let hub := tier2Hub k
    let off := k % 0x10000000000
    if s.parts = 1 then true
    else if s.parts = 2 then hub = p
    else if s.parts = 4 then hub = p / 2 && off / (s.tier2Bytes / 2) = p % 2
    else hub = p / 4 && off / (s.tier2Bytes / 4) = p % 4
  else (s.keyPc k).1 / 2 / (8 / s.parts) = p

/-- Whether every byte of a range lies in memory held by a partition: its ends and each 4 KiB step,
since shares are contiguous and the interleave permutes within a half or a die. -/
def State.rangeHeld (s : State) (p a n : Nat) : Bool :=
  match s.keyAddr a, s.keyAddr (a + n - 1) with
  | some k, some k' =>
    s.partHolds p k && s.partHolds p k' &&
      (match window a, window (a + n - 1) with
       | .hbm d _, .hbm d' _ => s.parts = 1 || d = d' || d / 2 = d' / 2
       | .aliasWindow _, .aliasWindow _ => true
       | .tier2 h _, .tier2 h' _ => h = h'
       | _, _ => false) && 0 < n
  | _, _ => false

/-- The host port of a partition, as in force since the last node reset (R321). -/
def State.partPort (s : State) (p : Nat) : Nat := inForce s 0x6020 (p + 1) % 2

end Sys2Proof.Machine
end

