-- ==== Sys2Proof/Machine/Ops.lean ====
section
/-! DEFINITION. Named operations over the state: counters, free values, what the node sends, event
records (R379, R380), memory sectors with poison (R184, R196, R199, R369) and scratchpad bytes. -/
namespace Sys2Proof.Machine

/-! ### Parts of the state by index -/

def State.cluster (s : State) (c : Nat) : Cluster := sgetD s.clusters c {}
def State.setCluster (s : State) (c : Nat) (x : Cluster) : State := { s with clusters := sput s.clusters c x {} }
def State.modCluster (s : State) (c : Nat) (f : Cluster → Cluster) : State := s.setCluster c (f (s.cluster c))
def State.group? (s : State) (g : Nat) : Option Group := sget? g s.groups
def State.setGroup (s : State) (g : Nat) (x : Group) : State := { s with groups := sset g x s.groups }
def State.kernel? (s : State) (k : Nat) : Option Kernel := sget? k s.kernels
def State.setKernel (s : State) (k : Nat) (x : Kernel) : State := { s with kernels := sset k x s.kernels }
def State.modKernel (s : State) (k : Nat) (f : Kernel → Kernel) : State :=
  match s.kernel? k with
  | some x => s.setKernel k (f x)
  | none => s
def State.modGroup (s : State) (g : Nat) (f : Group → Group) : State :=
  match s.group? g with
  | some x => s.setGroup g (f x)
  | none => s
def State.agent (s : State) (a : Nat) : CohAgent := sgetD s.agents a {}
def State.setAgent (s : State) (a : Nat) (x : CohAgent) : State := { s with agents := sput s.agents a x {} }
def State.modAgent (s : State) (a : Nat) (f : CohAgent → CohAgent) : State := s.setAgent a (f (s.agent a))
def State.xl (s : State) (p : Nat) : Xlate := sgetD s.xlate p {}
def State.setXl (s : State) (p : Nat) (x : Xlate) : State := { s with xlate := sput s.xlate p x {} }
def State.modXl (s : State) (p : Nat) (f : Xlate → Xlate) : State := s.setXl p (f (s.xl p))
def State.dx (s : State) (d : Nat) : DieXlate := sgetD s.dieXlate d {}
def State.setDx (s : State) (d : Nat) (x : DieXlate) : State := { s with dieXlate := sput s.dieXlate d x {} }
def State.tally (s : State) (d : Nat) : TallySet := sgetD s.tallies d {}
def State.setTally (s : State) (d : Nat) (x : TallySet) : State := { s with tallies := sput s.tallies d x {} }

/-- The key of a group: 64 × cluster + 16 × scheduler + slot (R56). -/
def gkey (g : GroupId) : Nat := 64 * g.cluster.val + 16 * g.sched.val + g.slot.val
/-- The cluster of a group key. -/
def gcluster (k : Nat) : Nat := k / 64
/-- The groups resident on a cluster. -/
def State.clusterGroups (s : State) (c : Nat) : Sparse Group := s.groups.filter fun e => gcluster e.1 = c
/-- The groups of a kernel. -/
def State.kernelGroups (s : State) (k : Nat) : Sparse Group := s.groups.filter fun e => e.2.kernel = k
/-- All clusters of a kernel, without repeats. -/
def Kernel.allClusters (k : Kernel) : List Nat := k.clusters.flatten.eraseDups

/-! ### Counters, free values, messages out -/

/-- The value of a counter object. -/
def State.counter (s : State) (idx sub : Nat) : Nat := (sgetD s.counters (odKey idx sub) 0).toNat
/-- Set a counter or status object the node keeps. -/
def State.setCounter (s : State) (idx sub n : Nat) : State :=
  { s with counters := sput s.counters (odKey idx sub) (BitVec.ofNat 64 n) 0 }
/-- Add to a counter object. -/
def State.count (s : State) (idx sub n : Nat) : State := s.setCounter idx sub (s.counter idx sub + n)

/-- The next free value, and the state that has used it (DESIGN CHOICE, log 3). -/
def State.freeNat (s : State) : Nat := Config.freeNat s.free
def State.freeWord (s : State) : W64 := Config.freeWord s.free
def State.freeByte (s : State) : Byte := Config.freeByte s.free
def State.useFree (s : State) : State := { s with free := s.free + 1 }

/-- Record something the node sends; newest first. -/
def State.send (s : State) (o : Out) : State := { s with out := o :: s.out }

/-! ### Events (R379, R380) and the trace ring (R405) -/

/-- The hub that serves a die: HB0 for KX0, KX1, PD0 and itself, HB1 for the others (R293). -/
def hubOfDie (d : Nat) : Nat := if d = 0 ∨ d = 1 ∨ d = 4 ∨ d = 6 then 0 else 1

/-- Whether die `d` reaches what serves a window: the die of a register block, the companion, the hub of
the network window, the hub of a host port (R14, R20). -/
def State.windowReached (s : State) (d : Nat) : Window → Bool
  | .regs off => s.reaches d (off / 2 ^ 33)
  | .companion _ => s.reaches d 8
  | .net _ => s.reaches d (6 + hubOfDie d)
  | .host port _ => s.reaches d (6 + port)
  | _ => true

/-- Put a record into a hub's trace ring while tracing is on, keeping what the trace share holds
(R405). -/
def State.trace (s : State) (die : Nat) (r : BitVec 512) : State :=
  if setting s 0x8020 2 = 1 then
    let h := hubOfDie die
    let room := 16384 * setting s 0x8020 1
    { s with mem := { s.mem with trace := sset h ((r :: sgetD s.mem.trace h []).take room) s.mem.trace } }
  else s

/-- The fields of an event the caller names. -/
structure Event where
  cls : Nat
  code : Nat
  die : Nat
  part : Nat := 15
  location : Nat := 0
  data : Nat := 0
  addr : Nat := 0
  kernelId : Nat := 0

/-- The recommended checkpoint interval of a partition (R376), in whole seconds; a value where the
formula divides by zero is free (DESIGN CHOICE, log 34). A partition that has finished no drain takes the assumed
duration. -/
def State.interval (s : State) (p : Nat) : Option Nat :=
  let f := setting s 0x4076 1
  let w := setting s 0x4076 2
  let big := 1000000000 * s.mem.lifeFailures + f * w
  let hw := s.mem.lifeHours + w
  let g := s.net.groups.foldl (fun n e =>
    let x := e.2.toNat
    if field x 8 3 = p ∧ field x 0 3 = 1 ∧ field x 367 17 + 1 > n then field x 367 17 + 1 else n) 1
  let ms := if s.counter 0x4073 (p + 1) = 0 then 1000 * setting s 0x4074 (p + 1) else s.counter 0x4073 (p + 1)
  let a := 3600 * 1000000000 * hw
  let b := big * g
  if b = 0 ∨ hw = 0 then none
  else if 2 * ms * b < 1000 * a then some ((Nat.sqrt (4 * (2 * ms * a) / (1000 * b)) + 1) / 2)
  else some ((2 * a + b) / (2 * b))

/-- Bring OD 4075h of a partition up to date. -/
def State.setInterval (s : State) (p : Nat) : State :=
  match s.interval p with
  | some t => s.setCounter 0x4075 (p + 1) (t % 2 ^ 32)
  | none => s.useFree.setCounter 0x4075 (p + 1) (s.freeNat % 2 ^ 32)

/-- Append an event record: the log holds 8,192, PERMANENT and FATAL ones also go to the flash log of
1,024 (R379), whose appends an update holds (R419). FATAL events and code 0003h count as failures of the module's life (R376). The time
stamp is a free value (DESIGN CHOICE, log 8).
(DESIGN CHOICE, log 10.) -/
def State.newEvent (s : State) (e : Event) : State :=
  let seq := sgetD s.mem.eventSeq e.die 0
  let r : Nat := e.cls <<< 128 ||| e.part <<< 132 ||| e.die <<< 136 ||| e.code <<< 144
    ||| s.freeWord.toNat <<< 160 ||| (seq % 2 ^ 32) <<< 224 ||| (s.mem.nextLog % 2 ^ 32) <<< 256
    ||| (e.kernelId % 2 ^ 32) <<< 288 ||| (e.location % 2 ^ 32) <<< 320 ||| 1 <<< 352
    ||| (e.data % 2 ^ 64) <<< 384 ||| (e.addr % 2 ^ 64) <<< 448
  let rec512 := BitVec.ofNat 512 r
  let full := s.mem.events.length ≥ 8192
  let fail := e.cls = 5 ∨ e.code = 3
  let lasting := e.cls = 4 ∨ e.cls = 5
  let held := s.boot.updating.isSome || s.boot.updateNetwork
  let m := { s.mem with
    events := (rec512 :: s.mem.events).take 8192
    nextLog := s.mem.nextLog + 1
    eventSeq := sput s.mem.eventSeq e.die (seq + 1) 0
    flashLog := if lasting ∧ !held then (rec512 :: s.mem.flashLog).take 1024 else s.mem.flashLog
    flashHeld := if lasting ∧ held then rec512 :: s.mem.flashHeld else s.mem.flashHeld
    lifeFailures := if fail then s.mem.lifeFailures + 1 else s.mem.lifeFailures }
  let s := { s.useFree with mem := m }
  let s := if full then s.count 0x8000 4 1 else s
  let s := if fail then (List.range s.parts).foldl (fun s p => s.setInterval p) s else s
  ((s.count 0x8000 3 1).count 0x8010 e.cls 1).trace e.die rec512

/-- Whether a record is a CORRECTED one of the resource of an event. -/
def Event.coalesces (e : Event) (r : BitVec 512) : Bool :=
  e.cls = 1 && field r.toNat 128 4 = 1 && field r.toNat 144 16 = e.code && field r.toNat 136 8 = e.die && field r.toNat 320 32 = e.location
/-- One more occurrence in a record's COUNT. -/
def oneMore (r : BitVec 512) : BitVec 512 := BitVec.ofNat 512 (setField r.toNat 352 32 (field r.toNat 352 32 + 1))
/-- Record an event: a CORRECTED one joins the newest record of its resource while that is less than a second old
(R379); whether it is, is a free value (DESIGN CHOICE, log 10). -/
def State.event (s : State) (e : Event) : State :=
  match s.mem.events.find? e.coalesces with
  | none => s.newEvent e
  | some r =>
    if s.freeNat % 2 = 0 then s.useFree.newEvent e
    else { s.useFree with mem := { s.useFree.mem with
      events := s.mem.events.map fun (x : BitVec 512) => if field x.toNat 256 32 = field r.toNat 256 32 then oneMore x else x } }.count 0x8010 1 1

/-! ### Memory: bytes by key address -/

/-- What an unlisted byte of memory reads as: 0, the value memory clearing leaves (R414). -/
def emptyByte : Byte := 0
/-- One byte of memory. -/
def readByte (m : List Host.Cell) (a : Nat) : Byte := sgetD m a emptyByte
/-- Store one byte, keeping the canonical form. -/
def writeByte (m : List Host.Cell) (a : Nat) (v : Byte) : List Host.Cell := sput m a v emptyByte
/-- The canonical form of memory: addresses strictly rising, no entry equal to an unlisted byte. -/
def Memory.wf (m : List Host.Cell) : Bool := sparseWf emptyByte m
/-- `n` bytes from `a`. -/
def readBytes (m : List Host.Cell) (a n : Nat) : Bytes := (List.range n).map fun i => readByte m (a + i)
/-- Store bytes from `a`. -/
def writeBytes : List Host.Cell → Nat → Bytes → List Host.Cell
  | m, _, [] => m
  | m, a, b :: r => writeBytes (writeByte m a b) (a + 1) r
/-- Store the bytes whose mask bit is set. -/
def writeMasked (m : List Host.Cell) (a : Nat) (mask data n : Nat) : List Host.Cell :=
  (List.range n).foldl (fun m i => if mask.testBit i then writeByte m (a + i) (BitVec.ofNat 8 (data >>> (8 * i))) else m) m

/-- Why a memory location has no data. -/
inductive Loss where
  | none
  /-- the stack is offline for repair (R199), or did not train (R412) -/
  | offline
  /-- the pseudo-channel was retired without data recovery (R196) -/
  | pcLost (stack : Nat)
  /-- the tier-2 package failed (R369) -/
  | package
  deriving DecidableEq, Repr

/-- Tier-2 offset of the first byte of a spare slot, by sub-index of OD 4031h (R193). -/
def State.slotBase (s : State) (sub : Nat) : Nat × Nat :=
  let hub := if sub ≥ 0x41 then 1 else 0
  (hub, 768000000000 - 500000000 * s.mem.poolGB + 1250000000 * (sub - (if sub ≥ 0x41 then 0x41 else 1)))

/-- Slots of each hub (R193). -/
def State.slotCount (s : State) : Nat := 500000000 * s.mem.poolGB / 1250000000

/-- The slot that holds a pseudo-channel. -/
def State.slotOf (s : State) (pc : Nat) : Option (Nat × SpareSlot) := s.mem.slots.find? fun e => e.2.pc = pc

/-- What has become of the location with key address `k`. -/
def State.lossAt (s : State) (k : Nat) : Loss :=
  if isTier2 k then
    (if s.mem.failedPkgs.contains (tier2Package (tier2Hub k) (k % 0x10000000000)) then .package else .none)
  else
    let (st, pc, byte) := s.keyPc k
    let x := sgetD s.mem.hbmStacks st {}
    if x.offline || x.failed then .offline
    else if (sgetD s.mem.pcs pc {}).lost then .pcLost st
    else match s.slotOf pc with
      | some (sub, sl) =>
        let below := match x.fill with
          | some (fpc, _, g) => fpc = pc && decide (byte / 256 < g)
          | none => false
        let (hub, base) := s.slotBase sub
        if (sl.filled || below) && s.mem.failedPkgs.contains (tier2Package hub (base + byte)) then .package else .none
      | none => .none

/-- The poison mark of the sector at key address `k` (R184, R404), and what an unlisted sector's is. -/
def State.markDefault (s : State) (k : Nat) : Bool :=
  s.mem.allPoisoned && (isTier2 k || !(sgetD s.mem.hbmStacks (s.keyPc k).1 {}).cleared)
def State.marked (s : State) (k : Nat) : Bool := sgetD s.mem.poison (k / 32) (s.markDefault k)
def State.setMark (s : State) (k : Nat) (b : Bool) : State :=
  { s with mem := { s.mem with poison := sput s.mem.poison (k / 32) b (s.markDefault k) } }

/-- Which layout change left the sector at `k` unspecified: the stack's last one, unless the sector has
been written since (R180). -/
def State.unspecified (s : State) (k : Nat) : Option Nat :=
  if isTier2 k then none
  else match (sgetD s.mem.hbmStacks (s.keyPc k).1 {}).mixed with
    | some n => if sgetD s.mem.known (k / 32) false then none else some n
    | none => none

/-- The stored bytes of the sector at `k`; unspecified ones are free values. -/
def State.sector (s : State) (k : Nat) : Nat :=
  match s.unspecified k with
  | some n => Config.oldSector n (k / 32) % 2 ^ 256
  | none => fromLE (readBytes s.mem.cells (k / 32 * 32) 32)

/-- Stored bytes within one line. -/
def State.stored (s : State) (k n : Nat) : Bytes :=
  let line := k / 128 * 128
  let d := (List.range 4).foldl (fun d i => d ||| s.sector (line + 32 * i) <<< (256 * i)) 0
  toLE n (d >>> (8 * (k % 128)))

/-- Read one 32-byte sector from the stack or package: its bytes and whether it is poisoned. -/
def State.dramRead (s : State) (k : Nat) : Nat × Bool :=
  if s.lossAt k = .none then (s.sector k, s.marked k) else (0, true)

/-- A full write gives a sector a new codeword (R183). -/
def State.dropUpset (s : State) (k : Nat) : State := { s with mem := { s.mem with upsets := sput s.mem.upsets (k / 32) (0, 0) (0, 0) } }

/-- Store bytes of a sector under a mask; an unspecified sector's other bytes keep their free values. -/
def State.putSector (s : State) (k mask data : Nat) : State :=
  match s.unspecified k with
  | some _ =>
    let old := s.sector k
    let c := writeMasked s.mem.cells (k / 32 * 32) (2 ^ 32 - 1) old 32
    { s with mem := { s.mem with cells := writeMasked c (k / 32 * 32) mask data 32, known := sput s.mem.known (k / 32) true false } }
  | none => { s with mem := { s.mem with cells := writeMasked s.mem.cells (k / 32 * 32) mask data 32 } }

/-- Write a sector to the stack or package: a full write clears the poison, a partial write of a
poisoned sector writes nothing (R184); writes to lost ranges are discarded and counted (R196, R369). -/
def State.dramWrite (s : State) (k mask data : Nat) : State :=
  match s.lossAt k with
  | .offline => s
  | .pcLost st => s.count 0x4011 (st + 1) 1
  | .package => s.count 0x8011 1 1
  | .none =>
    if mask = 2 ^ 32 - 1 then
      ((s.setMark k false).dropUpset k).putSector k mask data
    else if s.marked k then s
    else s.putSector k mask data

/-- Write a sector back poisoned (R184). -/
def State.dramPoison (s : State) (k : Nat) : State :=
  if s.lossAt k = .none then s.setMark k true else s

/-- Write the named sectors of a line to memory, poisoned ones poisoned (R167, R184). -/
def State.dramWriteLine (s : State) (line sectors poison data : Nat) : State :=
  (setBits sectors 4).foldl (fun s i =>
    if poison.testBit i then s.dramPoison (line + 32 * i)
    else s.dramWrite (line + 32 * i) (2 ^ 32 - 1) (field data (256 * i) 256)) s

/-- The line's four sectors from memory: data and poison mask. -/
def State.dramLine (s : State) (line : Nat) : Nat × Nat :=
  (List.range 4).foldl (fun (d, p) i =>
    let (x, b) := s.dramRead (line + 32 * i)
    (d ||| x <<< (256 * i), p ||| b2n b <<< i)) (0, 0)

/-- The sectors of a line: keep those of `old` except the named ones, which come from `new`. -/
def mergeSectors (sectors old new : Nat) : Nat :=
  (List.range 4).foldl (fun d i => d ||| (field (if sectors.testBit i then new else old) (256 * i) 256) <<< (256 * i)) 0

/-- Merge bytes under a byte mask. -/
def mergeBytes (n mask old new : Nat) : Nat :=
  (List.range n).foldl (fun d i => d ||| (field (if mask.testBit i then new else old) (8 * i) 8) <<< (8 * i)) 0

/-! ### Lines a cluster holds (R155, R162 to R164, R173) -/

/-- Drop a line from the L1 and the prefetch side buffer (R162, R174). -/
def State.dropL1 (s : State) (cl line : Nat) : State :=
  s.modCluster cl fun c => { c with
    l1 := c.l1.filter fun x => x.line ≠ line
    fills := c.fills.map fun f => if f.line = line then { f with keep := false } else f
    pf := (c.pf.filter fun f => !(f.line = line && f.data.isSome)).map fun f => if f.line = line then { f with keep := false } else f }

/-- Invalidate a cluster's L1 and prefetch side buffer in full (R164). -/
def State.invalidateL1 (s : State) (cl : Nat) : State :=
  s.modCluster cl fun c => { c with
    l1 := []
    fills := c.fills.map fun f => { f with keep := false }
    pf := (c.pf.filter fun f => f.data.isNone).map fun f => { f with keep := false } }

/-- What is still to come of remote-node lines is not kept (R173). -/
def Cluster.forgetRemote (c : Cluster) : Cluster :=
  { c with
    fills := c.fills.map fun f => { f with keepRemote := false }
    pf := c.pf.map fun f => { f with keepRemote := false }
    xfers := c.xfers.map fun x => { x with keepRemote := false } }

/-- Invalidate the remote-node lines of a half (R173). -/
def State.dropRemote (s : State) (half : Nat) : State :=
  let s := { s with clusters := s.clusters.map fun (e : Nat × Cluster) => (e.1, if clusterHalf e.1 = half then e.2.forgetRemote else e.2) }
  s.modAgent half fun x => { x with copies := x.copies.filter fun c => !c.remote }

/-- What an acquire by a group of a cluster does to the caches (R164, R173, R208). -/
def State.acquire (s : State) (gk scope : Nat) : State :=
  let cl := gcluster gk
  let s := if scope ≥ 1 then s.invalidateL1 cl else s
  if scope = 4 then s.dropRemote (clusterHalf cl) else s

/-! ### Scratchpad (R66, R153, R154) -/

/-- The scratchpad size in force on a cluster: 512 KiB less the L1. -/
def Cluster.spadSize (c : Cluster) : Nat := 524288 - c.l1size
/-- Little-endian number of `n` scratchpad bytes. -/
def Cluster.spadRead (c : Cluster) (off n : Nat) : Nat := fromLE (readBytes c.spad off n)
def Cluster.spadBytes (c : Cluster) (off n : Nat) : Bytes := readBytes c.spad off n
/-- Store bytes in scratchpad. -/
def Cluster.spadWrite (c : Cluster) (off : Nat) (b : Bytes) : Cluster := { c with spad := writeBytes c.spad off b }
/-- Write zero to a scratchpad range. -/
def Cluster.spadZero (c : Cluster) (off n : Nat) : Cluster :=
  { c with spad := c.spad.filter fun e => !(decide (off ≤ e.1) && decide (e.1 < off + n)) }

end Sys2Proof.Machine
end

