-- ==== Sys2Proof/Machine/Interrupt.lean ====
section
/-! DEFINITION. PCIe function state the node reads back (R320, R321; the places of the standard
capabilities are the model's, PRESUMED, log 12) and interrupt sources, routes and delivery (R336). -/
namespace Sys2Proof.Machine

/-- The key of a function: 9 × port + VF. -/
def fnKey (port vf : Nat) : Nat := 9 * port + vf
def State.fn (s : State) (port vf : Nat) : FnState := sgetD s.host.fns (fnKey port vf) {}
def State.setFn (s : State) (port vf : Nat) (x : FnState) : State :=
  { s with host := { s.host with fns := sput s.host.fns (fnKey port vf) x {} } }
def State.modFn (s : State) (port vf : Nat) (f : FnState → FnState) : State := s.setFn port vf (f (s.fn port vf))
/-- Offsets of the capabilities the node acts on (PRESUMED, log 12). -/
def capPm : Nat := 0x40
def capMsix : Nat := 0x50
def capExp : Nat := 0x70
def capSriov : Nat := 0x100
def capAts : Nat := 0x140
def capPri : Nat := 0x150
def capPasid : Nat := 0x160
def capRebar : Nat := 0x180
def capVfRebar : Nat := 0x190
def capAer : Nat := 0x1C0

/-- What a configuration word holds after reset: Max_Read_Request_Size 512, and AER's severity and correctable
mask; all others zero (PRESUMED, log 12). -/
def cfgReset (i : Nat) : W32 :=
  if i = capExp / 4 + 2 then 0x2000 else if i = capAer / 4 + 3 then 0x00462030 else if i = capAer / 4 + 5 then 0x2000 else 0
/-- A word of configuration space as the host last wrote it; word index = offset / 4. -/
def FnState.word (x : FnState) (i : Nat) : Nat := (sgetD x.cfg i (cfgReset i)).toNat
/-- The function is in D3hot (R319). -/
def FnState.d3 (x : FnState) : Bool := x.word (capPm / 4 + 1) % 4 = 3
/-- An entry of the MSI-X table; its vector control, bits 127:96, has Mask 1 after reset. -/
def msixReset : BitVec 128 := BitVec.ofNat 128 (2 ^ 96)
def FnState.msixEntry (x : FnState) (v : Nat) : Nat := (sgetD x.msix v msixReset).toNat

/-- Bus Master Enable, MSI-X Enable, Function Mask, ATS Enable, PRI Enable; VF Enable and NumVFs of a
port's PF. -/
def FnState.busMaster (x : FnState) : Bool := (x.word 1).testBit 2
def FnState.msixOn (x : FnState) : Bool := (x.word (capMsix / 4)).testBit 31 && !(x.word (capMsix / 4)).testBit 30
def FnState.atsOn (x : FnState) : Bool := (x.word (capAts / 4 + 1)).testBit 31
def FnState.priOn (x : FnState) : Bool := (x.word (capPri / 4 + 1)).testBit 0
def FnState.priAllocation (x : FnState) : Nat := x.word (capPri / 4 + 3)
def State.vfEnabled (s : State) (port v : Nat) : Bool :=
  ((s.fn port 0).word (capSriov / 4 + 2)).testBit 0 && decide (v ≤ field ((s.fn port 0).word (capSriov / 4 + 4)) 0 16)

/-- The VF number of a partition's function on its port: its VF while enabled, else the PF (R321). -/
def State.partVf (s : State) (p : Nat) : Nat := if s.vfEnabled (s.partPort p) (p + 1) then p + 1 else 0
def State.partFn (s : State) (p : Nat) : FnState := s.fn (s.partPort p) (s.partVf p)

/-- Whether a function serves a partition: the PF serves every partition of its port, VF v serves
partition v − 1 (R321). -/
def State.fnServes (s : State) (fn : Fn) (p : Nat) : Bool :=
  s.partPort p = fn.port.val && p < s.parts && (fn.vf.val = 0 || fn.vf.val = p + 1)

/-- Whether a port's link is up. -/
def State.linkUp (s : State) (port : Nat) : Bool := (sgetD s.host.ports port {}).link = 2
/-- Whether the node sends to a port: its link is up, and no reset of it is being announced (R433). -/
def State.portOpen (s : State) (port : Nat) : Bool :=
  s.linkUp port && !(s.flushes.any fun b => match b with
    | .pcie p => p.val = port
    | _ => false)
/-- Whether a port runs as a root port (R319). -/
def State.rootRole (s : State) (p : Nat) : Bool := inForce s 0x6001 (p + 1) = 1
/-- Whether a function exists: the PF of an endpoint, a VF its host has enabled, or HB0's PF under the recovery
loader; a root port has none (R340). -/
def State.fnPresent (s : State) (fn : Fn) : Bool :=
  if s.boot.stage = 0x80 then fn.port.val = 0 && fn.vf.val = 0
  else !s.rootRole fn.port.val && (fn.vf.val = 0 || s.vfEnabled fn.port.val fn.vf.val)
/-- Whether its memory BARs answer: it exists and is in D0 (R319). -/
def State.fnLive (s : State) (fn : Fn) : Bool := s.fnPresent fn && !(s.fn fn.port.val fn.vf.val).d3

/-! ### Interrupts (R336) -/

/-- The partition of an interrupt source. INTSEND's sources are divided like the shared tables, in
equal contiguous shares (DEDUCED, log 11); a schedule slot's is that of the group its schedule runs for. -/
def State.sourcePart (s : State) (n : Nat) : Nat :=
  if n < 512 then n / 64
  else if n < 528 then (n - 512) % 8
  else if n < 560 then
    let sl := sgetD s.net.sched (n - 528) {}
    field (sgetD s.net.groups sl.group 0).toNat 8 3
  else (n - 768) / (256 / s.parts)

/-- Send the MSI-X message of a pending source whose route asks for it (R336). Masked, disabled or
unreachable functions leave it pending. -/
def State.deliver (s : State) (n : Nat) : State :=
  let r := (sgetD s.host.routes n 0).toNat
  let p := s.sourcePart n
  let port := s.partPort p
  let vf := s.partVf p
  let v := field r 16 6
  let f := s.fn port vf
  if (sgetD s.host.irqPending n false) && r.testBit 63 && r.testBit 62 && f.busMaster && f.msixOn && !f.d3
      && !(f.msixEntry v).testBit 96 && s.portOpen port then
    { s with host := { s.host with irqPending := sdel n s.host.irqPending } }.send (.msix port vf v)
  else s

/-- An event sets its source's pending bit (R336). -/
def State.raise (s : State) (n : Nat) : State :=
  { s with host := { s.host with irqPending := sset n true s.host.irqPending } }.deliver n

/-- Deliver whatever has become deliverable. -/
def State.deliverAll (s : State) : State := (s.host.irqPending.map Prod.fst).foldl (fun s n => s.deliver n) s

/-- Whether a pending source is asserted at a hart as its machine or its supervisor external interrupt (MMODE):
enabled, routed to it, and the hart belongs to the source's partition (R336). -/
def State.assertsAs (s : State) (machine : Bool) (hart n : Nat) : Bool :=
  let r := (sgetD s.host.routes n 0).toNat
  sgetD s.host.irqPending n false && r.testBit 63 && !r.testBit 62 && r.testBit 61 = machine && field r 0 8 = hart
    && s.hartPart hart = s.sourcePart n
def State.assertsHart (s : State) (hart n : Nat) : Bool := s.assertsAs false hart n || s.assertsAs true hart n

/-- A hart's external interrupt of a mode is asserted while any source asserts it (R336). -/
def State.externalIrq (s : State) (machine : Bool) (hart : Nat) : Bool :=
  (s.host.irqPending.map Prod.fst).any fun n => s.assertsAs machine hart n

/-- The Pending Bit Array of a function: vectors with a source that waits for them. -/
def State.msixPending (s : State) (fn : Fn) : Nat :=
  maskOf ((s.host.irqPending.filter fun e =>
    let r := (sgetD s.host.routes e.1 0).toNat
    let p := s.sourcePart e.1
    e.2 && r.testBit 63 && r.testBit 62 && s.partPort p = fn.port.val && s.partVf p = fn.vf.val).map fun e =>
      field (sgetD s.host.routes e.1 0).toNat 16 6).eraseDups

end Sys2Proof.Machine
end

