-- ==== Sys2Proof/Machine/Arrays.lean ====
section
/-! DEFINITION. Errors in the node's on-die arrays and how an access meets them (R365, R367). -/
namespace Sys2Proof.Machine

/-- The array code of events 0040h and 0041h (R380). -/
def ArrayKind.code : ArrayKind → Nat
  | .l1 => 1 | .cache => 2 | .tag => 3 | .writeBuffer => 4 | .scratchpad => 5 | .registers => 6 | .accumulators => 7
  | .staging => 8 | .replay => 9

/-- The die an array lies in and LOCATION of its events: the linear cluster, the half, or the die. -/
def ArrayUpset.site (u : ArrayUpset) : Nat × Nat :=
  match u.kind with
  | .l1 | .writeBuffer | .scratchpad | .accumulators => (clusterDie u.place, u.place)
  | .registers => (clusterDie (gcluster u.place), gcluster u.place)
  | .cache | .tag => (agentDie u.place, if u.place < 8 then u.place else agentDie u.place)
  | .staging => (6 + u.place, 6 + u.place)
  | .replay => (u.place, u.place)

/-- The event of an array error (R365, R380). -/
def State.arrayEvent (s : State) (cls code : Nat) (u : ArrayUpset) : State :=
  s.event { cls := cls, code := code, die := u.site.1, location := u.site.2, data := u.kind.code }

/-- An access meets the errors of an array's entries: single-bit errors are corrected, except under parity, and
the others are handed on with their event's class, which the array's row of R365 gives. None of them stays. -/
def State.meetArrays (s : State) (kind : ArrayKind) (place cls : Nat) (p : Nat → Bool) : State × List ArrayUpset :=
  let hit := fun (u : ArrayUpset) => u.kind = kind && u.place = place && p u.entry
  let lost := fun (u : ArrayUpset) => u.fatal || kind = .l1
  let met := s.mem.arrays.filter hit
  if met.isEmpty then (s, [])
  else
    let s := { s with mem := { s.mem with arrays := s.mem.arrays.filter fun u => !hit u } }
    (met.foldl (fun s u => if lost u then s.arrayEvent cls 0x41 u else s.arrayEvent 1 0x40 u) s, met.filter lost)

end Sys2Proof.Machine
end

