-- ==== Sys2Proof/Machine/Ecc.lean ====
section
/-! DEFINITION. Stacks and pseudo-channels, retirement into spare slots (R193 to R196, R364, R368), and what
reading a sector with symbols in error does (R183, R363). -/
namespace Sys2Proof.Machine

def State.stack (s : State) (st : Nat) : Stack := sgetD s.mem.hbmStacks st {}
def State.setStack (s : State) (st : Nat) (x : Stack) : State := { s with mem := { s.mem with hbmStacks := sput s.mem.hbmStacks st x {} } }
def State.modStack (s : State) (st : Nat) (f : Stack → Stack) : State := s.setStack st (f (s.stack st))
def State.pc (s : State) (p : Nat) : PseudoChannel := sgetD s.mem.pcs p {}
def State.modPc (s : State) (p : Nat) (f : PseudoChannel → PseudoChannel) : State :=
  { s with mem := { s.mem with pcs := sput s.mem.pcs p (f (s.pc p)) {} } }
/-- Write the older node-record copy with the next generation (R404). -/
def State.writeRecord (s : State) : State :=
  let new := fun (g : Nat) => some (g, s.mem.slots, s.mem.lifeFailures, s.mem.lifeHours)
  let gen := fun (r : Option (Nat × Sparse SpareSlot × Nat × Nat)) => (r.map fun x => x.1).getD 0
  let a := s.dict.records.getD 0 none
  let b := s.dict.records.getD 1 none
  let n := (if gen a < gen b then gen b else gen a) + 1
  { s with dict := { s.dict with records := if gen a ≤ gen b then [new n, b] else [a, new n] } }
/-- Change a slot entry, and the node records with it (R404). -/
def State.setSlotEntry (s : State) (sub : Nat) (x : SpareSlot) : State :=
  ({ s with mem := { s.mem with slots := sset sub x s.mem.slots } }).writeRecord

/-- The slot that serves a pseudo-channel byte now: its fill is done or has passed the byte's granule (R195). -/
def State.slotServing (s : State) (k : Nat) : Option Nat :=
  if isTier2 k then none
  else
    let (st, pc, byte) := s.keyPc k
    (s.slotOf pc).bind fun (sub, sl) =>
      let below := match (s.stack st).fill with
        | some (fpc, _, g) => fpc = pc && decide (byte / 256 < g)
        | none => false
      if sl.filled || below then some sub else none

/-- The tier-2 controller that serves a key address and the package it lies in: tier 2's own, or a spare slot's
(R191, R194). -/
def State.servingPackage (s : State) (k : Nat) : Option (Nat × Nat) :=
  if isTier2 k then some (tier2Hub k, tier2Package (tier2Hub k) (k % 0x10000000000))
  else (s.slotServing k).map fun sub =>
    let (hub, base) := s.slotBase sub
    (hub, tier2Package hub (base + (s.keyPc k).2.2))

/-! ### Retirement and spare slots (R194, R196, R364, R368) -/

/-- Retire without data recovery, with the event's cause (R196). -/
def State.losePc (s : State) (p cause : Nat) : State :=
  (s.modPc p fun x => { x with retired := true, lost := true }).event
    { cls := 3, code := 0x13, die := p / 256, location := p, data := cause }

/-- Slots that redirect pseudo-channels of a home half. -/
def State.redirects (s : State) (half : Nat) : Nat := (s.mem.slots.filter fun e => e.2.pc / 128 = half).length

/-- The lowest free slot for a stack's pseudo-channel: its near hub's first; a hub with a failed package
assigns none (R194, R369). -/
def State.freeSlotFor (s : State) (st : Nat) : Option Nat :=
  let n := s.slotCount
  let subs : Nat → List Nat := fun h =>
    if s.mem.failedPkgs.any (fun p => p / 12 = h) then []
    else (List.range n).map fun i => i + (if h = 1 then 0x41 else 1)
  let order := if st < 8 then subs 0 ++ subs 1 else subs 1 ++ subs 0
  order.find? fun sub => (sget? sub s.mem.slots).isNone

/-- Retire a pseudo-channel now: the slot and the fill of R194 and R195, or no recovery. -/
def State.retireNow (s : State) (p cause : Nat) : State :=
  let st := p / 64
  let s := (s.modPc p fun x => { x with retired := true }).event { cls := 4, code := 0x10, die := p / 256, location := p, data := cause }
  if s.redirects (st / 2) ≥ 16 then s.losePc p 4
  else match s.freeSlotFor st with
    | none => s.losePc p 1
    | some sub =>
      let s := (s.setSlotEntry sub { pc := p }).modStack st fun x => { x with fill := some (p, sub, 0) }
      s.event { cls := 6, code := 0x11, die := p / 256, location := p, data := sub }

/-- A pseudo-channel reaches a threshold (R364): one fill runs per stack, so its retirement may wait; a
hard failure meanwhile loses it (R368). -/
def State.retire (s : State) (p cause : Nat) : State :=
  let st := p / 64
  let x := s.stack st
  match x.fill with
  | none => if (s.pc p).retired then s else s.retireNow p cause
  | some (q, _, _) =>
    if q = p then (if cause = 4 then s.modPc p fun x => { x with failedHard := true } else s)
    else if (s.pc p).retired then s
    else if cause = 4 then
      let s := s.modStack st fun x => { x with fillWaiting := x.fillWaiting.filter fun e => e.1 ≠ p }
      ((s.modPc p fun x => { x with retired := true }).event { cls := 4, code := 0x10, die := p / 256, location := p, data := 4 }).losePc p 2
    else if x.fillWaiting.any (fun e => e.1 = p) then s
    else s.modStack st fun x => { x with fillWaiting := x.fillWaiting ++ [(p, cause)] }

/-! ### Sector errors (R183, R363, R364) -/

/-- A sector was corrected and rewritten: counts, the event, and the repeat-sector threshold; a sector in a spare
slot belongs to its tier-2 controller (R194). The windows of R364 are not timed (DESIGN CHOICE, log 31). -/
def State.sectorCorrected (s : State) (k : Nat) : State :=
  match s.servingPackage k with
  | some (hub, pkg) => (s.count 0x4014 1 1).event { cls := 1, code := 1, die := 6 + hub, addr := k, location := 1024 + pkg }
  | none =>
    let (st, p, _) := s.keyPc k
    let s := (s.count 0x4012 (st + 1) 1).event { cls := 1, code := 1, die := p / 256, addr := k, location := p }
    let x := s.pc p
    let sec := k / 32
    if x.correctedSectors.contains sec then
      (if x.repeatSectors.contains sec then s
       else
         let s := s.modPc p fun y => { y with repeatSectors := sec :: y.repeatSectors }
         if x.repeatSectors.length + 1 ≥ 64 then s.retire p 1 else s)
    else s.modPc p fun y => { y with correctedSectors := sec :: y.correctedSectors }

/-- Count an uncorrectable or poisoned sector. -/
def State.countLost (s : State) (k : Nat) : State :=
  match s.servingPackage k with
  | some _ => s.count 0x4014 2 1
  | none => s.count 0x4013 ((s.keyPc k).1 + 1) 1

/-- A sector was found uncorrectable: it is poisoned, counted and recorded; rows count to R364. -/
def State.sectorLost (s : State) (k row : Nat) : State :=
  let s := (s.dramPoison k).countLost k
  match s.servingPackage k with
  | some (hub, pkg) => s.event { cls := 3, code := 2, die := 6 + hub, addr := k, location := 1024 + pkg }
  | none =>
    let (_, p, _) := s.keyPc k
    let s := s.event { cls := 3, code := 2, die := p / 256, addr := k, location := p }
    let x := s.pc p
    if x.uncorrectableRows.contains row then s
    else
      let s := s.modPc p fun y => { y with uncorrectableRows := row :: y.uncorrectableRows }
      if x.uncorrectableRows.length + 1 ≥ 4 then s.retire p 2 else s

/-- Four free words as one sector's data. -/
def State.freeSector (s : State) : State × Nat :=
  let w := fun i => (Config.freeWord (s.free + i)).toNat
  ({ s with free := s.free + 4 }, w 0 ||| w 1 <<< 64 ||| w 2 <<< 128 ||| w 3 <<< 192)

/-- The errors of a sector's stored word. -/
def State.setUpset (s : State) (k n row : Nat) : State :=
  { s with mem := { s.mem with upsets := sput s.mem.upsets (k / 32) (n, row) (0, 0) } }

/-- A read of a sector meets the errors of its stored word (R183): up to 2 symbols (mode 1: 1) are corrected and
written back, up to 2 (mode 1: 3) beyond nothing else; more are detected unless the word lies near another
codeword, which their number does not tell: whether it does, and the data it then reads as, are free values. -/
def State.meetUpset (s : State) (k : Nat) : State :=
  let (n, row) := sgetD s.mem.upsets (k / 32) (0, 0)
  let fix := if s.mem.eccMode = 0 then 2 else 1
  let sure := if s.mem.eccMode = 0 then 2 else 3
  if n = 0 ∨ s.lossAt k ≠ .none then s
  else
    let s := s.setUpset k 0 0
    if s.marked k then s
    else if n ≤ fix then s.sectorCorrected k
    else if n ≤ sure then s.sectorLost k row
    else
      let near := s.freeNat % 2 = 1
      let s := s.useFree
      if near then
        let (s, d) := s.freeSector
        (s.dramWrite k (2 ^ 32 - 1) d).sectorCorrected k
      else s.sectorLost k row

/-- Sectors of a line are read from the stack or package. -/
def State.readSectors (s : State) (line sectors : Nat) : State :=
  (setBits sectors 4).foldl (fun s i => s.meetUpset (line + 32 * i)) s

end Sys2Proof.Machine
end

