-- ==== Sys2Proof/Machine/Coherence.lean ====
section
/-! DEFINITION. Coherence among dies (R226 to R243): copies, the sparse directory, the steps of a
transaction at its home, its snooped agents and its requester, the same steps run at once, and the
reclamation of a dead agent's lines. Lines are named by key address. -/
namespace Sys2Proof.Machine

/-! ### Copies and the L2 set they occupy (R165 to R170) -/

/-- The set of a line in a half (R165). -/
def l2Set (line : Nat) : Nat := field line 7 15 ^^^ field line 22 15
/-- The set of a line in its home's directory (R231). -/
def dirSet (home line : Nat) : Nat := if home < 8 then l2Set line % 16384 else l2Set line % 8192

/-- The copy of a line an agent holds: cached, or waiting in its write-back buffer (R237). -/
def CohAgent.copy? (a : CohAgent) (line : Nat) : Option Copy :=
  match a.copies.find? (fun c => c.line = line && c.st != .I) with
  | some c => some c
  | none => a.wbBuf.find? fun c => c.line = line
/-- The cached copy, tombstones and remote-node lines included. -/
def CohAgent.cached? (a : CohAgent) (line : Nat) : Option Copy := a.copies.find? fun c => c.line = line
/-- Whether an agent caches a line in a valid state. -/
def CohAgent.holds (a : CohAgent) (line : Nat) : Bool := a.copies.any fun c => c.line = line && c.st != .I
/-- Drop the cached copy of a line. -/
def CohAgent.drop (a : CohAgent) (line : Nat) : CohAgent := { a with copies := a.copies.filter fun c => c.line ≠ line }
/-- Put a copy at the front, most recently used. -/
def CohAgent.front (a : CohAgent) (c : Copy) : CohAgent :=
  { a with copies := c :: a.copies.filter fun x => x.line ≠ c.line }
/-- Replace a copy where it stands. -/
def CohAgent.put (a : CohAgent) (c : Copy) : CohAgent :=
  { a with copies := a.copies.map fun x => if x.line = c.line then c else x }
/-- Put a copy at the end, least recently used. -/
def CohAgent.back (a : CohAgent) (c : Copy) : CohAgent :=
  { a with copies := a.copies.filter (fun x => x.line ≠ c.line) ++ [c] }
/-- The directory entry of a line. -/
def CohAgent.entry? (a : CohAgent) (line : Nat) : Option DirEntry := a.dir.find? fun e => e.line = line
/-- Store a directory entry as the most recently used one, or drop it when no agent outside holds the
line (R231). -/
def CohAgent.setEntry (a : CohAgent) (e : DirEntry) : CohAgent :=
  let rest := a.dir.filter fun x => x.line ≠ e.line
  { a with dir := if e.sharers = 0 && e.resp.isNone then rest else e :: rest }

/-- The order of line states from weakest to strongest. -/
def Coh.rank : Coh → Nat
  | .I => 0 | .S => 1 | .F => 2 | .E => 3 | .O => 4 | .M => 5
/-- The code of a line state (R228). -/
def Coh.code : Coh → Nat
  | .I => 0 | .S => 1 | .F => 2 | .E => 3 | .M => 4 | .O => 5

/-- A line's transaction in progress (R234). -/
def State.txn? (s : State) (line : Nat) : Option Txn := s.txns.find? fun t => t.line = line
def State.setTxn (s : State) (t : Txn) : State :=
  { s with txns := t :: s.txns.filter fun x => x.line ≠ t.line }
def State.dropTxn (s : State) (line : Nat) : State := { s with txns := s.txns.filter fun x => x.line ≠ line }

/-- Add an agent to a sharer mask, and take one out. -/
def withBit (m : BitVec 13) (a : Nat) : BitVec 13 := m ||| BitVec.ofNat 13 (1 <<< a)
def withoutBit (m : BitVec 13) (a : Nat) : BitVec 13 := m &&& ~~~ BitVec.ofNat 13 (1 <<< a)

/-! ### The home (R234, R236) -/

/-- The snoops a request makes the home send: agent and SNP code (R233, R236). The requester is snooped
like any other responder where it no longer caches the line (`held` false): the home still records it, and
its write-back buffer answers (R237). -/
def snoopsFor (t : Txn) (e : Option DirEntry) (held : Bool) : List (Nat × Nat) :=
  match e with
  | none => []
  | some d =>
    let all := (setBits d.sharers.toNat 13).filter fun x => d.resp ≠ some x
    let others := all.filter fun x => x ≠ t.agent
    let resp := match d.resp with
      | some r => if r = t.agent && held then [] else [r]
      | none => []
    match t.req with
    | .rds => resp.map fun r => (r, 1)
    | .rdu => resp.map (fun r => (r, 2)) ++ others.map fun r => (r, 3)
    | .wrn | .addop => d.resp.toList.map (fun r => (r, 2)) ++ all.map fun r => (r, 3)
    | .upg =>
      if d.resp = some t.agent ∨ d.sharers.toNat.testBit t.agent ∨ t.mask = 0 then
        resp.map (fun r => (r, if d.st = .O then 2 else 3)) ++ others.map fun r => (r, 3)
      else resp.map (fun r => (r, 2)) ++ others.map fun r => (r, 3)
    | .backInval => resp.map (fun r => (r, 2)) ++ others.map fun r => (r, 3)
    | .wbk | .evc => []
    | .rdn => resp.map fun r => (r, 5)
    | .dead => d.resp.toList.map (fun r => (r, 4)) ++ all.map fun r => (r, 4)

/-- The RETRYs a home has given for a line. -/
def CohAgent.retriesFor (h : CohAgent) (line : Nat) : Nat :=
  h.retries.foldl (fun n e => if e.1.line = line then n + e.2 else n) 0

/-- The agent for which the line's next turn is reserved after 64 RETRYs, with at most 16 lines
escalated at a time (R382). -/
def CohAgent.reserved (h : CohAgent) (line : Nat) : Option Nat :=
  let lines := (h.retries.map fun e => e.1.line).eraseDups.filter fun l => h.retriesFor l ≥ 64
  if (lines.take 16).contains line then (h.retries.find? fun e => e.1.line = line).map fun e => e.1.agent else none

/-- Answer a request with RETRY (R234, R382). -/
def State.giveRetry (s : State) (home : Nat) (t : Txn) : State :=
  let h := s.agent home
  let known := h.retries.any fun e => e.1.line = t.line && e.1.agent = t.agent
  let r := if known then h.retries.map (fun e => if e.1.line = t.line ∧ e.1.agent = t.agent then (t, e.2 + 1) else e)
           else h.retries ++ [(t, 1)]
  (s.setAgent home { h with retries := r }).count 0x7101 4 1

/-- The lines whose next turn is reserved for a requester turned away 64 times (R382). -/
def CohAgent.escalated (h : CohAgent) : List Nat :=
  ((h.retries.map fun e => e.1.line).eraseDups.filter fun l => h.retriesFor l ≥ 64).take 16

/-- Whether the home has a data buffer for a request: it keeps one for each escalated line, and serves a
request when nothing else is in progress (R238, R382; their number is the implementation's, log 146). -/
def State.bufferFree (s : State) (home line agent : Nat) : Bool :=
  let h := s.agent home
  let kept := (h.escalated.filter fun l => !(l = line && h.reserved l = some agent)).length
  match (s.txns.filter fun t => s.home t.line = home).length with
  | 0 => true
  | n + 1 => decide (n + 1 + kept < Config.homeBuffers home)

/-- Whether the home accepts a request now: the line is not busy, its turn is not another's, and a data
buffer is free (R234, R238, R382). -/
def State.canAccept (s : State) (home line agent : Nat) : Bool :=
  (s.txn? line).isNone && s.bufferFree home line agent &&
    (match (s.agent home).reserved line with
     | some b => b = agent
     | none => true)

/-- Whether a request makes a caching agent outside the home hold the line, which takes an entry (R231). -/
def needsEntry (home : Nat) (req : CohReq) (agent : Nat) : Bool :=
  agent ≠ home && (req = .rds || req = .rdu || req = .upg)

/-- The lines that have, or once their transaction ends will have, an entry in a line's directory set. -/
def State.dirLines (s : State) (home line : Nat) : List Nat :=
  (((s.agent home).dir.map fun e => e.line)
    ++ ((s.txns.filter fun t => s.home t.line = home && needsEntry home t.req t.agent).map fun t => t.line)).eraseDups.filter
    fun l => dirSet home l = dirSet home line

/-- Whether a new entry for a line finds its set of 16 ways full. -/
def State.dirFull (s : State) (home line : Nat) : Bool :=
  let l := s.dirLines home line
  !l.contains line && decide (16 ≤ l.length)

/-- A full directory set's victim: its least recently used entry without a transaction (R232). -/
def State.dirVictim (s : State) (home line : Nat) : Option DirEntry :=
  if !s.dirFull home line then none
  else (((s.agent home).dir.filter fun e => dirSet home e.line = dirSet home line).reverse.find? fun e => (s.txn? e.line).isNone)

/-- Whether the home serves a request now: it accepts it, and a new entry finds room or a victim; else it
answers RETRY. -/
def State.serves (s : State) (home : Nat) (req : CohReq) (agent line : Nat) : Bool :=
  s.canAccept home line agent && (!needsEntry home req agent || !s.dirFull home line || (s.dirVictim home line).isSome)

/-- Accept a request: mark the line busy and name its snoops (R234). An upgrade by an agent that the home
no longer records, the home half's own copy standing for itself (R230), names all sectors (R236). -/
def State.acceptTxn (s : State) (home : Nat) (t : Txn) : State :=
  let h := s.agent home
  let s := s.setAgent home { h with retries := h.retries.filter fun e => !(e.1.line = t.line && e.1.agent = t.agent) }
  let cached := (s.agent t.agent).holds t.line
  let recorded : Bool := match h.entry? t.line with
    | some d => d.resp = some t.agent || d.sharers.toNat.testBit t.agent || (t.agent = home && cached)
    | none => t.agent = home && cached
  let t : Txn := { t with mask := if t.req = .upg then (if recorded then 0 else 15) else t.mask }
  s.setTxn { t with snoops := snoopsFor t (h.entry? t.line) cached }

/-! ### The snooped agent (R228, R229, R235, R237) -/

/-- A copy's state after a snoop. A copy answered from the write-back buffer becomes I (R237). -/
def afterSnoop (code : Nat) (inBuf : Bool) (st : Coh) : Coh :=
  if inBuf ∧ code ≠ 5 then .I
  else match code with
    | 1 => match st with
      | .M | .O => .O
      | .I => .I
      | _ => .S
    | 5 => st
    | _ => .I

/-- LR reservations of a processor die's harts on a line end when its L3 complex loses the line (R338). -/
def State.breakReservations (s : State) (agent line : Nat) : State :=
  if agent = 8 ∨ agent = 9 then
    let f := fun (e : Nat × Hart) =>
      if 8 + e.1 / 96 = agent ∧ e.2.reservation = some line then (e.1, { e.2 with reservation := none }) else e
    { s with host := { s.host with harts := s.host.harts.map f } }
  else s

/-- An agent performs the snoop the home sent it: its copy changes state, the sectors asked for and
its dirty sectors go out as DATA, and an SRSP is on its way (R233, R235). -/
def State.performSnoop (s : State) (agent line : Nat) : State :=
  match s.txn? line with
  | none => s
  | some t =>
    match t.snoops.find? (fun e => e.1 = agent) with
    | none => s
    | some (_, code) =>
      let a := s.agent agent
      let rest := t.snoops.filter fun e => e.1 ≠ agent
      match a.copy? line with
      | none => s.setTxn { t with snoops := rest, responses := (agent, .I, 0, 0) :: t.responses }
      | some c =>
        let inBuf := !(a.copies.any fun x => x.line = line && x.st != .I)
        let supply := code = 1 ∨ code = 2 ∨ code = 5
        let sect : BitVec 4 := if supply then (c.valid &&& t.mask) ||| c.dirty else 0
        let dirty : BitVec 4 := if code = 2 ∨ (code = 1 ∧ inBuf = true) then c.dirty else 0
        let st := afterSnoop code inBuf c.st
        let a' := if inBuf then (if code = 5 then a else { a with wbBuf := a.wbBuf.filter fun x => x.line ≠ line })
                  else if st = .I then a.drop line
                  else a.put { c with st := st }
        let s := (if st = .I then s.breakReservations agent line else s).setAgent agent a'
        let s := if sect ≠ 0 then s.count 0x7101 2 1 else s
        s.setTxn { t with
          snoops := rest
          responses := (agent, st, sect, dirty) :: t.responses
          dataSect := t.dataSect ||| sect
          dirtySect := t.dirtySect ||| dirty
          poisonSect := t.poisonSect ||| (c.poison &&& sect)
          data := BitVec.ofNat 1024 (mergeSectors sect.toNat t.data.toNat c.data.toNat) }

/-- The home receives an agent's SRSP and brings its entry up to date: a downgraded owner stays
responder, a downgraded clean responder becomes a sharer, an invalidated one leaves (R236). -/
def State.takeResponse (s : State) (home agent line : Nat) : State :=
  match s.txn? line with
  | none => s
  | some t =>
    match t.responses.find? (fun e => e.1 = agent) with
    | none => s
    | some (_, st, _, _) =>
      let h := s.agent home
      let h' := match h.entry? line with
        | none => h
        | some e =>
          if st = .I then h.setEntry { e with
              resp := if e.resp = some agent then none else e.resp
              sharers := withoutBit e.sharers agent
              st := if e.resp = some agent then .S else e.st }
          else if st = .S then h.setEntry { e with resp := if e.resp = some agent then none else e.resp, st := .S }
          else h.setEntry { e with resp := some agent, st := st }
      (s.setAgent home h').setTxn { t with responses := t.responses.filter (fun e => e.1 ≠ agent) }

/-! ### Lines of dead agents (R240) -/

/-- Write all four sectors of a line poisoned and drop the home half's copy. -/
def State.poisonLine (s : State) (home dead line : Nat) : State :=
  let s := (List.range 4).foldl (fun s i => s.dramPoison (line + 32 * i)) (s.modAgent home fun x =>
    { x.drop line with
      dir := x.dir.filter fun d => d.line ≠ line
      reclaim := x.reclaim.map fun r => if r.1 = dead then (r.1, r.2 + 1) else r })
  (s.event { cls := 3, code := 2, die := agentDie home, addr := line, location := (s.keyPc line).2.1 }).count 0x7101 6 1

/-- Take the clean copy of a dead owner's line from an agent and write it to memory: another agent's goes
from it (SNPU), the home half's own stays, clean (R230, R240). -/
def State.recoverLine (s : State) (home a : Nat) (e : DirEntry) : State :=
  let s := match (s.agent a).copy? e.line with
    | some c => s.dramWriteLine e.line c.valid.toNat c.poison.toNat c.data.toNat
    | none => s
  let s := if a = home then s else (s.breakReservations a e.line).modAgent a fun x =>
    { x.drop e.line with wbBuf := x.wbBuf.filter fun c => c.line ≠ e.line }
  (s.modAgent home fun x => x.setEntry { e with sharers := withoutBit e.sharers a, resp := none, st := .S }).count 0x7101 7 1

/-- Reclaim one line whose entry names a dead agent (R240). Of several agents that still hold a dead
owner's line in S, the one with the lowest ID gives its copy, the home half counting as one (R230). -/
def State.reclaimLine (s : State) (home dead : Nat) (e : DirEntry) : State :=
  if !(e.resp = some dead || e.sharers.toNat.testBit dead) then s
  else
    let s := s.count 0x7101 5 1
    let left := { e with sharers := withoutBit e.sharers dead }
    let others := setBits left.sharers.toNat 13
    if e.resp ≠ some dead then s.modAgent home fun h => h.setEntry left
    else match e.st with
      | .F => s.modAgent home fun h => h.setEntry { left with resp := none, st := .S }
      | .O => (match (List.range 13).find? (fun a => (a = home || others.contains a) && (s.agent a).holds e.line) with
        | some a => s.recoverLine home a left
        | none => (others.foldl (fun (s : State) a => (s.breakReservations a e.line).modAgent a fun x => x.drop e.line) s).poisonLine home dead e.line)
      | _ => (others.foldl (fun (s : State) a => (s.breakReservations a e.line).modAgent a fun x => x.drop e.line) s).poisonLine home dead e.line

/-- A sector of an agent's copy is lost to an uncorrectable error: a dirty one is poisoned in memory, and the copy no
longer holds it (R365). -/
def State.loseSector (s : State) (agent sector : Nat) : State :=
  let line := sector / 4 * 128
  let bit : BitVec 4 := 1#4 <<< (sector % 4)
  match (s.agent agent).cached? line with
  | none => s
  | some c =>
    let s := if c.dirty &&& bit = 0 then s else s.dramPoison (32 * sector)
    s.modAgent agent fun a => a.put { c with valid := c.valid &&& ~~~ bit, dirty := c.dirty &&& ~~~ bit, poison := c.poison &&& ~~~ bit }

/-- Errors in the agents' copies of a line are met, in whichever of them (R365; DESIGN CHOICE, log 162): a dirty sector
in error is POISONED, a clean one RECOVERED. -/
def State.meetCopies (s : State) (line : Nat) : State :=
  if s.mem.arrays.isEmpty then s
  else (List.range 13).foldl (fun s a => (List.range 4).foldl (fun s i =>
    let dirty := (s.agent a).copies.any fun c => c.line = line && c.dirty.getLsbD i
    let (s, hit) := s.meetArrays .cache a (if dirty then 3 else 2) fun x => x = line / 32 + i
    if hit.isEmpty then s else s.loseSector a (line / 32 + i)) s) s

/-- The tag or directory entry of a line at its home is lost: every holder is treated as dead for that line (R240,
R365). -/
def State.loseTag (s : State) (home line : Nat) : State :=
  let holders := (List.range 13).filter fun a => (s.agent a).holds line
  let lost := (s.agent home).dir.any (fun d => d.line = line && d.resp.isSome && d.st != .F) || (s.agent home).copies.any fun c => c.line = line && c.dirty ≠ 0
  let s := holders.foldl (fun (s : State) a => (s.breakReservations a line).modAgent a fun x => x.drop line) s
  if lost then s.poisonLine home home line
  else s.modAgent home fun x => { x with dir := x.dir.filter fun d => d.line ≠ line }

/-- An access to a line meets the errors in the directory and the caches that lie in it (R365). -/
def State.meetLine (s : State) (home line : Nat) : State :=
  if s.mem.arrays.isEmpty then s
  else
    let (s, tags) := s.meetArrays .tag home 3 fun a => a = line
    (if tags.isEmpty then s else s.loseTag home line).meetCopies line

/-- A request that reaches a line meets the errors that lie in it (R365), and has it reclaimed at once before the
scan (R240). -/
def State.reclaimNow (s : State) (home line : Nat) : State :=
  let s := s.meetLine home line
  (s.agent home).deadTo.foldl (fun s d =>
    match (s.agent home).entry? line with
    | some e => s.reclaimLine home d e
    | none => s) s

/-! ### Memory at the home, the grant and completion (R234, R236) -/

/-- The sectors of a line that the home half's own copy holds. -/
def State.homeValid (s : State) (home line : Nat) : BitVec 4 :=
  match (s.agent home).copies.find? (fun c => c.line = line && c.st != .I) with
  | some c => c.valid
  | none => 0

/-- Memory as the home sees it: its half's own copy where it holds the sector, the stack or tier 2
otherwise (R236). -/
def State.homeMemory (s : State) (home line : Nat) : Nat × Nat :=
  let (d, p) := s.dramLine line
  match (s.agent home).copies.find? (fun c => c.line = line && c.st != .I) with
  | some c => (mergeSectors c.valid.toNat d c.data.toNat,
      (p &&& (15 ^^^ c.valid.toNat)) ||| (c.poison.toNat &&& c.valid.toNat))
  | none => (d, p)

/-- Write the dirty sectors of the home half's own copy to memory and leave the copy in `st`, or drop
it when `st` is I (R228: no copy stands beside an E or M copy elsewhere; DEDUCED, log 9). -/
def State.cleanHome (s : State) (home line : Nat) (st : Coh) : State :=
  match (s.agent home).copies.find? (fun c => c.line = line && c.st != .I) with
  | none => s
  | some c =>
    let s := s.dramWriteLine line c.dirty.toNat c.poison.toNat c.data.toNat
    s.modAgent home fun h => if st = .I then h.drop line else h.put { c with st := st, dirty := 0 }

/-- The state granted to a requester, from the entry as the responses left it (R236). A requester
that is itself the responder keeps its state. A write-back buffer's dirty answer to a read passes the
dirty sectors on, so its requester takes M, or O beside sharers (DEDUCED, log 9). -/
def grantFor (t : Txn) (e : Option DirEntry) (own : Coh) : Coh :=
  match t.req with
  | .rdu | .upg => .M
  | .rds =>
    match e with
    | none => if t.dirtySect ≠ 0 then .M else if own = .I ∨ own = .S then .E else own
    | some d =>
      let others := withoutBit d.sharers t.agent ≠ 0
      if d.resp = some t.agent then own
      else if d.resp.isSome then .S
      else if t.dirtySect ≠ 0 then (if others then .O else .M)
      else if d.sharers = 0 then .E else .F
  | _ => .I

/-- Whether every snoop of a transaction has been answered at the home. -/
def Txn.answered (t : Txn) : Bool := t.snoops.isEmpty && t.responses.isEmpty

/-- The home sends CMP, and DATA from memory for each requested sector no responder supplied (R234). -/
def State.homeComplete (s : State) (home : Nat) (t : Txn) : State :=
  let e := (s.agent home).entry? t.line
  let own := match (s.agent t.agent).copies.find? (fun c => c.line = t.line && c.st != .I) with
    | some c => c.st
    | none => .I
  let g := grantFor t e own
  let reads := t.req = .rds ∨ t.req = .rdu ∨ t.req = .upg ∨ t.req = .rdn
  let fromMem : BitVec 4 := if reads then t.mask &&& ~~~ t.dataSect else 0
  let s := s.readSectors t.line (fromMem &&& ~~~ s.homeValid home t.line).toNat
  let (d, p) := s.homeMemory home t.line
  let s := if t.agent ≠ home ∧ reads ∧ t.req ≠ .rdn then s.cleanHome home t.line (if g = .E ∨ g = .M ∨ g = .O then .I else .S) else s
  s.setTxn { t with
    grant := g
    cmpSent := true
    cmpGot := true
    dataSect := t.dataSect ||| fromMem
    data := BitVec.ofNat 1024 (mergeSectors fromMem.toNat t.data.toNat d)
    poisonSect := t.poisonSect ||| (BitVec.ofNat 4 p &&& fromMem) }

/-- What the directory records once a read or upgrade has completed (R236). -/
def entryAfter (t : Txn) (home : Nat) (e : Option DirEntry) : DirEntry :=
  let d := e.getD { line := t.line, st := .I, resp := none, sharers := 0 }
  let inside := t.agent = home
  match t.grant with
  | .M => if inside then { d with st := .I, resp := none, sharers := 0 }
          else { d with st := .M, resp := some t.agent, sharers := withBit 0 t.agent }
  | .E => if inside then { d with st := .I, resp := none, sharers := 0 }
          else { d with st := .E, resp := some t.agent, sharers := withBit 0 t.agent }
  | .S => if inside then d else { d with sharers := withBit d.sharers t.agent }
  | g => if inside then { d with st := if d.sharers = 0 then .I else .S, resp := none }
         else { d with st := g, resp := some t.agent, sharers := withBit d.sharers t.agent }

/-- The copy a requester holds after its fill: received sectors over the ones it had, dirty ones kept
dirty where the state allows them (R235, R228). -/
def filledCopy (t : Txn) (old : Option Copy) : Copy :=
  let base : Copy := old.getD { line := t.line, st := .I, valid := 0, dirty := 0, data := 0 }
  let take := t.dataSect &&& ~~~ base.dirty
  let canDirty := t.grant = .M ∨ t.grant = .O
  { base with
    st := t.grant
    valid := base.valid ||| take
    dirty := base.dirty ||| (if canDirty then t.dirtySect &&& take else 0)
    poison := (base.poison &&& ~~~ take) ||| (t.poisonSect &&& take)
    data := BitVec.ofNat 1024 (mergeSectors take.toNat base.data.toNat t.data.toNat)
    tomb := false }

/-- The home ends a transaction at CMPACK: the directory entry is brought up to date and the line is
no longer busy (R234, R236). -/
def State.finishTxn (s : State) (home : Nat) (t : Txn) : State :=
  let s := (s.dropTxn t.line).count 0x7101 1 1
  match t.req with
  | .rds | .rdu | .upg => s.modAgent home fun h => h.setEntry (entryAfter t home (h.entry? t.line))
  | _ => s

/-! ### Eviction and allocation in a half (R167 to R170) -/

/-- Record a clean eviction at the home (R236 EVC). -/
def State.homeEvc (s : State) (home agent line : Nat) : State :=
  s.modAgent home fun h => match h.entry? line with
    | none => h
    | some e => h.setEntry { e with
        resp := if e.resp = some agent then none else e.resp
        sharers := withoutBit e.sharers agent
        st := if e.resp = some agent then .S else e.st }

/-- Write-back data at the home: written to memory, and into the home half's copy, when the sender is
recorded as owner, else discarded (R236 WBK). -/
def State.homeWbk (s : State) (home agent : Nat) (c : Copy) : State :=
  match (s.agent home).entry? c.line with
  | none => s
  | some e =>
    if e.resp = some agent then
      let s := s.dramWriteLine c.line c.dirty.toNat c.poison.toNat c.data.toNat
      let s := s.modAgent home fun h => match h.copies.find? (fun x => x.line = c.line && x.st != .I) with
        | some o => h.put { o with
            data := BitVec.ofNat 1024 (mergeSectors (c.dirty &&& o.valid).toNat o.data.toNat c.data.toNat)
            poison := (o.poison &&& ~~~ c.dirty) ||| (c.poison &&& c.dirty &&& o.valid) }
        | none => h
      s.homeEvc home agent c.line
    else s

/-- Drop an agent's copy with the message its state asks for (R228, R229): dirty sectors of the home's
own lines go to memory, E and F send EVC, M and O send WBK; S, remote-node lines and tombstones leave
silently. A tombstone lost before a read is counted (R176). -/
def State.evict (s : State) (agent : Nat) (c : Copy) : State :=
  let s := s.meetCopies c.line
  let c := ((s.agent agent).cached? c.line).getD c
  let s := (s.breakReservations agent c.line).modAgent agent fun a => a.drop c.line
  if c.tomb then (if c.tombRead then s else s.count 0xA068 7 1)
  else if c.remote then s
  else
    let home := s.home c.line
    if home = agent then s.dramWriteLine c.line c.dirty.toNat c.poison.toNat c.data.toNat
    else match c.st with
      | .E | .F => (s.homeEvc home agent c.line).count 0x7101 1 1
      | .M | .O => (s.homeWbk home agent c).count 0x7101 1 1
      | _ => s

/-- How a line is allocated: hint 0 normal, 1 keep, 2 evict-first (R62); whether into moored ways, and of
which landings (kernel and landing) the accessing cluster is one; whether it is a remote-node line. -/
structure AllocInfo where
  hint : Nat := 0
  moor : Bool := false
  owners : List (Nat × Nat) := []
  remote : Bool := false
  deriving DecidableEq, Repr

/-- The ways of a half that some of the landings have moored. -/
def CohAgent.mooredWays (a : CohAgent) (os : List (Nat × Nat)) : List Nat :=
  (a.moored.filter fun m => os.contains m.2).map fun m => m.1

/-- The copies of a half's set, most recently used first. -/
def CohAgent.setCopies (a : CohAgent) (line : Nat) : List Copy := a.copies.filter fun c => l2Set c.line = l2Set line

/-- Lines an L3 complex holds: 96 MiB of 128-byte lines (R22). -/
def l3Lines : Nat := 786432

/-- Whether a copy may be replaced: its line has no transaction in progress. -/
def State.idle (s : State) (c : Copy) : Bool := (s.txn? c.line).isNone

/-- The ways of a line's set that requesters of this half keep for fills on their way (R238). -/
def State.keptWays (s : State) (agent line : Nat) : List Nat :=
  s.txns.filterMap fun t => if t.agent = agent && l2Set t.line = l2Set line then t.way else none

/-- Make room in an L3 complex: which idle line a full one gives up the spec leaves open (log 147). -/
def State.makeRoomL3 (s : State) (agent : Nat) : Option (State × Nat) :=
  let a := s.agent agent
  let kept := (s.txns.filter fun t => t.agent = agent && t.way.isSome).length
  if a.copies.length + kept < l3Lines then some (s, 0)
  else
    let cand := a.copies.filter s.idle
    (cand[s.freeNat % cand.length]?).map fun c => (s.useFree.evict agent c, 0)

/-- Make room for a line in a half: the way it takes, after evicting the victim (R168, R170, R173).
Lines with a transaction in progress and ways kept for other fills are passed over; none when nothing else is
left. The cap on remote-node lines wins over moorings: the set's least recently used remote-node line gives
way, wherever it lies (DEDUCED, log 141). -/
def State.makeRoom (s : State) (agent line : Nat) (i : AllocInfo) : Option (State × Nat) :=
  if agent ≥ 10 then some (s, 0)
  else if agent ≥ 8 then s.makeRoomL3 agent
  else
    let a := s.agent agent
    let set := a.setCopies line
    let kept := s.keptWays agent line
    let allMoored := a.moored.map Prod.fst
    let own := if i.moor then a.mooredWays i.owners else []
    let ways := (if own ≠ [] then own else (List.range 16).filter fun w => !allMoored.contains w).filter fun w => !kept.contains w
    let cap := setting s 0xA061 9
    let remotes := set.filter fun c => c.remote
    if i.remote ∧ remotes.length ≥ cap then
      (remotes.reverse.head?).map fun c => (s.evict agent c, c.way)
    else match ways.find? (fun w => !(set.any fun c => c.way = w)) with
      | some w => some (s, w)
      | none =>
        let cand := (set.filter fun c => ways.contains c.way && s.idle c).reverse
        let v := if own ≠ [] then cand.head? else
          match cand.find? (fun c => !c.keep) with
          | some c => some c
          | none => cand.head?
        v.map fun c => (s.evict agent c, c.way)

/-- Place a filled copy by its hint (R168): normal and keep as most recently used, evict-first as least
recently used; keep marks at most 12 lines of a set (R169). -/
def State.placeCopy (s : State) (agent : Nat) (c : Copy) (i : AllocInfo) : State :=
  s.modAgent agent fun a =>
    if agent ≥ 8 then a.front c
    else if i.hint = 2 then a.back { c with keep := false }
    else if i.hint = 1 then
      let a := a.front { c with keep := true }
      let marked := (a.setCopies c.line).filter fun x => x.keep
      if marked.length > 12 then
        (match marked.getLast? with
         | some x => a.put { x with keep := false }
         | none => a)
      else a
    else a.front c

/-- Whether a request ends with a copy at its requester. -/
def CohReq.fills : CohReq → Bool
  | .rds | .rdu | .upg => true
  | _ => false

/-- Before it sends a request a requester keeps a way for the fill (R238): the state and the request with
its way; none while nothing can be freed, and the request is not sent. -/
def State.reserveWay (s : State) (t : Txn) (i : AllocInfo) : Option (State × Txn) :=
  if !t.req.fills || (s.agent t.agent).holds t.line then some (s, t)
  else (s.makeRoom t.agent t.line i).map fun (s, w) => (s, { t with way := some w })

/-- Install a requester's fill (R234 step 5) in the way it holds or has kept. -/
def State.installFill (s : State) (t : Txn) (i : AllocInfo) : State :=
  match (s.agent t.agent).copies.find? (fun c => c.line = t.line && c.st != .I) with
  | some c => s.placeCopy t.agent (filledCopy t (some c)) i
  | none => (s.modAgent t.agent fun a => a.drop t.line).placeCopy t.agent { filledCopy t none with way := t.way.getD 0 } i

/-! ### Whole transactions, run at once -/

/-- All snoops of a transaction performed and answered. -/
def State.runSnoops (s : State) (home line : Nat) : State :=
  match s.txn? line with
  | none => s
  | some t => t.snoops.foldl (fun s e => (s.performSnoop e.1 line).takeResponse home e.1 line) s

/-- Dirty sectors of a back-invalidated line come back to the home: into the half's own copy when it
holds one, else to memory (R232). -/
def State.homeTakes (s : State) (home : Nat) (t : Txn) : State :=
  match (s.agent home).copies.find? (fun c => c.line = t.line && c.st != .I) with
  | some c =>
    if t.dataSect = 0 then s
    else s.modAgent home fun h => h.put { c with
      st := .M
      valid := c.valid ||| t.dataSect
      dirty := c.dirty ||| t.dataSect
      poison := (c.poison &&& ~~~ t.dataSect) ||| t.poisonSect
      data := BitVec.ofNat 1024 (mergeSectors t.dataSect.toNat c.data.toNat t.data.toNat) }
  | none => s.dramWriteLine t.line t.dataSect.toNat t.poisonSect.toNat t.data.toNat

/-- Back-invalidate the victim of a full directory set, unless a dead agent's reclamation has freed its
entry (R232, R240). -/
def State.backInvalidate (s : State) (home line : Nat) : State :=
  match s.dirVictim home line with
  | none => s
  | some e =>
    let s := s.reclaimNow home e.line
    if ((s.agent home).entry? e.line).isNone then s
    else
      let t : Txn := { line := e.line, req := .backInval, agent := home, mask := 0, snoops := [], responses := [] }
      let s := (s.acceptTxn home t).runSnoops home e.line
      match s.txn? e.line with
      | none => s
      | some t =>
        (((s.homeTakes home t).dropTxn e.line).modAgent home fun h => { h with dir := h.dir.filter fun x => x.line ≠ e.line }).count 0x7101 3 1

/-- Make a directory way free for a request that needs one. -/
def State.dirRoom (s : State) (home : Nat) (req : CohReq) (agent line : Nat) : State :=
  if needsEntry home req agent then s.backInvalidate home line else s

/-- Run a read or an upgrade at once (R236): none where the home answers RETRY or no way can be kept for the
fill. -/
def State.runRead (s : State) (req : CohReq) (agent line : Nat) (mask : BitVec 4) (i : AllocInfo) :
    Option (State × Txn) :=
  let home := s.home line
  if !s.serves home req agent line then none
  else
    (s.reserveWay { line := line, req := req, agent := agent, mask := mask, snoops := [], responses := [] } i).bind fun (s, t) =>
      let s := ((s.dirRoom home req agent line).acceptTxn home t).runSnoops home line
      match s.txn? line with
      | none => none
      | some t =>
        let s := s.homeComplete home t
        match s.txn? line with
        | none => none
        | some t =>
          let s := s.finishTxn home t
          some (if req = .rdn then s else s.installFill t i, t)

/-- Collected dirty sectors and the home's own go to memory, before a write or an adder operation
reaches it (R188, R236). The home half's copy is dropped. -/
def State.collect (s : State) (home : Nat) (t : Txn) : State :=
  let s := s.cleanHome home t.line .I
  s.dramWriteLine t.line t.dirtySect.toNat t.poisonSect.toNat t.data.toNat

/-- Run WRN up to the merge, or the invalidation ahead of an adder operation: none on RETRY. -/
def State.runInvalidate (s : State) (req : CohReq) (agent line : Nat) : Option State :=
  let home := s.home line
  if !s.canAccept home line agent then none
  else
    let t : Txn := { line := line, req := req, agent := agent, mask := 0, snoops := [], responses := [] }
    let s := (s.acceptTxn home t).runSnoops home line
    match s.txn? line with
    | none => none
    | some t =>
      let s := s.collect home t
      let s := s.modAgent home fun h => { h with dir := h.dir.filter fun x => x.line ≠ line }
      some ((s.dropTxn line).count 0x7101 1 1)

/-- The bytes of a line written to memory under a byte mask (R236 WRN, R184); a sector written in part is read
first. -/
def State.writeLineBytes (s : State) (line mask data : Nat) : State :=
  (List.range 4).foldl (fun s i =>
    let m := field mask (32 * i) 32
    if m = 0 then s
    else (if m = 2 ^ 32 - 1 then s else s.meetUpset (line + 32 * i)).dramWrite (line + 32 * i) m (field data (256 * i) 256)) s

/-- What a home does to its own copy and entry for DEAD: the copy goes without write-back or, with the trap
on, stays as a tombstone (R174, R176, R236). -/
def State.homeDead (s : State) (home line : Nat) : State :=
  s.modAgent home fun h =>
    let h := { h with dir := h.dir.filter fun x => x.line ≠ line }
    match h.copies.find? (fun c => c.line = line && c.st != .I) with
    | some c => if setting s 0xA062 1 = 1 ∧ home < 8 then
        h.put { line := line, st := .I, valid := 0, dirty := 0, data := 0, way := c.way, tomb := true }
      else h.drop line
    | none => h

/-- DEAD at the home (R174, R236): every copy is dropped without write-back. -/
def State.runDead (s : State) (agent line : Nat) : Option State :=
  let home := s.home line
  if !s.canAccept home line agent then none
  else
    let t : Txn := { line := line, req := .dead, agent := agent, mask := 0, snoops := [], responses := [] }
    some ((((s.acceptTxn home t).runSnoops home line).homeDead home line |>.dropTxn line).count 0x7101 1 1)

/-! ### Dead agents (R241, R242) -/

/-- Transactions in progress when an agent dies (R241): a snoop to it counts as answered, its own
requests are discarded, a CMPACK it owes is taken as received. A read whose dirty sectors have already left
for the dead agent counts as granted, so that its line is reclaimed (DEDUCED, log 53). -/
def State.settleTxns (s : State) (home dead : Nat) : State :=
  s.txns.foldl (fun s t =>
    if s.home t.line ≠ home then s
    else if t.agent = dead then
      (if t.cmpSent then s.finishTxn home t
       else if t.req = .wrn ∨ t.req = .addop then (s.collect home t).dropTxn t.line
       else if t.dirtySect ≠ 0 then s.finishTxn home t
       else s.dropTxn t.line)
    else if t.snoops.any (fun e => e.1 = dead) ∨ t.responses.any (fun e => e.1 = dead) then
      let s := match (s.agent home).entry? t.line with
        | some e => s.reclaimLine home dead e
        | none => s
      s.setTxn { t with snoops := t.snoops.filter (fun e => e.1 ≠ dead), responses := t.responses.filter fun e => e.1 ≠ dead }
    else s) s

end Sys2Proof.Machine
end

