-- ==== Sys2Proof/Machine/Numbers.lean ====
section
/-! DEFINITION. Number formats and the arithmetic rules of every engine: values are exact (a sign, an
integer mantissa and a power of two) until one rounding to nearest, ties to even (R81 to R99). -/
namespace Sys2Proof.Machine

/-- A number as the formats hold it: NaN and infinity with their sign, or ± m × 2^e. -/
inductive Num where
  | nan (neg : Bool)
  | inf (neg : Bool)
  | fin (neg : Bool) (m : Nat) (e : Int)
  deriving DecidableEq, Repr

/-- The special encodings of a float format (R84). -/
inductive Specials where
  /-- exponent all ones: infinity when the mantissa is zero, else NaN -/
  | ieee
  /-- no infinity; NaN is all ones below the sign -/
  | nanOnly
  /-- every encoding is finite -/
  | none
  deriving DecidableEq, Repr

/-- A float format: exponent and mantissa widths and bias (R83), special encodings (R84), whether
it is wide (R88), and how many ignored bits lie below it in its container (R82). -/
structure Fmt where
  ebits : Nat
  mbits : Nat
  bias : Nat
  specials : Specials
  wide : Bool
  shift : Nat := 0
  deriving DecidableEq, Repr

def Fmt.fp64 : Fmt := ⟨11, 52, 1023, .ieee, true, 0⟩
def Fmt.fp32 : Fmt := ⟨8, 23, 127, .ieee, true, 0⟩
def Fmt.e8m10 : Fmt := ⟨8, 10, 127, .ieee, true, 13⟩
def Fmt.bf16 : Fmt := ⟨8, 7, 127, .ieee, true, 0⟩
def Fmt.fp16 : Fmt := ⟨5, 10, 15, .ieee, true, 0⟩
def Fmt.e5m2 : Fmt := ⟨5, 2, 15, .ieee, false, 0⟩
def Fmt.e4m3 : Fmt := ⟨4, 3, 7, .nanOnly, false, 0⟩
def Fmt.e3m2 : Fmt := ⟨3, 2, 3, .none, false, 0⟩
def Fmt.e2m3 : Fmt := ⟨2, 3, 1, .none, false, 0⟩
def Fmt.e2m1 : Fmt := ⟨2, 1, 1, .none, false, 0⟩

/-- Any number type a conversion names: a float format, a two's complement or unsigned integer of
a width, or e8m0. -/
inductive NumType where
  | float (f : Fmt)
  | int (signed : Bool) (w : Nat)
  | e8m0
  deriving DecidableEq, Repr

/-- The element formats by code (R81); codes Dh to Fh are reserved. -/
def elemType : Nat → Option NumType
  | 0 => some (.float .fp64) | 1 => some (.float .fp32) | 2 => some (.float .e8m10)
  | 3 => some (.float .bf16) | 4 => some (.float .fp16) | 5 => some (.float .e5m2)
  | 6 => some (.float .e4m3) | 7 => some (.float .e3m2) | 8 => some (.float .e2m3)
  | 9 => some (.float .e2m1) | 10 => some (.int true 8) | 11 => some (.int true 4)
  | 12 => some .e8m0
  | _ => none

/-- Storage bits of an element format (R81, R82): a container, or half a byte. -/
def elemBits : Nat → Nat
  | 0 => 64 | 1 => 32 | 2 => 32 | 3 => 16 | 4 => 16 | 9 => 4 | 11 => 4 | _ => 8

/-- The scalar operand types by TYPE (R61). -/
def scalarType : Nat → Option NumType
  | 0 => some (.int true 32) | 1 => some (.int false 32) | 2 => some (.int true 64)
  | 3 => some (.int false 64) | 4 => some (.float .fp32) | 5 => some (.float .fp64)
  | _ => none

/-! ### Flags (R93) -/

/-- INVALID, OVERFLOW, SUBFLUSH, DIVZERO at bits 0 to 3 (R93). -/
abbrev Flags := BitVec 4
def fInvalid : Flags := 1
def fOverflow : Flags := 2
def fSubflush : Flags := 4
def fDivzero : Flags := 8

/-! ### Float encodings -/

/-- Width of the bits the format occupies. -/
def Fmt.width (f : Fmt) : Nat := 1 + f.ebits + f.mbits
/-- The exponent field of all ones. -/
def Fmt.emaxField (f : Fmt) : Nat := 2 ^ f.ebits - 1
/-- Exponent of the lowest mantissa bit of a subnormal. -/
def Fmt.qmin (f : Fmt) : Int := 1 - (f.bias : Int) - f.mbits
/-- The largest finite encoding without its sign (R84). -/
def Fmt.maxFinite (f : Fmt) : Nat :=
  match f.specials with
  | .ieee => f.emaxField <<< f.mbits - 1
  | .nanOnly => 2 ^ (f.ebits + f.mbits) - 2
  | .none => 2 ^ (f.ebits + f.mbits) - 1
/-- The canonical NaN without its sign; the largest finite value where the format has none (R84, R85,
R88 class C). -/
def Fmt.canonNan (f : Fmt) : Nat :=
  match f.specials with
  | .ieee => f.emaxField <<< f.mbits + 2 ^ (f.mbits - 1)
  | .nanOnly => 2 ^ (f.ebits + f.mbits) - 1
  | .none => f.maxFinite
/-- Put a sign on an encoding and the encoding into its container (R82). -/
def Fmt.pack (f : Fmt) (neg : Bool) (x : Nat) : Nat := (b2n neg <<< (f.ebits + f.mbits) + x) <<< f.shift

/-- The value of a container (R82, R83, R84). -/
def Fmt.decode (f : Fmt) (c : Nat) : Num :=
  let x := field c f.shift f.width
  let neg := x.testBit (f.ebits + f.mbits)
  let ef := field x f.mbits f.ebits
  let m := x % 2 ^ f.mbits
  if f.specials = .ieee ∧ ef = f.emaxField then (if m = 0 then .inf neg else .nan neg)
  else if f.specials = .nanOnly ∧ x % 2 ^ (f.ebits + f.mbits) = 2 ^ (f.ebits + f.mbits) - 1 then .nan neg
  else if ef = 0 then .fin neg m f.qmin
  else .fin neg (m + 2 ^ f.mbits) (f.qmin + (ef : Int) - 1)

/-- Whether a container holds a subnormal value of the format. -/
def Fmt.isSubnormal (f : Fmt) (c : Nat) : Bool :=
  let x := field c f.shift f.width
  field x f.mbits f.ebits = 0 && x % 2 ^ f.mbits ≠ 0

/-- FLUSH acts on fp64, fp32, e8m10, bf16 and fp16 (R92). -/
def Fmt.flushable (f : Fmt) : Bool := f.wide

/-- Read an operand: the value, with FLUSH replacing a subnormal by zero of its sign (R92). -/
def Fmt.read (f : Fmt) (flush : Bool) (c : Nat) : Num × Flags :=
  if flush && f.flushable && f.isSubnormal c then
    (match f.decode c with | .fin neg _ _ => (.fin neg 0 0, fSubflush) | x => (x, 0))
  else (f.decode c, 0)

/-- `m / 2^k` to the nearest integer, ties to even (R86). -/
def rne (m k : Nat) : Nat :=
  let q := m >>> k
  let r := m % 2 ^ k
  let half := 2 ^ k / 2
  if k = 0 then m else if r > half ∨ (r = half ∧ q % 2 = 1) then q + 1 else q

/-- `m × 2^e` rounded to a multiple of `2^q`, as that multiple. -/
def roundAt (m : Nat) (e q : Int) : Nat :=
  if e ≥ q then m <<< (e - q).toNat else rne m (q - e).toNat

/-- Round ± m × 2^e to the format once (R86), with overflow by the class of the destination (R88)
and FLUSH on the result (R92): the container and the flags. -/
def Fmt.round (f : Fmt) (flush : Bool) (neg : Bool) (m : Nat) (e : Int) : Nat × Flags :=
  if m = 0 then (f.pack neg 0, 0)
  else
    let top : Int := (Nat.log2 m : Int) + e
    let emin : Int := 1 - (f.bias : Int)
    let nun := roundAt m e (top - f.mbits)
    let tiny := top < emin ∧ ¬ (top = emin - 1 ∧ nun = 2 ^ (f.mbits + 1))
    if flush ∧ f.flushable = true ∧ tiny then (f.pack neg 0, fSubflush)
    else
      let q : Int := if top < emin then f.qmin else top - f.mbits
      let x := (q - f.qmin).toNat <<< f.mbits + roundAt m e q
      if x > f.maxFinite then
        (if f.wide = true then f.pack neg (f.emaxField <<< f.mbits) else f.pack neg f.maxFinite, fOverflow)
      else (f.pack neg x, 0)

/-- The canonical NaN with a sign (R85); in a format without NaN, the largest finite value and
INVALID (R88). -/
def Fmt.mkNan (f : Fmt) (neg : Bool) : Nat × Flags :=
  (f.pack neg f.canonNan, if f.specials = .none then fInvalid else 0)

/-- The container of a number rounded to the format; `exact` conversions use it too. An infinity
stays one in a wide format; in a narrow one it gives the largest finite value and OVERFLOW, but an
exact source keeps it where the format has infinities (R88). -/
def Fmt.ofNum (f : Fmt) (flush : Bool) (exactSrc : Bool) : Num → Nat × Flags
  | .nan neg => f.mkNan neg
  | .inf neg =>
    if f.specials = .ieee ∧ (f.wide = true ∨ exactSrc = true) then (f.pack neg (f.emaxField <<< f.mbits), 0)
    else (f.pack neg f.maxFinite, fOverflow)
  | .fin neg m e => f.round flush neg m e

/-! ### Arithmetic on values -/

def Num.neg? : Num → Bool
  | .nan n => n | .inf n => n | .fin n _ _ => n
def Num.isNan : Num → Bool
  | .nan _ => true | _ => false
def Num.isInf : Num → Bool
  | .inf _ => true | _ => false
def Num.isZero : Num → Bool
  | .fin _ m _ => m == 0 | _ => false
/-- The number with its sign turned. -/
def Num.negate : Num → Num
  | .nan n => .nan (!n) | .inf n => .inf (!n) | .fin n m e => .fin (!n) m e

/-- The sign of the first NaN in operand order (R85). -/
def firstNan : List Num → Option Bool
  | [] => none
  | .nan n :: _ => some n
  | _ :: r => firstNan r

/-- The integer multiple of `2^e` a finite number is; 0 for others. Used with e at or below its own
exponent. -/
def Num.scaled (e : Int) : Num → Int
  | .fin neg m e' => let v : Int := (m <<< (e' - e).toNat : Nat); if neg then -v else v
  | _ => 0
/-- The exponent of a finite number. -/
def Num.exp : Num → Int
  | .fin _ _ e => e | _ => 0

/-- The exact sum of finite numbers: ± m × 2^e. An exact zero is −0 only when every summand is −0
(IEEE 754 under R87). -/
def exactSum (l : List Num) : Num :=
  let e : Int := l.foldl (fun a x => if x.exp < a then x.exp else a) 0
  let v : Int := l.foldl (fun a x => a + x.scaled e) 0
  if v = 0 then .fin (l.all (fun x => x.neg?) && !l.isEmpty) 0 0 else .fin (decide (v < 0)) v.natAbs e

/-- Sum of several numbers with NaN and infinity rules (R85, R87, R98): the value and INVALID. -/
def sumNum (l : List Num) : Num × Flags :=
  match firstNan l with
  | some n => (.nan n, 0)
  | none =>
    let pos := l.any fun x => x = .inf false
    let ng := l.any fun x => x = .inf true
    if pos && ng then (.nan false, fInvalid)
    else if pos then (.inf false, 0) else if ng then (.inf true, 0)
    else (exactSum l, 0)

/-- The exact product of two numbers; 0 × ∞ is invalid (R87). -/
def mulNum (a b : Num) : Num × Flags :=
  match firstNan [a, b] with
  | some n => (.nan n, 0)
  | none =>
    match a, b with
    | .fin na ma ea, .fin nb mb eb => (.fin (na != nb) (ma * mb) (ea + eb), 0)
    | x, y => if x.isZero || y.isZero then (.nan false, fInvalid) else (.inf (x.neg? != y.neg?), 0)

/-- The exact product of several numbers in operand order. -/
def mulAll : List Num → Num × Flags
  | [] => (.fin false 1 0, 0)
  | [a] => (a, 0)
  | a :: r => let (p, f) := mulAll r; let (q, g) := mulNum a p
              match firstNan (a :: r) with
              | some n => (.nan n, 0)
              | none => (q, f ||| g)

/-- a × b + c with one rounding later (R87): operand order a, b, c. An invalid product with a NaN
addend keeps the operand's NaN and sets no flag from the product (R85 names operands only).
(DEDUCED, log 101.) -/
def fmaNum (a b c : Num) : Num × Flags :=
  match firstNan [a, b, c] with
  | some n => (.nan n, 0)
  | none =>
    let (p, f) := mulNum a b
    if p.isNan then (p, f) else let (s, g) := sumNum [p, c]; (s, f ||| g)

/-- An approximation of `x / y` by 2^k units with a sticky last bit: below the rounding point of
every format when k is large enough. -/
def stickyDiv (x y : Nat) : Nat := 2 * (x / y) + (if x % y = 0 then 0 else 1)

/-- a / b to `bits` significant bits and a sticky bit (R87). -/
def divNum (bits : Nat) (a b : Num) : Num × Flags :=
  match firstNan [a, b] with
  | some n => (.nan n, 0)
  | none =>
    let s := a.neg? != b.neg?
    match a, b with
    | .inf _, .inf _ => (.nan false, fInvalid)
    | .inf _, _ => (.inf s, 0)
    | _, .inf _ => (.fin s 0 0, 0)
    | .fin _ ma ea, .fin _ mb eb =>
      if mb = 0 then (if ma = 0 then (.nan false, fInvalid) else (.inf s, fDivzero))
      else if ma = 0 then (.fin s 0 0, 0)
      else
        let k := bits + Nat.log2 mb + 1
        (.fin s (stickyDiv (ma <<< k) mb) (ea - eb - k - 1), 0)
    | x, _ => (x, 0)

/-- The integer square root, by one result bit at a time from bit `n` down. -/
def isqrtGo : Nat → Nat → Nat → Nat
  | 0, _, r => r
  | n + 1, x, r => let t := r + 2 ^ n; isqrtGo n x (if t * t ≤ x then t else r)
/-- The integer square root of `x`. -/
def isqrt (x : Nat) : Nat := isqrtGo (Nat.log2 x / 2 + 1) x 0

/-- The square root to `bits` significant bits and a sticky bit; below −0 it is invalid (R87). -/
def sqrtNum (bits : Nat) (a : Num) : Num × Flags :=
  match a with
  | .nan n => (.nan n, 0)
  | .inf true => (.nan false, fInvalid)
  | .inf false => (.inf false, 0)
  | .fin neg m e =>
    if m = 0 then (.fin neg 0 0, 0)
    else if neg then (.nan false, fInvalid)
    else
      let k := 2 * bits + (if (e % 2 = 0) then 0 else 1)
      let x := m <<< k
      let r := isqrt x
      (.fin false (2 * r + (if r * r = x then 0 else 1)) ((e - k) / 2 - 1), 0)

/-- a ≤ b and a < b of finite numbers and infinities; −0 equals +0. -/
def cmpNum (a b : Num) : Ordering :=
  match a, b with
  | .inf na, .inf nb => if na = nb then .eq else if na then .lt else .gt
  | .inf na, _ => if na then .lt else .gt
  | _, .inf nb => if nb then .gt else .lt
  | x, y =>
    let e := if x.exp < y.exp then x.exp else y.exp
    compare (x.scaled e) (y.scaled e)

/-- MIN and MAX: NaN if either operand is NaN; −0 below +0 (R87). `max` selects. -/
def minMaxNum (max : Bool) (a b : Num) : Num :=
  match firstNan [a, b] with
  | some n => .nan n
  | none =>
    let aLess := match cmpNum a b with
      | .lt => true
      | .gt => false
      | .eq => a.neg? || !b.neg?
    if aLess != max then a else b

/-! ### Scalar and vector fp32 and fp64 operations -/

/-- Round a result with flags to a float format, keeping a NaN's sign. -/
def Fmt.finish (f : Fmt) (flush : Bool) (r : Num × Flags) : Nat × Flags :=
  let (c, g) := f.ofNum flush true r.1
  (c, r.2 ||| g)

/-- The two-operand and three-operand float operations, with FLUSH on inputs and result. -/
def Fmt.op1 (f : Fmt) (flush : Bool) (o : Num → Num × Flags) (a : Nat) : Nat × Flags :=
  let (x, fx) := f.read flush a
  let (c, g) := f.finish flush (o x)
  (c, fx ||| g)
def Fmt.op2 (f : Fmt) (flush : Bool) (o : Num → Num → Num × Flags) (a b : Nat) : Nat × Flags :=
  let (x, fx) := f.read flush a
  let (y, fy) := f.read flush b
  let (c, g) := f.finish flush (o x y)
  (c, fx ||| fy ||| g)
def Fmt.op3 (f : Fmt) (flush : Bool) (o : Num → Num → Num → Num × Flags) (a b d : Nat) : Nat × Flags :=
  let (x, fx) := f.read flush a
  let (y, fy) := f.read flush b
  let (z, fz) := f.read flush d
  let (c, g) := f.finish flush (o x y z)
  (c, fx ||| fy ||| fz ||| g)

def Fmt.add (f : Fmt) (flush : Bool) : Nat → Nat → Nat × Flags := f.op2 flush fun x y => sumNum [x, y]
/-- a − b: the sign of a NaN operand is kept (R85), so b is negated only when it is a number. -/
def subNum (x y : Num) : Num × Flags :=
  match firstNan [x, y] with
  | some n => (.nan n, 0)
  | none => sumNum [x, y.negate]
def Fmt.sub (f : Fmt) (flush : Bool) : Nat → Nat → Nat × Flags := f.op2 flush subNum
def Fmt.mul (f : Fmt) (flush : Bool) : Nat → Nat → Nat × Flags := f.op2 flush mulNum
def Fmt.fma (f : Fmt) (flush : Bool) : Nat → Nat → Nat → Nat × Flags := f.op3 flush fmaNum
def Fmt.div (f : Fmt) (flush : Bool) : Nat → Nat → Nat × Flags := f.op2 flush (divNum (f.mbits + 4))
def Fmt.sqrt (f : Fmt) (flush : Bool) : Nat → Nat × Flags := f.op1 flush (sqrtNum (f.mbits + 4))
def Fmt.minMax (f : Fmt) (flush max : Bool) : Nat → Nat → Nat × Flags :=
  f.op2 flush fun x y => (minMaxNum max x y, 0)

/-- EQ, NE, LT, LE on floats: a NaN makes EQ, LT and LE false and NE true (R64). -/
def Fmt.compare (f : Fmt) (flush : Bool) (op : Nat) (a b : Nat) : Bool × Flags :=
  let (x, fx) := f.read flush a
  let (y, fy) := f.read flush b
  let nan := x.isNan || y.isNan
  let o := cmpNum x y
  (match op with
   | 1 => !nan && o == .eq
   | 2 => nan || o != .eq
   | 3 => !nan && o == .lt
   | _ => !nan && o != .gt, fx ||| fy)

/-! ### Conversions (R88, R89, R90) -/

/-- The exact float pairs (R88), by format: a destination holds every finite value of a source when
its mantissa and both ends of its exponent range cover the source's. -/
def Fmt.exactFor (dst src : Fmt) : Bool :=
  dst = src ||
  (dst.mbits ≥ src.mbits && decide (dst.qmin ≤ src.qmin) &&
    (match dst.decode (dst.pack false dst.maxFinite), src.decode (src.pack false src.maxFinite) with
     | .fin _ md ed, .fin _ ms es => decide (cmpNum (.fin false ms es) (.fin false md ed) ≠ .gt)
     | _, _ => false))

/-- An integer of a type held in the low bits of `c`. -/
def intValue (signed : Bool) (w c : Nat) : Int := if signed then sext w c else ((c % 2 ^ w : Nat) : Int)
/-- The smallest and largest value of an integer type. -/
def intMin (signed : Bool) (w : Nat) : Int := if signed then -(2 ^ (w - 1) : Nat) else 0
def intMax (signed : Bool) (w : Nat) : Int := if signed then (2 ^ (w - 1) : Nat) - 1 else (2 ^ w : Nat) - 1
/-- An integer brought into range (R88 classes D and E), OVERFLOW when it lay outside. -/
def clampInt (signed : Bool) (w : Nat) (v : Int) : Nat × Flags :=
  if v < intMin signed w then (wrap w (intMin signed w), fOverflow)
  else if v > intMax signed w then (wrap w (intMax signed w), fOverflow)
  else (wrap w v, 0)

/-- Class D (R88). -/
def numToInt (signed : Bool) (w : Nat) : Num → Nat × Flags
  | .nan neg => (wrap w (if neg then intMin signed w else intMax signed w), fInvalid)
  | .inf neg => (wrap w (if neg then intMin signed w else intMax signed w), fOverflow)
  | .fin neg m e => let v : Int := (roundAt m e 0 : Nat); clampInt signed w (if neg then -v else v)

/-- To e8m0 (R89): the significand retained is the integer part, ties to the even one, so 1.5 × 2^e
rounds up. -/
def numToE8m0 : Num → Nat × Flags
  | .nan _ => (0xFF, 0)
  | .inf true => (0xFF, fInvalid)
  | .inf false => (0xFE, fOverflow)
  | .fin neg m e =>
    if m = 0 then (0, 0)
    else if neg then (0xFF, fInvalid)
    else
      let l := Nat.log2 m
      let up := decide (2 * (m - 2 ^ l) ≥ 2 ^ l)
      let p : Int := (l : Int) + e + (if up then 1 else 0)
      if p < -127 then (0, 0) else if p > 127 then (0xFE, fOverflow) else ((p + 127).toNat, 0)

/-- The value of an e8m0 code; FFh is a NaN of sign 0 (R84, R89). -/
def e8m0Value (c : Nat) : Num := if c % 256 = 255 then .nan false else .fin false 1 ((c % 256 : Nat) - 127)

/-- Convert a container of one type to another (R88, R89, R92). -/
def convert (flush : Bool) (src dst : NumType) (c : Nat) : Nat × Flags :=
  match src, dst with
  | .float f, .float g =>
    let (x, fx) := f.read flush c
    let (r, h) := g.ofNum flush (g.exactFor f) x
    (r, fx ||| h)
  | .float f, .int s w => let (x, fx) := f.read flush c; let (r, h) := numToInt s w x; (r, fx ||| h)
  | .float f, .e8m0 => let (x, fx) := f.read flush c; let (r, h) := numToE8m0 x; (r, fx ||| h)
  | .int s w, .float g => let v := intValue s w c; g.round flush (decide (v < 0)) v.natAbs 0
  | .int s w, .int s' w' => clampInt s' w' (intValue s w c)
  | .int s w, .e8m0 => let v := intValue s w c; numToE8m0 (.fin (decide (v < 0)) v.natAbs 0)
  | .e8m0, .float g => g.ofNum flush (g == .fp64 || g == .fp32 || g == .e8m10 || g == .bf16) (e8m0Value c)
  | .e8m0, .int s w => numToInt s w (e8m0Value c)
  | .e8m0, .e8m0 => (c % 256, 0)

/-! ### Accumulator formats (R97) and chunks (R98) -/

/-- K-chunk size by element format code (R98). -/
def chunkSize : Nat → Nat
  | 0 => 4 | 1 => 8 | 2 => 16 | 3 => 16 | 4 => 16 | 9 => 64 | 11 => 64 | _ => 32

/-- Round a chunk's exact sum of products: NaN with the sign of the lowest-k NaN product, INVALID for
infinities of both signs or an infinity times zero even beside a NaN operand (R98). Each product
comes with its own flags. -/
def chunkSum (ps : List (Num × Flags)) : Num × Flags :=
  let opNan := ps.filterMap fun p => match p with
    | (.nan n, f) => if f = 0 then some n else none
    | _ => none
  let izero := ps.any fun p => p.1.isNan && p.2 != 0
  let pos := ps.any fun p => p.1 = .inf false
  let ng := ps.any fun p => p.1 = .inf true
  let inv := izero || (pos && ng)
  match opNan with
  | n :: _ => (.nan n, if inv then fInvalid else 0)
  | [] =>
    if inv then (.nan false, fInvalid)
    else if pos then (.inf false, 0) else if ng then (.inf true, 0)
    else (exactSum (ps.map Prod.fst), 0)

/-- ABS and NEG: the sign of a number changes, a subnormal is flushed under FLUSH like any other operand
(R92), and a NaN gives the canonical NaN with its own sign (R85, R137). R144's 'A with sign 0' and 'sign
inverted' are read beside R85 in the same way (DEDUCED, log 14). -/
def fSign (f : Fmt) (flush neg : Bool) (a : Nat) : Nat × Flags :=
  f.op1 flush (fun x => match x with
    | .nan n => (.nan n, 0)
    | .inf n => (.inf (neg && !n), 0)
    | .fin n m e => (.fin (neg && !n) m e, 0)) a

end Sys2Proof.Machine
end

