-- ==== Sys2Proof/Machine/Memory.lean ====
section
/-! DEFINITION. Accesses to coherent memory: a cluster's through the level-2 cache with hints, stream
detector and tombstones (R165 to R176), a core's through its L3 complex, uncached ones from hubs and
the companion (R236), and the near-memory adders (R186 to R189). Lines are named by key address. -/
namespace Sys2Proof.Machine

/-- What an access to a line returns: its data, the poisoned sectors, and whether it met a tombstone. -/
structure LineRead where
  data : Nat := 0
  poison : Nat := 0
  tomb : Bool := false
  deriving DecidableEq, Repr

/-- The agent that serves a cluster's access to a line (R166): the home half for HBM of its own die,
the cluster's own half otherwise. -/
def State.servingHalf (s : State) (cl line : Nat) : Nat :=
  if !isTier2 line ∧ line / 0x8000000000 = clusterDie cl then s.home line else clusterHalf cl

/-- Whether die `d` reaches the memory of a line (R14, R242). -/
def State.reachesLine (s : State) (d line : Nat) : Bool :=
  let h := s.home line
  let hd := agentDie h
  let owner := if isTier2 line then hd else line / 0x8000000000
  s.dieUp owner && s.reaches d hd

/-- Whether an access of a die to a line is served: its memory is reached, and its stack is not offline (R199). -/
def State.serving (s : State) (d line : Nat) : Bool := s.reachesLine d line && s.lossAt line != .offline

/-! ### The stream detector (R172) -/

/-- Whether the stream detector of a half is in force: in a node of eight partitions. -/
def State.detecting (s : State) : Bool := s.parts = 8

/-- Follow one sector access (sector number, address / 32): the trackers, most recently matched first,
and whether the access lies in a detected stream. -/
def trackSector (ts : List (Option Tracker)) (cl sec : Nat) : List (Option Tracker) × Bool :=
  let hit := fun (t : Option Tracker) => match t with
    | some t => t.cluster = cl && decide (t.next ≤ sec) && decide (sec ≤ t.next + 7)
    | none => false
  match ts.findIdx? hit with
  | some i =>
    (match ts[i]? with
     | some (some t) =>
       let t' := { t with next := sec + 1, count := t.count + (sec - t.next) + 1 }
       (some t' :: ts.eraseIdx i, decide (t'.count ≥ 1024))
     | _ => (ts, false))
  | none =>
    let fresh : Option Tracker := some { cluster := cl, next := sec + 1, count := 1 }
    match ts.findIdx? (fun t => t.isNone) with
    | some i => (fresh :: ts.eraseIdx i, false)
    | none => (fresh :: ts.take 31, false)

/-- Follow the sectors of an access: the state, and which of them lie in a detected stream. -/
def State.track (s : State) (half cl line : Nat) (mask : BitVec 4) : State × BitVec 4 :=
  if !s.detecting then (s, 0)
  else
    let (ts, b) := (setBits mask.toNat 4).foldl (fun (ts, b) i =>
      let (ts, hit) := trackSector ts cl (line / 32 + i)
      (ts, if hit then b ||| 1 <<< i else b)) ((s.agent half).trackers, 0)
    (s.modAgent half fun a => { a with trackers := ts }, BitVec.ofNat 4 b)

/-! ### Cluster accesses (R165 to R170) -/

/-- Count a lookup in a half for the unmoored hit rate (R171). A lookup that finds the line counts as a hit,
whether or not it holds the sectors asked for (DEDUCED, log 142). -/
def State.countLookup (s : State) (half : Nat) (way : Option Nat) : State :=
  let moored := (s.agent half).moored.map Prod.fst
  match way with
  | some w => if moored.contains w then s else (s.count 0xA065 (half + 1) 1).count 0xA066 (half + 1) 1
  | none => s.count 0xA065 (half + 1) 1

/-- Count a lookup of a line in the half or L3 complex that serves an access; an L3 has no such count. -/
def State.lookup (s : State) (half line : Nat) : State :=
  if half < 8 then s.countLookup half (((s.agent half).cached? line).map (·.way)) else s

/-- How an access of a cluster allocates: its hint, and the landings of the accessing kernel that the
cluster belongs to, several where they share it (R28, R170). While the detector is in force the hint counts
as normal, and moored landings still use their ways (R172). -/
def State.allocInfo (s : State) (cl hint : Nat) (owner : Option (Nat × Nat)) : AllocInfo :=
  { hint := if s.detecting then 0 else hint
    moor := s.detecting || hint = 1
    owners := match owner with
      | none => []
      | some (k, _) => match s.kernel? k with
        | none => []
        | some kn => (kn.clusters.zipIdx.filter fun e => e.1.contains cl).map fun e => (k, e.2) }

/-- A hit renews the line's place by its hint (R168). -/
def State.touch (s : State) (half : Nat) (c : Copy) (i : AllocInfo) : State := s.placeCopy half c i

/-- Whether a read of a line meets a tombstone in a half or at the line's home, and the state that has read it: it
is counted, and marked as read (R176). -/
def State.readTomb (s : State) (half line : Nat) : Option State :=
  let tomb := fun (a : Nat) => match (s.agent a).cached? line with
    | some c => c.tomb
    | none => false
  ([half, s.home line].find? tomb).map fun h =>
    (s.modAgent h fun a => { a with copies := a.copies.map fun c => if c.line = line then { c with tombRead := true } else c }).count 0xA068 6 1

/-- Read sectors of a line through the half that caches it. Missing sectors named in `bypass`, which lie in
a detected stream, and all of them for an uncached access (R246), are served without allocating; a line that
such an access hits keeps its place (R172). None where the home answers RETRY or no way can be freed: the
access waits.
(DESIGN CHOICE, log 95.) -/
def State.halfRead (s : State) (half line : Nat) (mask bypass : BitVec 4) (i : AllocInfo) (uncached : Bool) :
    Option (State × LineRead) :=
  match s.readTomb half line with
  | some s => some (s, { tomb := true })
  | none =>
    let s := s.lookup half line
    let valid : BitVec 4 := match (s.agent half).cached? line with
      | some c => c.valid
      | none => 0
    let miss := mask &&& ~~~ valid
    let pass : BitVec 4 := if uncached then miss else miss &&& bypass
    let take := miss &&& ~~~ pass
    let s1 : Option (State × Nat × BitVec 4) := if pass = 0 then some (s, 0, 0) else
      (s.runRead .rdn half line pass i).map fun (s, t) =>
        (if uncached then s else s.count 0xA068 4 (popcount pass.toNat 4), t.data.toNat, t.poisonSect &&& pass)
    s1.bind fun (s, d, p) =>
      let s2 : Option State := if take ≠ 0 then (s.runRead .rds half line take i).map Prod.fst
        else some (match (s.agent half).cached? line with
          | some c => if uncached || mask &&& ~~~ bypass = 0 then s else s.touch half c i
          | none => s)
      s2.map fun s => match (s.agent half).cached? line with
        | some c => (s, { data := mergeSectors pass.toNat c.data.toNat d, poison := ((c.poison &&& mask &&& ~~~ pass) ||| p).toNat })
        | none => (s, { data := d, poison := p.toNat })

/-- A cluster reads sectors of a coherent line. -/
def State.clusterRead (s : State) (cl line : Nat) (mask : BitVec 4) (i : AllocInfo) (uncached : Bool) :
    Option (State × LineRead) :=
  if !s.serving (clusterDie cl) line then some (s, { poison := mask.toNat })
  else
    let half := s.servingHalf cl line
    let (s, bypass) := (s.reclaimNow (s.home line) line).track half cl line mask
    s.halfRead half line mask bypass i uncached

/-- A page walk reads a PTE's sector: with the normal hint, past the stream detector (R248). -/
def State.walkRead (s : State) (cl line : Nat) (mask : BitVec 4) : Option (State × LineRead) :=
  if !s.serving (clusterDie cl) line then some (s, { poison := mask.toNat })
  else (s.reclaimNow (s.home line) line).halfRead (s.servingHalf cl line) line mask 0 {} false

/-- Sectors a byte mask touches, and sectors it covers whole. -/
def sectorsTouched (mask : Nat) : BitVec 4 :=
  BitVec.ofNat 4 (maskOf ((List.range 4).filter fun i => field mask (32 * i) 32 ≠ 0))
def sectorsWhole (mask : Nat) : BitVec 4 :=
  BitVec.ofNat 4 (maskOf ((List.range 4).filter fun i => field mask (32 * i) 32 = 2 ^ 32 - 1))

/-- Write bytes into a copy held in M or E: whole sectors become valid, dirty and clean of poison; a
partial write of a poisoned sector writes nothing (R167, R184, R229). -/
def Copy.writeBytes (c : Copy) (mask data : Nat) : Copy :=
  let whole := sectorsWhole mask
  let ok := sectorsTouched mask &&& ~~~ (c.poison &&& ~~~ whole)
  let m := maskOf ((List.range 128).filter fun i => mask.testBit i && ok.toNat.testBit (i / 32))
  { c with
    st := .M
    valid := c.valid ||| whole
    dirty := c.dirty ||| ok
    poison := c.poison &&& ~~~ whole
    data := BitVec.ofNat 1024 (mergeBytes 128 m c.data.toNat data)
    tomb := false }

/-- A write to a line removes its tombstones (R176). -/
def State.clearTombs (s : State) (line : Nat) : State :=
  (List.range 8).foldl (fun s h => match (s.agent h).cached? line with
    | some c => if c.tomb then s.modAgent h fun a => a.drop line else s
    | none => s) s

/-- Write a line from a hub, the companion or past the caches (R236 WRN): copies are collected, the
bytes merged in memory. -/
def State.uncachedWrite (s : State) (agent line mask data : Nat) : Option State :=
  ((s.clearTombs line).runInvalidate .wrn agent line).map fun s => s.writeLineBytes line mask data

/-- A caching agent writes bytes of a line: it takes the line in M first, fetching the sectors it
writes in part (R167, R229, R236). -/
def State.ownedWrite (s : State) (agent line mask data : Nat) (i : AllocInfo) : Option State :=
  let part := sectorsTouched mask &&& ~~~ sectorsWhole mask
  let write := fun (s : State) =>
    match (s.agent agent).cached? line with
    | some c => some (s.placeCopy agent (c.writeBytes mask data) i)
    | none => none
  match (s.agent agent).copies.find? (fun c => c.line = line && c.st != .I) with
  | some c =>
    let miss := part &&& ~~~ c.valid
    if c.st = .M ∨ c.st = .E then
      (if miss = 0 then write s else (s.runRead .rdu agent line miss i).bind fun (s, _) => write s)
    else if miss = 0 then (s.runRead .upg agent line 0 i).bind fun (s, _) => write s
    else (s.runRead .rdu agent line miss i).bind fun (s, _) => write s
  | none => (s.runRead .rdu agent line part i).bind fun (s, _) => write s

/-- A caching agent writes bytes of a line, and its tombstones go. -/
def State.cachedWrite (s : State) (agent line mask data : Nat) (i : AllocInfo) : Option State :=
  (s.clearTombs line).ownedWrite agent line mask data i

/-- A cluster writes bytes of a coherent line. In a detected stream a write to an absent line goes to
memory (R172). -/
def State.clusterWrite (s : State) (cl line mask data : Nat) (i : AllocInfo) (uncached : Bool) : Option State :=
  if !s.serving (clusterDie cl) line then some s
  else
    let half := s.servingHalf cl line
    let all := sectorsTouched mask
    let (s, bypass) := (s.reclaimNow (s.home line) line).track half cl line all
    let s := s.lookup half line
    let pass := bypass = all && ((s.agent half).copy? line).isNone
    if uncached || pass then
      (s.uncachedWrite half line mask data).map fun s =>
        if pass then s.count 0xA068 4 (popcount all.toNat 4) else s
    else s.cachedWrite half line mask data i

/-! ### Hubs, the companion, cores -/

/-- Put sectors just read or written for a processor die, a hub or the companion into the home half with
the normal hint (R166, R167): only the sectors the access named. The copy is E where nothing is held
outside, S beside an F, S or O copy; beside an E or M copy none may stand (R228; DEDUCED, log 9). -/
def State.homeAllocate (s : State) (line : Nat) (mask : BitVec 4) (data poison : Nat) : State :=
  let home := s.home line
  let out := (s.agent home).entry? line
  let alone : Bool := match out with
    | some e => e.resp.isSome && (e.st = .E || e.st = .M)
    | none => false
  if home ≥ 8 ∨ mask = 0 ∨ alone = true then s
  else
    let fill := fun (c : Copy) =>
      let new := mask &&& ~~~ c.valid
      { c with
        valid := c.valid ||| new
        poison := c.poison ||| (BitVec.ofNat 4 poison &&& new)
        data := BitVec.ofNat 1024 (mergeSectors new.toNat c.data.toNat data) }
    match (s.agent home).copies.find? (fun c => c.line = line && c.st != .I) with
    | some c => s.placeCopy home (fill c) {}
    | none => match (s.modAgent home fun a => a.drop line).makeRoom home line {} with
      | none => s
      | some (s, w) =>
        s.placeCopy home (fill { line := line, st := if out.isSome then .S else .E, valid := 0, dirty := 0, data := 0, way := w }) {}

/-- A non-caching requester reads sectors of a line (R236 RDN). -/
def State.uncachedRead (s : State) (agent line : Nat) (mask : BitVec 4) : Option (State × LineRead) :=
  let home := s.home line
  if !s.serving (agentDie agent) line then some (s, { poison := mask.toNat })
  else
    let s := s.reclaimNow home line
    match s.readTomb home line with
    | some s => some (s, { tomb := true })
    | none => ((s.lookup home line).runRead .rdn agent line mask {}).map fun (s, t) =>
        let p := (t.poisonSect &&& mask).toNat
        (s.homeAllocate line mask t.data.toNat p, { data := t.data.toNat, poison := p })

/-- A non-caching requester writes bytes of a line; for HBM the home half then holds a copy of the sectors
(R236). -/
def State.hubWrite (s : State) (agent line mask data : Nat) : Option State :=
  if !s.serving (agentDie agent) line then some s
  else
    let s := (s.reclaimNow (s.home line) line).lookup (s.home line) line
    (s.uncachedWrite agent line mask data).map fun s =>
      let (d, p) := s.dramLine line
      s.homeAllocate line (sectorsTouched mask) d p

/-- A core's L3 complex (agent 8 or 9) reads sectors of a line (R226, R227); an access that a leaf's PBMT
makes uncached (R338) fetches missing sectors without keeping them. -/
def State.coreRead (s : State) (agent line : Nat) (mask : BitVec 4) (uncached : Bool) : Option (State × LineRead) :=
  if !s.serving (agentDie agent) line then some (s, { poison := mask.toNat })
  else
    let s := s.reclaimNow (s.home line) line
    match s.readTomb agent line with
    | some s => some (s, { tomb := true })
    | none =>
      let cached := (s.agent agent).cached? line
      let valid : BitVec 4 := match cached with
        | some c => c.valid
        | none => 0
      let miss := mask &&& ~~~ valid
      let answer := fun (s : State) (t : Txn) =>
        let d := mergeSectors miss.toNat ((cached.map fun c => c.data.toNat).getD 0) t.data.toNat
        let p := (((cached.map fun c => c.poison).getD 0) &&& mask &&& ~~~ miss) ||| (t.poisonSect &&& miss)
        (s.homeAllocate line miss t.data.toNat t.poisonSect.toNat, ({ data := d, poison := p.toNat } : LineRead))
      if miss = 0 then some (s, { data := (cached.map fun c => c.data.toNat).getD 0, poison := (((cached.map fun c => c.poison).getD 0) &&& mask).toNat })
      else ((s.lookup (s.home line) line).runRead (if uncached then .rdn else .rds) agent line miss {}).map fun (s, t) => answer s t

/-- A core writes bytes of a line through its L3 complex, which holds it alone then, or past it where the leaf's
PBMT makes the access uncached. -/
def State.coreWrite (s : State) (agent line mask data : Nat) (uncached : Bool) : Option State :=
  if !s.serving (agentDie agent) line then some s
  else
    let s := s.reclaimNow (s.home line) line
    let owned := (s.agent agent).copies.any fun c => c.line = line && (c.st = .M || c.st = .E)
    if uncached then s.hubWrite agent line mask data
    else (if owned then s else s.lookup (s.home line) line).cachedWrite agent line mask data {}

/-- Read `n` bytes within one line as an uncached requester: the number, poison, tombstone. -/
def State.uncachedBytes (s : State) (agent a n : Nat) : Option (State × Nat × Bool × Bool) :=
  match s.keyAddr a with
  | none => some (s, 0, true, false)
  | some k =>
    let line := lineOf k
    let lo := k % 128 / 32
    let hi := (k % 128 + n - 1) / 32
    let mask := BitVec.ofNat 4 (maskOf ((List.range 4).filter fun i => lo ≤ i && i ≤ hi))
    (s.uncachedRead agent line mask).map fun (s, r) => (s, field r.data (8 * (k % 128)) (8 * n), r.poison ≠ 0, r.tomb)

/-- Split a byte range at line boundaries: address and length of each part. -/
def lineParts : Nat → Nat → Nat → List (Nat × Nat)
  | 0, _, _ => []
  | fuel + 1, a, n =>
    if n = 0 then []
    else
      let k := if n < 128 - a % 128 then n else 128 - a % 128
      (a, k) :: lineParts fuel (a + k) (n - k)

/-- Read a byte range of memory as an uncached requester: the bytes, whether any is poisoned or lies
on a tombstone; none on RETRY. -/
def State.hubReadRange (s : State) (agent a n : Nat) : Option (State × Bytes × Bool × Bool) :=
  (lineParts (n / 128 + 2) a n).foldl (fun acc (p, k) =>
    acc.bind fun (s, b, poi, tomb) =>
      (s.uncachedBytes agent p k).map fun (s, x, q, t) => (s, b ++ toLE k x, poi || q, tomb || t)) (some (s, [], false, false))

/-- Write a byte range of memory as an uncached requester. -/
def State.hubWriteRange (s : State) (agent a : Nat) (b : Bytes) : Option State :=
  (lineParts (b.length / 128 + 2) a b.length).foldl (fun acc (p, k) =>
    acc.bind fun s =>
      match s.keyAddr p with
      | none => some s
      | some key =>
        let o := key % 128
        s.hubWrite agent (lineOf key) ((2 ^ k - 1) <<< o) (fromLE (slice b (p - a) k) <<< (8 * o))) (some s)

/-! ### Adders (R186 to R189) -/

/-- Size in bytes of an adder format (R186). -/
def adderSize : Nat → Nat
  | 0 => 8 | 1 => 4 | 2 => 2 | 3 => 2 | 4 => 8 | 5 => 4 | 6 => 8 | _ => 4
/-- The float format of an adder format code. -/
def adderFmt : Nat → Option Fmt
  | 0 => some .fp64 | 1 => some .fp32 | 2 => some .bf16 | 3 => some .fp16 | _ => none
/-- Whether an operation allows a format (R186). -/
def adderAllows (op fmt : Nat) : Bool :=
  match op with
  | 0 => fmt ≤ 5
  | 1 | 2 => fmt ≤ 7
  | 3 | 4 | 5 | 6 | 7 => fmt = 4 || fmt = 5
  | _ => false

/-- One adder step on an element: memory value first (R85, R187). The flags are those of the float
step: INVALID for a generated NaN, OVERFLOW for a finite sum turned infinite. -/
def adderStep (op fmt old x cmp : Nat) : Nat × Flags :=
  let w := 8 * adderSize fmt
  match op with
  | 0 => match adderFmt fmt with
    | some f => f.add false old x
    | none => ((old + x) % 2 ^ w, 0)
  | 1 | 2 => match adderFmt fmt with
    | some f => f.minMax false (op = 2) old x
    | none =>
      let signed := fmt = 4 || fmt = 5
      let a := intValue signed w old
      let b := intValue signed w x
      (if op = 1 then (if b < a then x else old) else (if a < b then x else old), 0)
  | 3 => (old &&& x, 0)
  | 4 => (old ||| x, 0)
  | 5 => (old ^^^ x, 0)
  | 6 => (x, 0)
  | _ => (if old = cmp then x else old, 0)

/-- The index of a location in OD 4051h and 4052h: stack plus one, 11h and 12h for the hubs, whose controllers
also apply the operations on redirected pseudo-channels (R194). -/
def State.adderSub (s : State) (k : Nat) : Nat :=
  match s.servingPackage k with
  | some (hub, _) => 0x11 + hub
  | none => (s.keyPc k).1 + 1

/-- Count an adder operation and its flags (R187). -/
def State.countAdder (s : State) (k : Nat) (inv ovf : Nat) : State :=
  let s := s.count 0x4050 1 1
  let s := if inv = 0 then s else (s.count 0x4050 2 inv).count 0x4051 (s.adderSub k) inv
  if ovf = 0 then s else (s.count 0x4050 3 ovf).count 0x4052 (s.adderSub k) ovf

/-- The answer of an adder operation. -/
inductive AdderResult where
  /-- applied; the old value of an atomic -/
  | old (v : Nat)
  /-- it touched a poisoned sector and was not applied (R189) -/
  | poison
  /-- reserved code, format not allowed, misaligned or out of its line (R186) -/
  | error
  deriving DecidableEq, Repr

/-- Whether any sector of a byte range within a line is poisoned or lost. -/
def State.rangePoisoned (s : State) (k n : Nat) : Bool :=
  (List.range 4).any fun i =>
    let sec := lineOf k + 32 * i
    decide (sec < k + n) && decide (k < sec + 32) && ((s.dramRead sec).2)

/-- An adder reads the sectors of a byte range within a line. -/
def State.readRange (s : State) (k n : Nat) : State :=
  s.readSectors (lineOf k) (maskOf ((List.range 4).filter fun i => decide (lineOf k + 32 * i < k + n) && decide (k < lineOf k + 32 * i + 32)))

/-- The bytes of memory under an adder, written back. -/
def State.memPatch (s : State) (k : Nat) (b : Bytes) : State :=
  s.writeLineBytes (lineOf k) ((2 ^ b.length - 1) <<< (k % 128)) (fromLE b <<< (8 * (k % 128)))

/-- An atomic on one element at key address `k` once no copy of its line is left (R187 to R189). -/
def State.adderApply (s : State) (k op fmt x cmp : Nat) : State × AdderResult :=
  let n := adderSize fmt
  let s := (s.modAgent (s.home k) fun a => a.drop (lineOf k)).readRange k n
  if s.rangePoisoned k n then (s.count 0x4050 4 1, .poison)
  else
    let old := fromLE (s.stored k n)
    let (v, f) := adderStep op fmt old x cmp
    ((s.memPatch k (toLE n v)).countAdder k (b2n (f &&& fInvalid != 0)) (b2n (f &&& fOverflow != 0)), .old old)

/-- Whether an atomic names an operation, format and address of R186. -/
def atomicOk (k op fmt : Nat) : Bool := adderAllows op fmt && decide (k % adderSize fmt = 0)

/-- An atomic on one element at key address `k`, forwarded by the home after it has invalidated every
copy (R188). None on RETRY. -/
def State.adderAtomic (s : State) (agent k op fmt x cmp : Nat) : Option (State × AdderResult) :=
  if !atomicOk k op fmt then some (s, .error)
  else if !s.serving (agentDie agent) (lineOf k) then some (s, .poison)
  else
    let s := (s.reclaimNow (s.home k) (lineOf k)).clearTombs (lineOf k)
    (s.runInvalidate .addop agent (lineOf k)).map fun s => s.adderApply k op fmt x cmp

/-- Apply a reduce-write's elements one after another: the new bytes and how many steps were invalid
or overflowed. -/
def reduceBytes (op fmt : Nat) : Nat → Bytes → Bytes → Bytes × Nat × Nat
  | 0, _, _ => ([], 0, 0)
  | fuel + 1, old, x =>
    let n := adderSize fmt
    if old.length < n then ([], 0, 0)
    else
      let (v, f) := adderStep op fmt (fromLE (old.take n)) (fromLE (x.take n)) 0
      let (r, i, o) := reduceBytes op fmt fuel (old.drop n) (x.drop n)
      (toLE n v ++ r, i + b2n (f &&& fInvalid != 0), o + b2n (f &&& fOverflow != 0))

/-- A reduce-write once no copy of its line is left (R187 to R189). -/
def State.reduceApply (s : State) (k op fmt : Nat) (b : Bytes) : State × AdderResult :=
  let s := (s.modAgent (s.home k) fun a => a.drop (lineOf k)).readRange k b.length
  if s.rangePoisoned k b.length then (s.count 0x4050 4 1, .poison)
  else
    let (r, i, o) := reduceBytes op fmt b.length (s.stored k b.length) b
    ((s.memPatch k r).countAdder k i o, .old 0)

/-- Whether a reduce-write of `n` bytes is one of R186: 4 to 128 bytes within one line. -/
def reduceOk (k op fmt n : Nat) : Bool :=
  let e := adderSize fmt
  adderAllows op fmt && decide (op < 6) && decide (k % e = 0) && decide (n % e = 0) && decide (4 ≤ n) && decide (n ≤ 128)
    && decide (k % 128 + n ≤ 128)

/-- A reduce-write of 4 to 128 bytes within one line (R186). None on RETRY. -/
def State.adderReduce (s : State) (agent k op fmt : Nat) (b : Bytes) : Option (State × AdderResult) :=
  if !reduceOk k op fmt b.length then some (s, .error)
  else if !s.serving (agentDie agent) (lineOf k) then some (s, .poison)
  else
    let s := (s.reclaimNow (s.home k) (lineOf k)).clearTombs (lineOf k)
    (s.runInvalidate .addop agent (lineOf k)).map fun s => s.reduceApply k op fmt b

end Sys2Proof.Machine
end

