-- ==== Sys2Proof/Machine/Faults.lean ====
section
/-! DEFINITION. Group faults: the fault record (R79), the partition's fault queue (R265, R266), the
abort of a kernel (R39) and the stall of a recoverable fault (R263). One shared operation takes every
fault of every group. -/
namespace Sys2Proof.Machine

/-- A fault as an instruction's checks find it: code, the two arguments or the whole 128-bit DETAIL
(codes 0500h to 07FFh), and whether its cause is one of those RECOVER makes recoverable (R262). -/
structure FaultInfo where
  code : Nat
  arg0 : Nat := 0
  arg1 : Nat := 0
  detail : Option Nat := none
  pageFault : Bool := false
  deriving DecidableEq, Repr

/-- DETAIL of a record (R79). -/
def FaultInfo.detailBits (f : FaultInfo) : Nat := f.detail.getD (f.arg0 % 2 ^ 64 ||| (f.arg1 % 2 ^ 64) <<< 64)

/-! ### Features (R398, R399) -/

/-- The features offered: bits 0 to 4 and 64 to 66, and bit 5 with a companion die. -/
def State.offered (s : State) : Nat := 0x7000000000000001F + (if s.die 8 = 1 ∨ s.die 8 = 2 then 32 else 0)
/-- The features enabled for a partition. -/
def State.features (s : State) (p : Nat) : Nat := s.offered &&& setting s 0x1030 (0x11 + p)
def State.feature (s : State) (p bit : Nat) : Bool := (s.features p).testBit bit
/-- Whether a kernel's manifest declares a feature (R399). -/
def Kernel.feature (k : Kernel) (bit : Nat) : Bool := k.man.features.testBit bit

/-! ### Translation contexts (R250) -/

def State.ctxRoot (s : State) (p c : Nat) : Nat := (sgetD (s.xl p).ctxRoot c 0).toNat
def State.ctxId (s : State) (p c : Nat) : Nat := (sgetD (s.xl p).ctxId c 0).toNat
def State.ctxValid (s : State) (p c : Nat) : Bool := (s.ctxId p c).testBit 63
def State.ctxAttached (s : State) (p c : Nat) : Bool := (s.ctxId p c).testBit 62
/-- RECOVER in force: 0 unless RECOVERABLE_FAULTS is enabled (R399). -/
def State.ctxRecover (s : State) (p c : Nat) : Bool := (s.ctxId p c).testBit 61 && s.feature p 64
def State.ctxAsid (s : State) (p c : Nat) : Nat := field (s.ctxId p c) 0 16
def State.ctxPasid (s : State) (p c : Nat) : Nat := field (s.ctxId p c) 20 20

/-! ### The fault record and queue -/

/-- The record's fields that name its source. -/
structure FaultSource where
  kernel : Nat
  part : Nat
  die : Nat
  cluster : Nat
  sched : Nat := 0
  slot : Nat := 0
  landing : Nat := 0
  launch : Nat := 0
  active : Nat := 0
  pc : Nat := 0
  word : Nat := 0
  kernelId : Nat := 0
  deriving DecidableEq, Repr

/-- A fault record (R79). -/
def mkRecord (src : FaultSource) (f : FaultInfo) (recoverable : Bool) (seq time : Nat) : BitVec 512 :=
  BitVec.ofNat 512 (f.code % 2 ^ 16 ||| src.die <<< 16 ||| b2n recoverable <<< 24 ||| (src.cluster % 2 ^ 16) <<< 32
    ||| src.slot <<< 50 ||| src.sched <<< 54 ||| src.landing <<< 56 ||| (time % 2 ^ 64) <<< 64
    ||| (seq % 2 ^ 32) <<< 128 ||| (src.kernelId % 2 ^ 32) <<< 160 ||| (src.active % 2 ^ 32) <<< 192
    ||| (src.launch % 2 ^ 32) <<< 224 ||| (src.pc % 2 ^ 64) <<< 256 ||| (src.word % 2 ^ 64) <<< 320
    ||| f.detailBits <<< 384)

/-- The queue is full when one more record would meet FQ_HEAD (R265). -/
def Xlate.full (x : Xlate) : Bool := (x.fqTail.toNat + 1) % x.fqSize.toNat = x.fqHead.toNat

/-- The fault interrupt, when INTEN allows it (R265, R336). -/
def State.faultInterrupt (s : State) (p : Nat) : State := if (s.xl p).inten then s.raise (512 + p) else s

/-- Put a record into the queue: write it at FQ_TAIL, visible at NODE scope, then advance FQ_TAIL; the
interrupt is raised when the queue was empty (R265). None while the line's home answers RETRY. -/
def State.enqueueRecord (s : State) (p : Nat) (r : BitVec 512) : Option State :=
  let x := s.xl p
  (s.hubWriteRange 10 (x.fqBase.toNat + 64 * x.fqTail.toNat) (toLE 64 r.toNat)).map fun s =>
    let s := s.modXl p fun x => { x with fqTail := BitVec.ofNat 32 ((x.fqTail.toNat + 1) % x.fqSize.toNat) }
    let s := if r.toNat.testBit 24 then s.count 0xA081 4 1 else s
    let s := (s.count 0xA021 1 1).setCounter 0xA021 2 (field r.toNat 0 16)
    if x.fqTail = x.fqHead then s.faultInterrupt p else s

/-- Waiting records go into the queue, oldest first, while it is enabled, has room and its line is free
(R265, R266). -/
def State.drainWaiting (s : State) (p : Nat) : State :=
  ((s.xl p).waitingRecords.foldl (fun (acc : State × Bool) r =>
    let x := acc.1.xl p
    if !acc.2 || !x.enable || x.full then (acc.1, false)
    else match acc.1.enqueueRecord p r with
      | some s => (s.modXl p fun x => { x with waitingRecords := x.waitingRecords.drop 1 }, true)
      | none => (acc.1, false)) (s, true)).1

/-- The same for every partition's queue, once a line has come free. -/
def State.drainRecords (s : State) : State := (List.range s.parts).foldl State.drainWaiting s

/-- A fault that is not recorded: its class counter FQ_LOST counts it (R266). -/
def State.loseRecord (s : State) (p code : Nat) : State :=
  (s.modXl p fun x =>
    let k := code / 256 - 1
    { x with fqLost := sput x.fqLost k (sgetD x.fqLost k 0 + 1) 0 }).count 0xA081 5 1

/-- OVERFLOW is set; the interrupt is raised when it goes from 0 to 1 (R265, R266). -/
def State.setOverflow (s : State) (p : Nat) : State :=
  if (s.xl p).overflow then s else (s.modXl p fun x => { x with overflow := true }).faultInterrupt p

/-- Record a fault of a source (R79, R265, R266): the state and the record's SEQ. A full queue keeps a
recoverable record waiting and loses a non-recoverable one; a queue not enabled loses it. A record whose
line is busy waits, and later ones behind it. -/
def State.recordFault (s : State) (src : FaultSource) (f : FaultInfo) (recoverable : Bool) : State × Nat :=
  let seq := (s.dx src.die).faultSeq
  let r := mkRecord src f recoverable seq s.freeWord.toNat
  let s := (s.setDx src.die { s.dx src.die with faultSeq := seq + 1 }).useFree
  let s := s.trace src.die r
  let s := if f.code = 0x108 then s.count 0xA021 3 1 else if f.code = 0x10A then s.count 0xA021 4 1 else s
  let x := s.xl src.part
  (if !x.enable then s.loseRecord src.part f.code
   else if x.full then
     (if recoverable then (s.modXl src.part fun x => { x with waitingRecords := x.waitingRecords ++ [r] })
      else s.loseRecord src.part f.code).setOverflow src.part
   else (s.modXl src.part fun x => { x with waitingRecords := x.waitingRecords ++ [r] }).drainWaiting src.part, seq)

/-! ### Halting and aborting -/

/-- Whether an engine entry's group, named by scheduler and slot on its cluster, is of a kernel. -/
def State.isGroupOf (s : State) (cl local_ k : Nat) : Bool :=
  match s.group? (64 * cl + local_) with
  | some g => g.kernel = k
  | none => false

/-- The sticky flags of a kernel's groups, ORed (R52). -/
def State.kernelFlags (s : State) (k : Nat) : Flags := (s.kernelGroups k).foldl (fun f e => f ||| e.2.flags) 0

/-- Reset a cluster of an aborted kernel: its work leaves the engines, and its accumulator tiles, chain slots and
L1 are gone; scratchpad and write buffer stay (R39, R432). What the L2 still returns is discarded (R433). -/
def State.clearEngines (s : State) (cl k : Nat) : State :=
  let mine := fun (l : Nat) => s.isGroupOf cl l k
  s.modCluster cl fun c => { c with
    mxq := c.mxq.filter fun e => !mine e.group
    slip := c.slip.filter fun e => !mine e.group
    vxq := c.vxq.filter fun e => !mine e.group
    xfers := c.xfers.filter fun e => e.kernel ≠ k
    pfWait := c.pfWait.filter fun e => e.kernel ≠ k
    slots := if c.kernel = some k then [] else c.slots
    tiles := if c.kernel = some k then [] else c.tiles
    l1 := if c.kernel = some k then [] else c.l1
    pf := if c.kernel = some k then [] else c.pf
    fills := if c.kernel = some k then [] else c.fills }

/-- A group of an aborted kernel: stopped, its registers and its order state reset (R39, R432). -/
def Group.abort (g : Group) : Group :=
  { g with halted := true, wait := .ready, stack := [], regs := [], vregs := [], vl := 128, vmask := [], empty := false, fences := [] }

/-! ### Binding of network groups (R305, R307) -/

/-- An entry of the group table at reset: OPTIMEOUT 2,000. -/
def grpDefault : BitVec 512 := BitVec.ofNat 512 (2000 <<< 416)
def State.groupEntry (s : State) (g : Nat) : Nat := (sgetD s.net.groups g grpDefault).toNat
def State.setGroupEntry (s : State) (g e : Nat) : State :=
  { s with net := { s.net with groups := sput s.net.groups g (BitVec.ofNat 512 e) grpDefault } }
def State.modGroupEntry (s : State) (g : Nat) (f : Nat → Nat) : State := s.setGroupEntry g (f (s.groupEntry g))
/-- Bind groups to a kernel: BOUND and BOUNDKID. -/
def State.bind (s : State) (gs : List Nat) (kernelId : Nat) : State :=
  gs.foldl (fun s g => s.modGroupEntry g fun e => setField (setField e 12 1 1) 192 32 kernelId) s
/-- End the binding of groups: BOUND and BOUNDKID read 0. -/
def State.unbind (s : State) (gs : List Nat) : State :=
  gs.foldl (fun s g => s.modGroupEntry g fun e => setField (setField e 12 1 0) 192 32 0) s

/-! ### Aborting a kernel and taking a fault -/

/-- Abort a kernel (R39): every group stops, queues are discarded, stalled accesses end (R264), the
first fault's code is the reason, its network groups are unbound (R305). Its resources are freed by its
completion. -/
def State.abortKernel (s : State) (k code : Nat) : State :=
  match s.kernel? k with
  | none => s
  | some kn =>
    if kn.phase ≠ .running then s
    else
      let flags := s.kernelFlags k
      let leave := fun (x : HostXlate) => { x with waiters := x.waiters.filter fun w => !s.isGroupOf (gcluster w.group) (w.group % 64) k }
      let s := kn.allClusters.foldl (fun s c => s.clearEngines c k) s
      let s := { s with
        groups := s.groups.map fun (e : Nat × Group) => if e.2.kernel = k then (e.1, e.2.abort) else e
        host := { s.host with ats := s.host.ats.map leave }
        stalled := s.stalled.filter fun f => !(match s.group? f.group with
          | some g => decide (g.kernel = k)
          | none => false) }
      let s := (s.unbind kn.boundGroups).setKernel k { kn with
        phase := .aborted, reason := code, flags := kn.flags ||| flags, boundGroups := []
        ferries := kn.ferries.map fun (e : Nat × FerryQueue) => (e.1, { e.2 with fifo := [], slots := e.2.slots.map fun _ => .free }) }
      s.count 0xA011 5 1

/-- The record's source fields of a group's instruction. -/
def State.groupSource (s : State) (gk : Nat) (g : Group) (pc word : W64) : FaultSource :=
  let kn := s.kernel? g.kernel
  { kernel := g.kernel, part := (kn.map (·.part)).getD 0, die := clusterDie (gcluster gk), cluster := gcluster gk
    sched := gk % 64 / 16, slot := gk % 16, landing := g.landing, launch := g.launch.toNat
    active := g.active.toNat, pc := pc.toNat, word := word.toNat
    kernelId := (kn.map (·.kernelId.toNat)).getD 0 }

/-- Poison and array faults also make the event "poison consumed" or "array error" (R366, R380). -/
def State.faultEvent (s : State) (src : FaultSource) (f : FaultInfo) : State :=
  if f.code = 0x701 then
    s.event { cls := 3, code := 3, die := src.die, part := src.part, location := src.cluster, data := f.code,
              addr := field f.detailBits 64 48, kernelId := src.kernelId }
  else s

/-- Take a fault of a group's instruction (R78, R79, R39, R263). A page fault in a context with RECOVER,
while the queue is enabled, stalls the group at the instruction; any other fault halts the group and
aborts its kernel. -/
def State.takeFault (s : State) (gk : Nat) (g : Group) (word : W64) (f : FaultInfo) : State :=
  let src := s.groupSource gk g g.pc word
  let ctx := ((s.kernel? g.kernel).map (·.ctx)).getD 0
  let recov := f.pageFault && s.ctxRecover src.part ctx && (s.xl src.part).enable
  let (s, seq) := (s.faultEvent src f).recordFault src f recov
  if recov then
    let s := s.setGroup gk { g with wait := .faulted src.die seq }
    { s with stalled := s.stalled ++ [{ part := src.part, die := src.die, seq := seq, code := f.code, group := gk, xfer := none }] }
  else (s.setGroup gk { g with halted := true }).abortKernel g.kernel f.code

/-- Take a fault found by an engine executing a group's earlier instruction: record its own pc and word
(R79). A recoverable fault of a transfer stalls the transfer and not the group (R263). -/
def State.engineFault (s : State) (gk : Nat) (pc word : W64) (xfer : Option Nat) (f : FaultInfo) : State × Bool :=
  match s.group? gk with
  | none => (s, false)
  | some g =>
    let src := s.groupSource gk g pc word
    let ctx := ((s.kernel? g.kernel).map (·.ctx)).getD 0
    let recov := f.pageFault && xfer.isSome && s.ctxRecover src.part ctx && (s.xl src.part).enable
    let (s, seq) := (s.faultEvent src f).recordFault src f recov
    if recov then
      ({ s with stalled := s.stalled ++ [{ part := src.part, die := src.die, seq := seq, code := f.code, group := gk, xfer := xfer }] }, true)
    else ((s.setGroup gk { g with halted := true }).abortKernel g.kernel f.code, false)

end Sys2Proof.Machine
end

