-- ==== Sys2Proof/Machine/Translate.lean ====
section
/-! DEFINITION. Address translation (R245 to R253, R257, R259, R262): contexts, TLBs, the Sv57 walk with
its checks in order, host leaves, and what backs a translated address. -/
namespace Sys2Proof.Machine

/-- The kinds of access, by the ACCESS code of a translation fault (R262): 0 load, 1 store, 2 atomic or
TXRED, 3 fetch, 4 TX read, 5 TX write. -/
abbrev AccessKind := Nat

/-- Whether an access kind needs R, W and X of its leaf (R247). -/
def needsR (k : AccessKind) : Bool := k = 0 || k = 2 || k = 4
def needsW (k : AccessKind) : Bool := k = 1 || k = 2 || k = 5

/-- What a translation ends in: a physical address with the leaf's PBMT and whether the request goes
out as a translated one; a fault; a wait for ATS or PRI; or a wait for a busy line of a PTE. -/
inductive XlResult where
  | ok (pa pbmt : Nat) (translated : Bool)
  | fault (f : FaultInfo)
  | wait
  | busy
  deriving DecidableEq, Repr

/-- DETAIL of a translation fault (R262). -/
def xlDetail (acc level ctx : Nat) (host : Bool) (addr va : Nat) : Nat :=
  va % 2 ^ 64 ||| (addr % 2 ^ 48) <<< 64 ||| b2n host <<< 114 ||| ctx <<< 115 ||| level <<< 121 ||| acc <<< 124

def xlFault (code acc level ctx : Nat) (host : Bool) (addr va : Nat) : FaultInfo :=
  { code := code, detail := some (xlDetail acc level ctx host addr va), pageFault := code = 0x501 || code = 0x502 || code = 0x503 }

/-- Bits 63:57 of a virtual address all equal bit 56 (R245). -/
def canonical57 (va : Nat) : Bool := field va 56 8 = 0 || field va 56 8 = 255

/-! ### PTE fields -/

def pteLeaf (e : Nat) : Bool := field e 1 3 ≠ 0
def ptePpn (e : Nat) : Nat := field e 10 44
def ptePbmt (e : Nat) : Nat := field e 61 2
def pteRsw (e : Nat) : Nat := field e 8 2

/-- The structural checks of R245, R246 and R257 on a PTE read at a level: false gives PTE_INVALID.
`attached` contexts give RSW a meaning; `hostOk` says HOST_TRANSLATION is enabled (R399). The PPN of a
host leaf is ignored. -/
def pteWellFormed (level e : Nat) (attached hostOk : Bool) : Bool :=
  let leaf := pteLeaf e
  let n := e.testBit 63
  let hostLeaf := attached && leaf && pteRsw e = 1
  field e 54 7 = 0 && ptePbmt e ≠ 3
    && (!leaf || !(e.testBit 2 && !e.testBit 1))
    && (!n || (leaf && level = 0 && (hostLeaf || ptePpn e % 16 = 8)))
    && (leaf || (field e 6 2 = 0 && !e.testBit 4 && !n && ptePbmt e = 0 && level ≠ 0))
    && (!leaf || level ≠ 4)
    && (!leaf || hostLeaf || ptePpn e % 2 ^ (9 * level) = 0)
    && (!(attached && leaf) || pteRsw e = 0 || (pteRsw e = 1 && hostOk))

/-- log2 of the pages a leaf maps (R245). -/
def leafLog2 (level e : Nat) : Nat := if e.testBit 63 then 4 else 9 * level

/-- The physical address a leaf gives to a virtual address. -/
def leafPa (e log2p va : Nat) : Nat :=
  let base := ptePpn e / 2 ^ log2p * 2 ^ log2p
  4096 * base + va % (4096 * 2 ^ log2p)

/-- The permission, A and D checks of a leaf (R247): the fault code, if any. -/
def leafCheck (e : Nat) (acc : AccessKind) : Option Nat :=
  let granted := e.testBit 4 && (!needsR acc || e.testBit 1) && (!needsW acc || e.testBit 2) && (acc ≠ 3 || e.testBit 3)
  if !granted then some 0x502
  else if !e.testBit 6 || (needsW acc && !e.testBit 7) then some 0x503
  else none

/-! ### What backs a physical address -/

/-- The companion window: backed where an offered window of GL18 covers it (R285).
(DESIGN CHOICE, log 115.) -/
def State.companionBacked (s : State) (off : Nat) : Bool :=
  (s.link 18).offered.any fun w =>
    let b := 2 ^ 30 * field w.toNat 30 18
    decide (b ≤ off) && decide (off < b + 2 ^ 30 * field w.toNat 12 18)

def State.aperture (s : State) (j : Nat) : Nat := (sgetD s.net.apertures j 0).toNat

/-- An aperture that carries a partition's accesses: VALID, owned by it, its group open (R303). -/
def State.apertureOpen (s : State) (p off : Nat) : Bool :=
  let e := s.aperture (off / 2 ^ 35)
  e.testBit 127 && field e 124 3 = p && field (s.groupEntry (field e 112 12)) 0 3 = 1

/-- Whether a physical address is backed for a partition's engines (R15, R16, R249). -/
def State.backedFor (s : State) (p pa : Nat) : Bool :=
  match window pa with
  | .hbm _ _ | .aliasWindow _ | .tier2 _ _ => match s.keyAddr pa with
    | some k => s.partHolds p k
    | none => false
  | .companion off => s.companionBacked off
  | .regs off => decide (off / 2 ^ 33 < 8) || (decide (off / 2 ^ 33 = 8) && (s.die 8 = 1 || s.die 8 = 2))
  | .net off => s.apertureOpen p off
  | .host port _ => port = s.partPort p
  | .reserved => false

/-- The feature bit a window needs (R78, R399). -/
def windowFeature (pa : Nat) : Option Nat :=
  match window pa with
  | .net _ => some 2
  | .host _ _ => some 3
  | .companion _ => some 5
  | _ => none

/-! ### TLBs (R251, R252) -/

def TlbEntry.covers (e : TlbEntry) (p asid vpn : Nat) : Bool :=
  e.part = p && e.asid = asid && e.vpn / 2 ^ e.log2pages = vpn / 2 ^ e.log2pages && e.vpn ≤ vpn

/-- The micro-TLB holds 64 leaves, least recently used replaced (R251). -/
def State.utlbPut (s : State) (cl : Nat) (e : TlbEntry) : State :=
  s.modCluster cl fun c => { c with utlb := (e :: c.utlb.filter fun x => x ≠ e).take 64 }
/-- The die TLB holds 16,384 leaves; the oldest gives way (R252; DESIGN CHOICE, log 13). -/
def State.dtlbPut (s : State) (d : Nat) (e : TlbEntry) : State :=
  s.setDx d { s.dx d with tlb := (e :: (s.dx d).tlb.filter fun x => x ≠ e).take 16384 }
/-- Drop a leaf from the micro-TLB and the die TLB (R253); host entries stay (R260). -/
def State.tlbDrop (s : State) (cl d : Nat) (p asid vpn : Nat) : State :=
  let keep := fun (l : List TlbEntry) => l.filter fun e => e.host.isSome || !e.covers p asid vpn
  let s := s.modCluster cl fun c => { c with utlb := keep c.utlb }
  s.setDx d { s.dx d with tlb := keep (s.dx d).tlb }
/-- Keep a non-leaf entry in the walk cache of 1,024 (R252). -/
def State.walkPut (s : State) (d : Nat) (e : WalkEntry) : State :=
  s.setDx d { s.dx d with walks := (e :: (s.dx d).walks.filter fun x => x ≠ e).take 1024 }

/-- The deepest cached table for a page: the level of the table to read next and its page number. -/
def State.walkStart (s : State) (d p asid vpn root : Nat) : Nat × Nat :=
  let hit := fun (l : Nat) => (s.dx d).walks.find? fun e =>
    e.part = p && e.asid = asid && e.level = l && e.prefixVpn = vpn / 2 ^ (9 * l)
  match hit 1 with
  | some e => (0, e.table)
  | none => match hit 2 with
    | some e => (1, e.table)
    | none => match hit 3 with
      | some e => (2, e.table)
      | none => match hit 4 with
        | some e => (3, e.table)
        | none => (4, root)

/-! ### The walk (R245 to R248) -/

/-- What a walk ends in. -/
inductive WalkResult where
  | leaf (e level addr : Nat)
  | fault (code level addr : Nat)
  | dead (line : Nat)
  | busy
  deriving DecidableEq, Repr

/-- Walk from a table at a level down. Reads are coherent and allocate in the L2 with the normal hint;
a poisoned PTE, or a table outside node memory the partition holds, is WALK_ERROR. -/
def State.walk : Nat → State → (cl p asid vpn level table : Nat) → (attached hostOk : Bool) → (lastRead : Nat) → State × WalkResult
  | 0, s, _, _, _, _, level, _, _, _, lastRead => (s, .fault 0x504 level lastRead)
  | fuel + 1, s, cl, p, asid, vpn, level, table, attached, hostOk, lastRead =>
    let a := 4096 * table + 8 * (vpn / 2 ^ (9 * level) % 512)
    match s.keyAddr a with
    | none => (s, .fault 0x507 level lastRead)
    | some k =>
      if !s.partHolds p k then (s, .fault 0x507 level lastRead)
      else match s.walkRead cl (lineOf k) (BitVec.ofNat 4 (1 <<< (k % 128 / 32))) with
        | none => (s, .busy)
        | some (s, r) =>
          if r.tomb then (s, .dead (lineOf k))
          else if r.poison ≠ 0 then (s, .fault 0x507 level a)
          else
            let e := field r.data (8 * (k % 128)) 64
            if !e.testBit 0 then (s, .fault 0x501 level a)
            else if !pteWellFormed level e attached hostOk then (s, .fault 0x504 level a)
            else if ptePpn e ≥ 2 ^ 36 ∧ ¬ (attached = true ∧ pteLeaf e = true ∧ pteRsw e = 1) then (s, .fault 0x505 level (4096 * ptePpn e))
            else if pteLeaf e then (s, .leaf e level a)
            else
              let next := ptePpn e
              let held := match s.keyAddr (4096 * next) with
                | some k => s.partHolds p k
                | none => false
              if !held then (s, .fault 0x507 level a)
              else
                let s := s.walkPut (clusterDie cl) { part := p, asid := asid, level := level, prefixVpn := vpn / 2 ^ (9 * level), table := next }
                s.walk fuel cl p asid vpn (level - 1) next attached hostOk a

/-! ### Host leaves (R259 to R261) -/

/-- The group key that stands for a launch's own translations, by the cluster whose TLBs they use.
(DEDUCED, log 47.) -/
def launchWaiter (cl : Nat) : Nat := 2 ^ 20 + 64 * cl
/-- The group key that stands for a cluster's prefetches, which fault no group (R163). -/
def prefetchWaiter (cl : Nat) : Nat := 2 ^ 21 + 64 * cl

/-- A translation a launch waited for has failed: the launch is told once.
(DEDUCED, log 98.) -/
def State.takeFailed (s : State) (p ctx va : Nat) (who : Nat × Option Nat) : Option State :=
  let mine := fun (x : HostXlate) => x.failed && x.part = p && x.ctx = ctx && x.va = BitVec.ofNat 64 (4096 * (va / 4096))
    && x.waiters.any fun w => w.group = who.1
  if s.host.ats.any mine then some { s with host := { s.host with ats := s.host.ats.filter fun x => !mine x } } else none

/-- Ask the host for a translation, or join the request already sent (R259). -/
def State.askHost (s : State) (p ctx va leaf : Nat) (acc : AccessKind) (who : Nat × Option Nat) : State :=
  let page := 4096 * (va / 4096)
  let port := s.partPort p
  let vf := s.partVf p
  let same := fun (x : HostXlate) => x.port = port && x.part = p && x.ctx = ctx && x.va = BitVec.ofNat 64 page && x.write = needsW acc && !x.failed
  let me : XlWaiter := { group := who.1, xfer := who.2, va := va, access := acc, leaf := leaf }
  if s.host.ats.any same then
    { s with host := { s.host with ats := modFirst same (fun x => { x with waiters := if x.waiters.any (fun w => w.group = who.1 && w.xfer = who.2) then x.waiters else x.waiters ++ [me] }) s.host.ats } }
  else
    let tag := s.host.nextAts
    let req : HostXlate := { port := port, vf := vf, tag := tag, part := p, ctx := ctx, va := BitVec.ofNat 64 page,
                             write := needsW acc, pri := false, waiters := [me] }
    let s := { s with host := { s.host with ats := s.host.ats ++ [req], nextAts := tag + 1 } }
    (s.count 0x6030 2 1).send (.atsRequest port vf tag (BitVec.ofNat 64 page) (needsW acc) (s.ctxPasid p ctx))

/-- Finish an access through a host leaf of a PBMT: the translated host address, below 32 TiB, lies in the
port's window; a miss asks the host, or faults at once when PRI has been stopped or a root port offers no function (R246,
R259, R261, R340; DEDUCED, log 159). `leaf` is
the PTE's address on a walk and 0 on a hit. -/
def State.hostAccess (s : State) (cl p ctx va leaf pbmt : Nat) (acc : AccessKind) (who : Nat × Option Nat) : State × XlResult :=
  let asid := s.ctxAsid p ctx
  let vpn := va / 4096 % 2 ^ 45
  let hit := fun (e : TlbEntry) => e.host.isSome && e.covers p asid vpn && (match e.host with
    | some (_, r, w) => (if needsW acc then w else true) && (if needsR acc || acc = 3 then r else true)
    | none => false)
  let d := clusterDie cl
  let failed := XlResult.fault (xlFault 0x508 acc 7 ctx true leaf va)
  let use := fun (e : TlbEntry) => match e.host with
    | some (h, _, _) =>
      let a := h / (4096 * 2 ^ e.log2pages) * (4096 * 2 ^ e.log2pages) + va % (4096 * 2 ^ e.log2pages)
      if a ≥ 2 ^ 45 then failed else .ok (0xC00000000000 + 0x200000000000 * s.partPort p + a) pbmt true
    | none => .wait
  match (s.cluster cl).utlb.find? hit with
  | some e => (s.utlbPut cl e, use e)
  | none => match (s.dx d).tlb.find? hit with
    | some e => (s.utlbPut cl e, use e)
    | none =>
      if (s.partFn p).priStopped || s.rootRole (s.partPort p) then (s, failed)
      else match s.takeFailed p ctx va who with
        | some s => (s, failed)
        | none => (s.askHost p ctx va leaf acc who, .wait)

/-! ### Translation of one access -/

/-- The checks after a leaf is known, on a walk or on a TLB hit (R246 step 5, R249, R253, R399): `addr`
is the PTE's address on a walk and 0 on a hit. -/
def State.useLeaf (s : State) (cl p ctx : Nat) (feat : Nat → Bool) (e level log2p addr va : Nat) (acc : AccessKind)
    (who : Nat × Option Nat) : State × XlResult :=
  let asid := s.ctxAsid p ctx
  let vpn := va / 4096 % 2 ^ 45
  let hostLeaf := s.ctxAttached p ctx && pteRsw e = 1
  match leafCheck e acc with
  | some code => (s.tlbDrop cl (clusterDie cl) p asid vpn, .fault (xlFault code acc level ctx hostLeaf addr va))
  | none =>
    if hostLeaf then
      (match s.hostAccess cl p ctx va addr (ptePbmt e) acc who with
       | (s, .ok pa pbmt t) => if !feat 3 ∧ acc ≠ 3 then (s, .fault { code := 0x103, arg0 := 3 }) else (s, .ok pa pbmt t)
       | r => r)
    else
      let pa := leafPa e log2p va
      match windowFeature pa with
      | some f =>
        if !feat f ∧ acc ≠ 3 then (s, .fault { code := 0x103, arg0 := f })
        else if s.backedFor p pa then (s, .ok pa (ptePbmt e) false)
        else (s, .fault (xlFault 0x506 acc level ctx false pa va))
      | none =>
        if s.backedFor p pa then (s, .ok pa (ptePbmt e) false)
        else (s, .fault (xlFault 0x506 acc level ctx false pa va))

/-- Translate a virtual address in a context of a partition, through a cluster's TLBs (R245 to R253).
`feat` says which window features the accessor has. -/
def State.translateAs (s : State) (cl p ctx : Nat) (feat : Nat → Bool) (va : Nat) (acc : AccessKind) (who : Nat × Option Nat) :
    State × XlResult :=
  let d := clusterDie cl
  if !s.ctxValid p ctx then (s, .fault (xlFault 0x509 acc 4 ctx false 0 va))
  else if !canonical57 va then (s, .fault (xlFault 0x504 acc 4 ctx false 0 va))
  else
    let asid := s.ctxAsid p ctx
    let vpn := va / 4096 % 2 ^ 45
    let hit := fun (e : TlbEntry) => e.host.isNone && e.covers p asid vpn
    match (s.cluster cl).utlb.find? hit with
    | some e => (s.utlbPut cl e).useLeaf cl p ctx feat e.pte.toNat e.level e.log2pages 0 va acc who
    | none => match (s.dx d).tlb.find? hit with
      | some e => (s.utlbPut cl e).useLeaf cl p ctx feat e.pte.toNat e.level e.log2pages 0 va acc who
      | none =>
        let s := (s.count 0xA081 2 1).count 0xA081 1 1
        let root := field (s.ctxRoot p ctx) 0 44
        let (level, table) := s.walkStart d p asid vpn root
        match s.walk 5 cl p asid vpn level table (s.ctxAttached p ctx) (s.feature p 65) 0 with
        | (s, .busy) => (s, .busy)
        | (s, .dead line) => (s, .fault { code := 0x801, arg0 := line })
        | (s, .fault code l addr) => (s, .fault (xlFault code acc l ctx false addr va))
        | (s, .leaf e l addr) =>
          let lg := leafLog2 l e
          match s.useLeaf cl p ctx feat e l lg addr va acc who with
          | (s, .fault f) => (s, .fault f)
          | (s, r) =>
            let t : TlbEntry := { part := p, asid := asid, vpn := vpn / 2 ^ lg * 2 ^ lg, log2pages := lg, level := l, pte := BitVec.ofNat 64 e }
            ((s.dtlbPut d t).utlbPut cl t, r)

/-- Translate a virtual address for a kernel's access from a cluster. -/
def State.translate (s : State) (cl : Nat) (kn : Kernel) (va : Nat) (acc : AccessKind) (who : Nat × Option Nat) :
    State × XlResult :=
  s.translateAs cl kn.part kn.ctx kn.feature va acc who

end Sys2Proof.Machine
end

