-- ==== Sys2Proof/Machine/Operands.lean ====
section
/-! DEFINITION. The instruction word (R60), the operand forms with their legality and range checks (R58,
R61, R62, R78), lane registers (R57, R77), and the issue of an instruction by a group: the checks in the
order of R78, then its effect. -/
namespace Sys2Proof

/-! ### Fields (R60) -/

def Fields.rs2 (w : Fields) : Nat := Machine.field w.low.toNat 16 8
def Fields.rs3 (w : Fields) : Nat := Machine.field w.low.toNat 8 8
def Fields.aux (w : Fields) : Nat := Machine.field w.low.toNat 0 8
/-- IMM24 sign-extended. -/
def Fields.imm (w : Fields) : Int := Machine.sext 24 w.low.toNat
def Fields.immU (w : Fields) : Nat := w.low.toNat
def Fields.ri (w : Fields) : Bool := w.form = 1
def Fields.hint (w : Fields) : Nat := Machine.field w.mod.toNat 4 2
def Fields.scope (w : Fields) : Nat := Machine.field w.mod.toNat 1 3
def Fields.space (w : Fields) : Bool := w.mod.toNat.testBit 0
def Fields.ty (w : Fields) : Nat := w.type.toNat
/-- The CLASS and OP of the word (R60). -/
def Fields.code (w : Fields) (cls op : Nat) : Nat × Nat :=
  match w.other with
  | none => (cls, op)
  | some c => (c.toNat / 256, c.toNat % 256)
/-- The instruction word. -/
def Fields.word (w : Fields) (cls op : Nat) : W64 :=
  BitVec.ofNat 64 ((w.code cls op).1 <<< 60 ||| (w.code cls op).2 <<< 52 ||| w.type.toNat <<< 48 ||| w.form.toNat <<< 46 ||| w.mod.toNat <<< 40
    ||| w.rd.toNat <<< 32 ||| w.rs1.toNat <<< 24 ||| w.low.toNat)

end Sys2Proof

namespace Sys2Proof.Machine

/-- What a meaning of this model answers: every command of the table has an effect. -/
abbrev Answer := Host.Outcome State Fault Refusal

/-- Whether a scalar TYPE takes a register pair (R58, R61). -/
def wide (ty : Nat) : Bool := ty = 2 || ty = 3 || ty = 5

/-! ### Operand signatures -/

/-- What a register field of an operation holds: nothing (zero), one register, a pair, a vector
register, a mask register, or a value with a check of its own. -/
inductive Opnd where
  | zero | r | p | v | m | any
  deriving DecidableEq, Repr

/-- The register or pair of a scalar TYPE. -/
def Opnd.ofType (ty : Nat) : Opnd := if wide ty then .p else .r

/-- The operand form of an operation for one word: whether the encoding is defined apart from the
register fields, and what each register field holds. -/
structure Sig where
  legal : Bool
  rd : Opnd := .zero
  rs1 : Opnd := .zero
  rs2 : Opnd := .zero
  rs3 : Opnd := .zero
  /-- registers that belong to the operation and have no field of their own -/
  extra : List (Opnd × Nat) := []
  deriving DecidableEq, Repr

/-- The register fields with what they hold; RS2 and RS3 exist in the RRR form alone. -/
def Sig.fields (g : Sig) (w : Fields) : List (Opnd × Nat) :=
  [(g.rd, w.rd.toNat), (g.rs1, w.rs1.toNat)] ++ (if w.ri then [] else [(g.rs2, w.rs2), (g.rs3, w.rs3)]) ++ g.extra

/-- The word names an operation that is not its row's, so that it is another row's command. -/
def foreignWord (w : Fields) : Bool := w.other.any fun c => (rowOf (c.toNat / 256) (c.toNat % 256) w).isSome

/-- ILLEGAL_INSTRUCTION: a reserved CLASS or OP, reserved fields, undefined MOD values, unused fields not
zero (R61). -/
def Sig.illegal (g : Sig) (w : Fields) : Bool :=
  w.other.isSome || !g.legal || w.form.toNat ≥ 2 || (g.fields w).any fun (o, x) => (o = .zero && x ≠ 0) || (o = .m && x ≥ 8)

/-- REGISTER_RANGE, REGISTER_PAIR and VREG_RANGE, in the order of the fault table (R78): within one
fault the fields are taken from RD to RS3. -/
def Sig.range (g : Sig) (w : Fields) (gr : Group) : Option FaultInfo :=
  let fs := g.fields w
  match fs.find? (fun (o, x) => (o = .r || o = .p) && x ≥ gr.regCount) with
  | some (_, x) => some { code := 0x104, arg0 := x, arg1 := gr.regCount }
  | none => match fs.find? (fun (o, x) => o = .p && x % 2 = 1) with
    | some (_, x) => some { code := 0x105, arg0 := x }
    | none => match fs.find? (fun (o, x) => o = .v && x ≥ gr.vregCount) with
      | some (_, x) => some { code := 0x106, arg0 := x, arg1 := gr.vregCount }
      | none => none

/-! ### Lane registers -/

def Group.reg (g : Group) (lane r : Nat) : Nat := (sgetD g.regs (256 * lane + r) 0).toNat
def Group.pair (g : Group) (lane r : Nat) : Nat := g.reg lane r + 2 ^ 32 * g.reg lane (r + 1)
/-- A register, or a pair when wide. -/
def Group.get (g : Group) (lane r : Nat) (w : Bool) : Nat := if w then g.pair lane r else g.reg lane r
def Group.setReg (g : Group) (lane r v : Nat) : Group :=
  { g with regs := sput g.regs (256 * lane + r) (BitVec.ofNat 32 v) 0 }
def Group.set (g : Group) (lane r : Nat) (w : Bool) (v : Nat) : Group :=
  if w then (g.setReg lane r v).setReg lane (r + 1) (v / 2 ^ 32) else g.setReg lane r v
/-- Lanes whose active bit is set, rising. -/
def Group.lanes (g : Group) : List Nat := setBits g.active.toNat 32
def Group.launchLanes (g : Group) : List Nat := setBits g.launch.toNat 32
/-- The lowest-numbered lane of the launch mask, which group-wide operands come from (R77). -/
def Group.lead (g : Group) : Nat := g.launchLanes.headD 0
/-- Write a result to every lane of the launch mask (R77). -/
def Group.setAll (g : Group) (r : Nat) (w : Bool) (v : Nat) : Group := g.launchLanes.foldl (fun g l => g.set l r w v) g
/-- Write a result to every active lane. -/
def Group.setActive (g : Group) (r : Nat) (w : Bool) (f : Nat → Nat) : Group := g.lanes.foldl (fun x l => x.set l r w (f l)) g
def Group.flag (g : Group) (f : Flags) : Group := { g with flags := g.flags ||| f }
/-- The group moves on to the next instruction; one more of its instructions has issued. -/
def Group.next (g : Group) : Group := { g with pc := g.pc + 8, issued := g.issued + 1, wait := .ready }

/-! ### Issue -/

/-- What an instruction does once its checks have passed: it is done, faults in execution, or is not
ready and stays at its place (R70). The state carries what looking up did to TLBs and caches. -/
inductive Eff where
  | done (s : State)
  | fault (s : State) (f : FaultInfo)
  | hold (s : State)

/-- Hold a group in an instruction that stalls it. -/
def State.stallIn (s : State) (gk : Nat) (g : Group) (word : W64) : Eff := .hold (s.setGroup gk { g with wait := .stall word })

/-- A line's data as coherent readers see it, without touching any cache: its responder's or the home
half's sectors, memory otherwise. -/
def State.peekLine (s : State) (line : Nat) : Nat × Nat :=
  let home := s.home line
  let (d, p) := s.homeMemory home line
  match ((s.agent home).entry? line).bind fun e => e.resp with
  | some r => match (s.agent r).copy? line with
    | some c => (mergeSectors c.valid.toNat d c.data.toNat, (p &&& (15 ^^^ c.valid.toNat)) ||| (c.poison.toNat &&& c.valid.toNat))
    | none => (d, p)
  | none => (d, p)

/-- SOURCE of a poison fault by where the bytes lie (R367). -/
def poisonSource (pa : Nat) : Nat :=
  match window pa with
  | .hbm _ _ | .aliasWindow _ => 0
  | .tier2 _ _ => 1
  | .net _ => 2
  | .host _ _ => 3
  | _ => 4

/-- POISON_CONSUMED with its detail (R367). -/
def poisonFault (source acc pa va : Nat) : FaultInfo :=
  { code := 0x701, detail := some (va % 2 ^ 64 ||| (pa % 2 ^ 48) <<< 64 ||| acc <<< 120 ||| source <<< 124) }

/-- SRAM_UNCORRECTABLE with its detail: SOURCE, ACCESS and the scratchpad offset of the lowest byte (R365, R367). -/
def sramFault (source acc off : Nat) : FaultInfo :=
  { code := 0x702, detail := some ((off % 2 ^ 48) <<< 64 ||| acc <<< 120 ||| source <<< 124) }

/-- A group's unit reads byte ranges of a cluster's scratchpad: the fault of the lowest byte in error (R365). -/
def State.meetScratch (s : State) (cl acc : Nat) (ranges : List (Nat × Nat)) : State × Option FaultInfo :=
  match s.meetArrays .scratchpad cl 3 fun a => ranges.any fun r => decide (r.1 ≤ a ∧ a < r.1 + r.2) with
  | (s, []) => (s, none)
  | (s, u :: us) => (s, some (sramFault 5 acc (us.foldl (fun m x => if x.entry < m then x.entry else m) u.entry)))

/-- A group's unit reads registers, or an accumulator tile, of its own: the fault (R365). -/
def State.meetEntries (s : State) (kind : ArrayKind) (place source acc : Nat) (p : Nat → Bool) : State × Option FaultInfo :=
  match s.meetArrays kind place 3 p with
  | (s, []) => (s, none)
  | (s, _ :: _) => (s, some (sramFault source acc 0))

/-- The instruction fetch at the program counter: CODE_RANGE, translation for fetch, poison (R73, R247,
R366). The word itself is the command's.
(DESIGN CHOICE, log 109.) -/
def State.fetchCheck (s : State) (gk : Nat) (g : Group) (kn : Kernel) : State × XlResult :=
  let base := kn.image.toNat + kn.header.codeOff
  let pc := g.pc.toNat
  if pc % 8 ≠ 0 ∨ pc < base ∨ pc ≥ base + kn.header.codeSize then (s, .fault { code := 0x101, arg0 := pc })
  else match s.translate (gcluster gk) kn pc 3 (gk, none) with
    | (s, .ok pa b t) =>
      (match s.keyAddr pa with
       | some k =>
         let line := lineOf k
         let bad := !s.reachesLine (clusterDie (gcluster gk)) line || (s.peekLine line).2.testBit (k % 128 / 32)
         if bad then (s, .fault (poisonFault (if s.reachesLine (clusterDie (gcluster gk)) line then poisonSource pa else 4) 3 pa pc))
         else (s, .ok pa b t)
       | none => (s, .ok pa b t))
    | r => r

/-- The group whose turn it may be: resident, not halted, some lane left, its kernel running, and ready
or stalled in this very instruction (R70).
(DESIGN CHOICE, log 74.) -/
def State.issuable (s : State) (gk : Nat) (word : W64) : Option (Group × Kernel) :=
  match s.group? gk with
  | none => none
  | some g => match s.kernel? g.kernel with
    | none => none
    | some kn =>
      if g.halted || g.launch = 0 || kn.phase ≠ .running then none
      else if g.wait = .ready || g.wait = .stall word then some (g, kn) else none

/-- The registers an instruction reads, vector registers from 256 on: stores, atomics and VXST read RD too. -/
def Sig.reads (g : Sig) (cls op : Nat) (w : Fields) : List Nat :=
  let rd := if (cls = 6 ∧ 9 ≤ op) ∨ (cls = 10 ∧ op = 3) then [(g.rd, w.rd.toNat)] else []
  let rs := if w.ri then [] else [(g.rs2, w.rs2), (g.rs3, w.rs3)]
  (rd ++ [(g.rs1, w.rs1.toNat)] ++ rs ++ g.extra).flatMap fun (o, x) =>
    match o with
    | .r => [x]
    | .p => [x, x + 1]
    | .v => [256 + x]
    | _ => []

/-- Issue one instruction (R78): fetch checks, ILLEGAL_INSTRUCTION, features, register and resource
ranges, DIVERGENT_GROUP_OP for group-wide ones (R76), then its effect with the faults found in
execution, a register in error first among them (R365). A record of a failed fetch has no word, so its INSTR is a free value, CODE_RANGE included
(DESIGN CHOICE, log 109). A word of another row's operation is not this command. -/
def State.issue (s : State) (id : GroupId) (cls op : Nat) (w : Fields) (sig : Sig) (groupWide : Bool)
    (feature : Kernel → Option Nat) (ranges : Kernel → Group → Option FaultInfo)
    (run : State → Nat → Group → Kernel → Eff) : State :=
  let gk := gkey id
  let word := w.word cls op
  match s.issuable gk word with
  | none => s
  | some (g, kn) =>
    match s.fetchCheck gk g kn with
    | (u, .fault f) => u.useFree.takeFault gk g u.freeWord f
    | (u, .wait) => u.setGroup gk { g with wait := .stall word }
    | (u, .busy) => u
    | (u, .ok _ _ _) =>
      if sig.illegal w then if foreignWord w then s else u.takeFault gk g word { code := 0x102 }
      else match feature kn with
        | some b => u.takeFault gk g word { code := 0x103, arg0 := b }
        | none => match sig.range w g with
          | some f => u.takeFault gk g word f
          | none => match ranges kn g with
            | some f => u.takeFault gk g word f
            | none =>
              if groupWide ∧ g.active ≠ g.launch then u.takeFault gk g word { code := 0x108 }
              else match u.meetEntries .registers gk 6 0 (sig.reads cls op w).contains with
                | (u, some f) => u.takeFault gk g word f
                | (u, none) => match run u gk g kn with
                  | .done s => s
                  | .fault s f => s.takeFault gk g word f
                  | .hold s => s

/-- Issue an instruction without features or further ranges whose effect is on its own group alone. -/
def State.issueGroup (s : State) (id : GroupId) (cls op : Nat) (w : Fields) (sig : Sig)
    (f : State → Nat → Group → Kernel → Except FaultInfo Group) : State :=
  s.issue id cls op w sig false (fun _ => none) (fun _ _ => none) fun s gk g kn =>
    match f s gk g kn with
    | .ok g => .done (s.setGroup gk g)
    | .error e => .fault s e

/-- A lane-wise operation: every active lane's result from its own registers, with flags (R93). -/
def Group.laneOp (g : Group) (rd : Nat) (wd : Bool) (f : Nat → Nat × Flags) : Group :=
  g.lanes.foldl (fun x l => let (v, fl) := f l; (x.set l rd wd v).flag fl) g

end Sys2Proof.Machine
end

