-- ==== Sys2Proof/Machine/Image.lean ====
section
/-! DEFINITION. Firmware images: layout, signature blocks and the checks of R411, ownership as the
security record holds it (R417), and the recovery loader's registers (R416). -/
namespace Sys2Proof.Machine

/-- An ASCII string as bytes. -/
def ascii (t : String) : Bytes := t.toList.map fun c => BitVec.ofNat 8 c.toNat
/-- Whether every byte of a list is zero. -/
def allZero (b : Bytes) : Bool := b.all fun x => x = 0
/-- The bytes of a 512-bit hash, in the order SHA3-512 gives them. -/
def hashBytes (h : BitVec 512) : Bytes := toBE 64 h.toNat

/-! ### Ownership (R417) -/

/-- The valid security record: the copy whose generation is flash counter 1. -/
def State.security (s : State) : Option SecurityRecord := s.boot.records.find? fun r => r.generation = s.boot.counter1
def State.owned (s : State) : Bool := s.boot.counter1 % 2 = 1
/-- The enrolled owner key hash, zero when unowned. -/
def State.ownerHash (s : State) : BitVec 512 := if s.owned then (s.security.map (·.ownerHash)).getD 0 else 0

/-! ### Image layout (R409) -/

def imgSvn (b : Bytes) : Nat := le b 20 4
def imgVersion (b : Bytes) : Nat := le b 16 4
def imgSigOff (b : Bytes) : Nat := le b 12 4
def imgSize (b : Bytes) : Nat := le b 8 4
/-- The image digest (R410). -/
def imgDigest (b : Bytes) : BitVec 512 := Config.sha3_512 (slice b 0 (imgSigOff b))

/-- One section entry: reserved fields zero, a defined kind and target, below SIGOFF. -/
def sectionOk (b : Bytes) (i : Nat) : Bool :=
  let o := 64 + 32 * i
  let kind := le b o 1
  let target := le b (o + 1) 1
  1 ≤ kind && kind ≤ 5 && (target < 9 || target = 0xFF) && le b (o + 2) 2 = 0 && allZero (slice b (o + 12) 20)
    && le b (o + 4) 4 + le b (o + 8) 4 ≤ imgSigOff b

/-- The FORMAT check of R411. -/
def imgFormatOk (b : Bytes) : Bool :=
  let n := le b 6 2
  le b 0 4 = 0x4657494D && le b 4 2 = 1 && le b 28 2 = 0x4620 && le b 26 2 = 0 && allZero (slice b 30 34)
    && imgSigOff b % 4096 = 0 && imgSize b = imgSigOff b + 16384 && imgSize b ≤ 16777216 && imgSize b ≤ b.length
    && 1 ≤ n && n ≤ 16 && 64 + 32 * n ≤ imgSigOff b
    && (List.range n).all (fun i => sectionOk b i)
    && (List.range 5).all fun k => (List.range n).any fun i => le b (64 + 32 * i) 1 = k + 1

/-- A signature block over a digest: its layout, its key's hash and its signature (R409, R410). -/
def signedBy (block : Bytes) (kind : Nat) (keyHash : BitVec 512) (digest : BitVec 512) (context : String) : Bool :=
  let key := slice block 16 2592
  block.length = 8192 && le block 0 4 = 0x53474942 && le block 4 2 = kind && allZero (slice block 6 10) && allZero (slice block 7235 957)
    && Config.sha3_512 key == keyHash
    && Config.mldsaVerify key (hashBytes digest) (ascii context) (slice block 2608 4627)

/-- The checks of R411 in order: 0 when all pass, else the code reported. -/
def State.imageCheck (s : State) (b : Bytes) : Nat :=
  if !imgFormatOk b then 0x10
  else if le b 24 2 > 1 then 0x11
  else if !signedBy (slice b (imgSigOff b) 8192) 1 Config.vendorKeyHash (imgDigest b) "CGV4620-FW" then 0x12
  else if s.owned && !signedBy (slice b (imgSigOff b + 8192) 8192) 2 s.ownerHash (imgDigest b) "CGV4620-FW" then 0x13
  else if imgSvn b < s.boot.counter0 then 0x14
  else 0

/-! ### Recovery registers (R416) -/

/-- The recovery loader runs. -/
def State.recovering (s : State) : Bool := s.boot.stage = 0x80
/-- The image bytes in the recovery window. -/
def State.recBytes (s : State) : Bytes := (List.range (least16M s.boot.recSize.toNat)).map fun i => sgetD s.boot.recWindow i 0
where
  /-- The window is 16 MiB. -/
  least16M (n : Nat) : Nat := if n < 16777216 then n else 16777216

/-- Check an image and, when it passes, start writing it to flash. -/
def State.recCheck (s : State) (b : Bytes) : State :=
  let c := s.imageCheck b
  if c = 0 then { s with boot := { s.boot with recStatus := 2, image := some b, imageValid := false } }
  else ({ s with boot := { s.boot with recStatus := c } }).count 0x9090 1 1

/-- The recovery source as stored: the ROM takes OD 9040h/02 from the settings section. -/
def State.recoverySource (s : State) : Nat := sgetD (s.dict.stored.getD []) (odKey 0x9040 2) 0

/-- A write of REC_GO: ignored unless the loader takes images over PCIe, and is idle or has failed. -/
def State.recGo (s : State) : State :=
  if s.recovering ∧ s.recoverySource ≠ 2 ∧ (s.boot.recStatus = 0 ∨ s.boot.recStatus ≥ 0x10) then s.recCheck s.recBytes else s

end Sys2Proof.Machine
end

