-- ==== Sys2Proof/Machine/Power.lean ====
section
/-! DEFINITION. Power: the operating point of each half from the forces on it, the power manager's control
period, limiters, the alert path, caps, telemetry and the manager's loss (R343 to R360). -/
namespace Sys2Proof.Machine

def State.half (s : State) (h : Nat) : Half := sgetD s.power.halves h {}
def State.setHalf (s : State) (h : Nat) (x : Half) : State := { s with power := { s.power with halves := sput s.power.halves h x {} } }
def State.modHalf (s : State) (h : Nat) (f : Half → Half) : State := s.setHalf h (f (s.half h))
def State.dpow (s : State) (d : Nat) : DiePower := sgetD s.power.dies d {}
def State.modDpow (s : State) (d : Nat) (f : DiePower → DiePower) : State :=
  { s with power := { s.power with dies := sput s.power.dies d (f (s.dpow d)) {} } }
def State.thermal (s : State) (k : Nat) : Thermal := sgetD s.power.thermal k {}

/-! ### Points (R343, R344, R348) -/

/-- Clock of a point in MHz. -/
def pointClock (p : Nat) : Nat := 450 + 150 * p
/-- Bubble limit of a point: floor(16 × (1 − 600 MHz / clock)) (R343, R353). -/
def bubbleLimit (p : Nat) : Nat := 16 * (pointClock p - 600) / pointClock p

/-- Whether a group is resident: lanes left, or work of it left in the engines (R74). -/
def State.resident (s : State) (gk : Nat) (g : Group) : Bool :=
  let c := s.cluster (gcluster gk)
  let l := gk % 64
  !g.halted && (g.launch ≠ 0 || c.mxq.any (fun e => e.group = l) || c.slip.any (fun e => e.group = l)
    || c.vxq.any (fun e => e.group = l) || c.xfers.any fun e => e.group = l)

/-- The resident groups of a half. -/
def State.halfGroups (s : State) (h : Nat) : Sparse Group :=
  s.groups.filter fun e => clusterHalf (gcluster e.1) = h && s.resident e.1 e.2

/-- The fixed point a half holds: that of a kernel on its clusters (R348). -/
def State.halfFixed (s : State) (h : Nat) : Option Nat :=
  (s.kernels.find? fun e => e.2.fixedPoint.isSome && e.2.allClusters.any fun c => clusterHalf c = h).bind fun e => e.2.fixedPoint

/-- The point of a phase: OPPOINT, with 00h the partition default. -/
def State.phasePoint (s : State) (g : Group) : Nat :=
  match s.kernel? g.kernel with
  | none => 1
  | some k => let p := k.man.phases.getD g.phase 0
    if p = 0 then setting s 0x3021 (k.part + 1) else p

/-- The preferred point of a half, boosts allowed or not (R344, R345). -/
def State.preferred (s : State) (h : Nat) : Nat :=
  match s.halfGroups h with
  | [] => 1
  | gs =>
    let p := gs.foldl (fun m e => if s.phasePoint e.2 > m then s.phasePoint e.2 else m) 1
    if p ≥ 8 ∧ !(s.half h).boost then 7 else p

/-- What a half runs at with no limiting force: 1 without groups, its fixed point, or its preferred
point (ranks 6 and 7). -/
def State.wantedPoint (s : State) (h : Nat) : Nat :=
  if (s.halfGroups h).isEmpty then 1
  else match s.halfFixed h with
    | some p => p
    | none => s.preferred h

/-- The parts whose temperature acts on a Kysar die (R357): itself, its hub, the base dies and DRAM of
its stacks. -/
def thermalSources (d : Nat) : List Nat :=
  [d, 6 + hubOfDie d] ++ ((List.range 4).flatMap fun i => [16 + 4 * d + i, 32 + 4 * d + i])
def State.dieThrottled (s : State) (d : Nat) : Bool := (thermalSources d).any fun k => (s.thermal k).throttle
def State.dieLimited (s : State) (d : Nat) : Bool := (thermalSources d).any fun k => (s.thermal k).limit

/-- The alert or its hold, a thermal limit, or the watchdog holds a half at the fallback clock (R359). -/
def State.fallback (s : State) (h : Nat) : Bool :=
  s.power.alert || s.power.hold || s.dieLimited (h / 2) || (s.dpow (h / 2)).watchdog

/-- The smaller of two numbers. -/
def least (a b : Nat) : Nat := if a < b then a else b

/-- The operating point in force. -/
def State.pointOf (s : State) (h : Nat) : Nat :=
  if s.fallback h then 1
  else
    let x := s.half h
    least (least (s.wantedPoint h) (x.ramp.getD 9)) (least x.capAllowed x.tempAllowed)

/-- The bubble rate in force: at most the bubble limit of the point in force, 0 at the fallback clock (R352, R359). -/
def State.bubbleOf (s : State) (h : Nat) : Nat := if s.fallback h then 0 else least (s.half h).bubble (bubbleLimit (s.pointOf h))

/-- The force that holds a half at the fallback clock, the highest where several do: 2 the alert or its hold, 3 a
thermal limit, 4 the watchdog; 0 none (R359). -/
def State.fallbackRank (s : State) (h : Nat) : Nat :=
  if s.power.alert || s.power.hold then 2
  else if s.dieLimited (h / 2) then 3
  else if (s.dpow (h / 2)).watchdog then 4 else 0

/-- The half power state word (R360): what lowers the clock is the force that governs, and without one of the fallback's
each allowed point below the wanted one (R359). -/
def State.halfWord (s : State) (h : Nat) : Nat :=
  let x := s.half h
  let p := s.pointOf h
  let want := s.wantedPoint h
  let rank := s.fallbackRank h
  let thermal := rank = 3 && decide (1 < want) || rank = 0 && decide (x.tempAllowed < want)
  let capped := rank = 0 && (decide (x.capAllowed < want) || decide (s.bubbleOf h > 0))
  pointClock p <<< 16 ||| s.bubbleOf h <<< 8 ||| p <<< 4 ||| b2n (rank = 2 || rank = 4) <<< 3
    ||| b2n thermal <<< 2 ||| b2n capped <<< 1 ||| b2n (s.halfFixed h).isSome

/-! ### Caps and CLOCKLOST (R317, R349, R356) -/

/-- A half runs below its preferred point, or with bubbles, because of a cap, the alert or temperature: not because of
the watchdog (R356). -/
def State.halfCapped (s : State) (h : Nat) : Bool :=
  s.fallbackRank h ≠ 4 && (decide (s.pointOf h < s.wantedPoint h) || decide (s.bubbleOf h > 0))

/-- The halves of a partition. -/
def State.partHalves (s : State) (p : Nat) : List Nat := (List.range 8).filter fun h => h / (8 / s.parts) = p
def State.partCapped (s : State) (p : Nat) : Bool := (s.partHalves p).any fun h => s.halfCapped h

/-- Set or clear CAP_ENGAGED of a partition's open groups (R317). -/
def State.markCap (s : State) (p : Nat) (on : Bool) : State :=
  let mark := fun (x : Nat) => if field x 8 3 = p ∧ field x 0 3 = 1 then setField x 15 1 (b2n on) else x
  { s with
    power := { s.power with capEngaged := sput s.power.capEngaged p on false }
    net := { s.net with groups := s.net.groups.map fun e => (e.1, BitVec.ofNat 512 (mark e.2.toNat)) } }

/-- After anything that moves a clock: caps engage, and fixed-frequency kernels whose clock was not
theirs are marked. -/
def State.powerSettle (s : State) : State :=
  let s := (List.range s.parts).foldl (fun s p =>
    if s.partCapped p && !sgetD s.power.capEngaged p false then (s.markCap p true).count 0x3040 2 1 else s) s
  s.kernels.foldl (fun s e => match e.2.fixedPoint with
    | none => s
    | some f =>
      let lost := (List.range 8).any fun h => s.pointOf h ≠ f &&
        (s.halfGroups h).any fun g => g.2.kernel = e.1
      if lost && !e.2.clockLost then (s.modKernel e.1 fun k => { k with clockLost := true }).count 0x3040 6 1 else s) s

/-! ### Core frequency (R354) -/

/-- REQ as it is taken: 800 to 3,400 in steps of 100. -/
def coreReq (v : Nat) : Nat :=
  let r := v % 4096 / 100 * 100
  if r < 800 then 800 else if r > 3400 then 3400 else r
/-- The core ceiling that a processor die's cap allows, 800 to 3,400 MHz (R351; DESIGN CHOICE, log 36). -/
def State.capCeiling (s : State) (d : Nat) : Nat := 800 + Config.coreCeiling (setting s 0x3011 (d + 1)) % 2601
/-- The ceiling of a processor die in force: the lower of what its cap, the module cap and its temperature allow
(R351, R357). -/
def State.ceilingOf (s : State) (d : Nat) : Nat :=
  if s.power.alert || s.power.hold || (s.thermal d).limit || (s.dpow d).watchdog then 800
  else least (least (s.dpow d).ceiling (s.capCeiling d)) (s.dpow d).tempCeiling
/-- CORE_FREQ of a hart as read. -/
def State.coreFreq (s : State) (h : Nat) : Nat :=
  let r := (sgetD s.host.harts h {}).freqReq.toNat
  (least r (s.ceilingOf (4 + h / 96))) <<< 16 ||| r

/-! ### Control periods, limiters, telemetry -/

/-- The half caps and core ceilings of a period (R351, R357), from input power and module cap in watts. -/
def State.controlCaps (s : State) (power : Nat) : State :=
  let c := setting s 0x3010 1
  let d := (List.range 4).foldl (fun n i => n + setting s 0x3011 (i + 1)) 0
  let milli := (s.power.periods + 1) % 20 = 0
  let s := (List.range 8).foldl (fun s h =>
    let dc := setting s 0x3011 (h / 2 + 1)
    s.modHalf h fun x =>
      if power > c then { x with cap := dc * 500 - 1000 * ((power - c) * dc) / (2 * d) }
      else if power + 100 ≤ c then { x with cap := least (x.cap + 10000) (dc * 500) }
      else { x with cap := least x.cap (dc * 500) }) s
  [4, 5].foldl (fun s i =>
    let now := least (s.dpow i).ceiling (s.capCeiling i)
    s.modDpow i fun x => { x with
      ceiling := if power > c then (if now < 900 then 800 else now - 100)
        else if power + 100 ≤ c ∧ milli then least (now + 100) (s.capCeiling i) else now
      tempCeiling := if (s.thermal i).throttle then (if x.tempCeiling < 1000 then 800 else x.tempCeiling - 200)
        else if milli then least (x.tempCeiling + 100) 3400 else x.tempCeiling }) s

/-- The points of a half in a period (R345, R352, R355, R357). -/
def State.controlHalf (s : State) (power h : Nat) : State :=
  let d := h / 2
  let milli := (s.power.periods + 1) % 20 = 0
  let p := s.pointOf h
  let boost := setting s 0x3022 1 = 1 && decide (power + 400 ≤ setting s 0x3010 1) &&
    (match (s.dpow d).telemetry with
     | some t => !(s.dpow d).missing && decide (t.power + 100 ≤ setting s 0x3011 (d + 1)) && decide (t.junction < 850)
     | none => false)
  let want := s.wantedPoint h
  s.modHalf h fun x =>
    let cap := if x.atLimit && bubbleLimit p > 0 then (if x.capAllowed ≤ 1 then 1 else least p x.capAllowed - 1)
      else if x.atZero && milli then least (x.capAllowed + 1) 9 else x.capAllowed
    let temp := if s.dieThrottled d then (if x.tempAllowed ≤ 1 then 1 else x.tempAllowed - 1)
      else if milli then least (x.tempAllowed + 1) 9 else x.tempAllowed
    { x with
      capAllowed := if cap = 0 then 1 else cap
      tempAllowed := temp
      boost := boost
      ramp := match x.ramp with
        | some r => if r + 1 ≥ want then none else some (r + 1)
        | none => none
      atLimit := decide (x.bubble = bubbleLimit p)
      atZero := decide (x.bubble = 0) }

/-- CONTROL_PERIOD: the module's input power in watts is measured, and caps, ceilings and points are
set (R351, R352). -/
def execControlPeriod (power : Nat) (s : State) : Answer :=
  let s := s.controlCaps power
  let s := (List.range 8).foldl (fun s h => s.controlHalf power h) s
  .next ({ s with power := { s.power with periods := s.power.periods + 1, lastInput := some power } }).powerSettle

/-- The bubble rate of a limiter period (R352): power and its dynamic part in watts. -/
def bubbleRate (p q cap limit : Nat) : Nat :=
  if 1000 * p ≤ cap then 0
  else
    let e := 1000 * p - cap
    if q = 0 then limit else least ((16 * e + 1000 * q - 1) / (1000 * q)) limit

/-- LIMITER_PERIOD of a half. -/
def execLimiterPeriod (half : Fin 8) (p q : Nat) (s : State) : Answer :=
  let limit := if s.fallback half.val then 0 else bubbleLimit (s.pointOf half.val)
  let n := bubbleRate p q (s.half half.val).cap limit
  let s := s.modHalf half.val fun x => { x with bubble := n, atLimit := x.atLimit && n = limit, atZero := x.atZero && n = 0 }
  let s := if n = 0 then s else
    let s := s.count 0x3040 7 1
    { s with kernels := s.kernels.map fun e =>
        if e.2.allClusters.any (fun c => clusterHalf c = half.val) then (e.1, { e.2 with bubbled := true }) else e }
  .next s.powerSettle

/-- A telemetry record reaches the manager (R350). -/
def execTelemetryRecord (die : Fin 9) (t : Telemetry) (s : State) : Answer :=
  .next (s.modDpow die.val fun x => { x with telemetry := some t, missing := false })

/-- A die silent for 1 ms is counted at its cap, and an event is recorded. -/
def execTelemetryMissing (die : Fin 9) (s : State) : Answer :=
  .next ((s.modDpow die.val fun x => { x with missing := true }).event { cls := 6, code := 0x60, die := 6 + s.power.manager, location := die.val })

/-- A die hears from the manager: it leaves its fallback by the steps of R352 (R275, R358). -/
def execPowerManagerCommand (die : Fin 9) (_heartbeat : Bool) (s : State) : Answer :=
  let d := die.val
  .next (if !(s.dpow d).watchdog then s
    else
      let s := s.modDpow d fun x => { x with watchdog := false, ceiling := 800 }
      let low := fun (s : State) (h : Nat) => s.modHalf h fun x => { x with capAllowed := 1 }
      let s := if d < 4 then low (low s (2 * d)) (2 * d + 1) else s
      s.powerSettle)

/-- A die without manager messages for 1 ms falls back: a Kysar die's halves to the fallback clock, a
processor die's ceiling to 800 MHz; other dies have no fallback (R358). -/
def execDieFallback (die : Fin 9) (s : State) : Answer :=
  .next (if die.val < 6 then (s.modDpow die.val fun x => { x with watchdog := true }).powerSettle else s)

/-- The standby controller takes over after 5 ms without heartbeat, once until node reset. -/
def execManagerTakeover (s : State) : Answer :=
  .next (if s.power.manager = 1 then s
    else (({ s with power := { s.power with manager := 1 } }).count 0x3040 5 1).event { cls := 6, code := 0x61, die := 7 })

/-- PWR_ALERT_N is asserted: every die drops to its lowest state (R355); with PGOOD
deasserted the module only sees the level (R448). -/
def execPwrAlertAssert (s : State) : Answer :=
  .next (if s.power.alert then s
    else
      let t := { s with power := { s.power with alert := true, hold := false } }
      if s.pins.pgood then (t.count 0x3040 1 1).powerSettle else t)
/-- PWR_ALERT_N is released: the 1 ms hold starts. -/
def execPwrAlertRelease (s : State) : Answer :=
  .next (if s.power.alert then { s with power := { s.power with alert := false, hold := true } } else s)
/-- The hold ends: each half steps up by one point at once and by one per period after that. -/
def execAlertHoldExpiry (s : State) : Answer :=
  .next (if s.power.hold then
    let s := { s with power := { s.power with hold := false } }
    ((List.range 8).foldl (fun s h => s.modHalf h fun x => { x with ramp := some 2 }) s).powerSettle
  else s)

/-- The cap of a partition disengages 1 ms after no half of it is capped. -/
def execCapDisengage (p : Fin 8) (s : State) : Answer :=
  .next (if sgetD s.power.capEngaged p.val false && !s.partCapped p.val then s.markCap p.val false else s)

end Sys2Proof.Machine
end

