-- ==== Sys2Proof/Machine/NetBase.lean ====
section
/-! DEFINITION. The crossing transport: group table, member records, flows, packets and their ports,
operations and what their failure does at the source (R288 to R302, R307, R308, R317). -/
namespace Sys2Proof.Machine

/-! ### Coherent reads that change no cache (DEDUCED, log 15) -/

/-- Bytes of node memory as coherent readers see them, and whether any is poisoned or unbacked. -/
def State.peekBytes (s : State) (a n : Nat) : Bytes × Bool :=
  (lineParts (n / 128 + 2) a n).foldl (fun (b, bad) (p, k) =>
    match s.keyAddr p with
    | none => (b ++ toLE k 0, true)
    | some key =>
      let (d, po) := s.peekLine (lineOf key)
      let o := key % 128
      let hit := (List.range 4).any fun i => po.testBit i && decide (o / 32 ≤ i) && decide (i ≤ (o + k - 1) / 32)
      (b ++ toLE k (field d (8 * o) (8 * k)), bad || hit)) ([], false)

/-! ### The group table (R307) -/

def grpState (e : Nat) : Nat := field e 0 3
def grpPart (e : Nat) : Nat := field e 8 3
def grpBound (e : Nat) : Bool := e.testBit 12
def grpCapEngaged (e : Nat) : Bool := e.testBit 15
def grpLastSail (e : Nat) : Nat := field e 288 32
def grpSelf (e : Nat) : Nat := field e 350 17
def grpCountM1 (e : Nat) : Nat := field e 367 17
def grpSailing (e : Nat) : Nat := field e 384 32
def grpMembers (e : Nat) : Nat := field e 448 64

/-- The member record of a group (R308). -/
def State.member (s : State) (g m : Nat) : Nat := fromLE (s.peekBytes (grpMembers (s.groupEntry g) + 64 * m) 64).1

/-- The kernel bound to a group (R305). -/
def State.boundKernel (s : State) (g : Nat) : Option (Nat × Kernel) := s.kernels.find? fun e => e.2.boundGroups.contains g

/-! ### Flows and ports (R293, R299) -/

/-- The key of a flow: hub, group, member. -/
def flowKey (hub g m : Nat) : Nat := 2 ^ 29 * hub + 2 ^ 17 * g + m
def flowHub (k : Nat) : Nat := k / 2 ^ 29
def flowGroup (k : Nat) : Nat := k / 2 ^ 17 % 4096
def flowMember (k : Nat) : Nat := k % 2 ^ 17
def flowOf (f : FlowId) : Nat := flowKey f.hub.val f.group.val f.member.toNat
def State.flow (s : State) (k : Nat) : Flow := sgetD s.net.flows k {}
def State.setFlow (s : State) (k : Nat) (f : Flow) : State := { s with net := { s.net with flows := sput s.net.flows k f {} } }
def State.modFlow (s : State) (k : Nat) (f : Flow → Flow) : State := s.setFlow k (f (s.flow k))

/-- Sub-ports are keyed 4 × port + sub. -/
def State.subport (s : State) (k : Nat) : SubPortState := sgetD s.net.subports k {}
def State.setSubport (s : State) (k : Nat) (x : SubPortState) : State :=
  { s with net := { s.net with subports := sput s.net.subports k x {} } }
def State.modSubport (s : State) (k : Nat) (f : SubPortState → SubPortState) : State := s.setSubport k (f (s.subport k))

/-- The lanes of a sub-port in the mode in force; none where the mode has no such sub-port (R288). -/
def State.modeLanes (s : State) (k : Nat) : List Nat :=
  let p := k / 4
  let j := k % 4
  match inForce s 0x5001 (p + 1) with
  | 0 => if j = 0 then [4 * p, 4 * p + 1, 4 * p + 2, 4 * p + 3] else []
  | 1 => if j < 2 then [4 * p + 2 * j, 4 * p + 2 * j + 1] else []
  | 2 => [4 * p + j]
  | _ => []

/-- The spray set of a flow: its hub's sub-ports that are up and not held and that the member's port
mask names (R299). -/
def State.spraySet (s : State) (fk : Nat) : List Nat :=
  let mask := field (s.member (flowGroup fk) (flowMember fk)) 0 12
  (List.range 48).filter fun k => k / 24 = flowHub fk && mask.testBit (k / 4)
    && ((s.subport k).state == .up || (s.subport k).state == .narrowed)

/-- Whether a sub-port takes part in a round of the spray: of four rounds a narrowed port takes part in its
rate's share of the rate of its mode (R291; DEDUCED, log 16). -/
def State.takesRound (s : State) (k pass : Nat) : Bool :=
  let x := s.subport k
  !x.narrowed || pass % ((s.modeLanes k).length / x.lanes.length) = 0

/-- The next sub-port after one, in rising order and round again, and its round. -/
def State.nextPort (s : State) (set : List Nat) (after pass : Nat) : Option (Nat × Nat) :=
  match set.find? fun k => decide (k > after) && s.takesRound k pass with
  | some k => some (k, pass)
  | none => (List.range 4).findSome? fun i =>
    let n := (pass + 1 + i) % 4
    (set.find? fun k => s.takesRound k n).map fun k => (k, n)

/-- The sub-port after one, in rising order and round again. -/
def cyclicNext (set : List Nat) (after : Nat) : Option Nat :=
  match set.find? fun k => decide (k > after) with
  | some k => some k
  | none => set.head?

/-! ### Transmit queues (R292, R299) -/

/-- The bytes of a frame: Ethernet, IPv6, UDP and NCT headers, payload and FCS. -/
def QueuedFrame.bytes (f : QueuedFrame) : Nat := 114 + f.payload.length
/-- Whether a transmit queue may hold more than 64 KiB. -/
def State.overfull (s : State) (k : Nat) : Bool := decide (65536 < ((s.subport k).queue.map QueuedFrame.bytes).sum)
/-- Some frames of a transmit queue have gone out, oldest first; how many is a free value
(DESIGN CHOICE, log 112). -/
def State.drainPort (s : State) (k : Nat) : State :=
  let x := s.subport k
  if x.queue.isEmpty then s
  else s.useFree.setSubport k { x with queue := x.queue.drop (s.freeNat % (x.queue.length + 1)) }
/-- The sub-ports a flow's next packet may take: its spray set without those whose transmit queue holds more
than 64 KiB (R299). -/
def State.readyPorts (s : State) (fk : Nat) : State × List Nat :=
  let set := s.spraySet fk
  let s := (set.filter fun k => s.overfull k).foldl (fun s k => s.drainPort k) s
  (s, set.filter fun k => !s.overfull k)

/-! ### Packets (R290, R294) -/

/-- Build a header from its fields; FLAGS and SAILING are put in when it is sent. -/
def nctHeader (kind op flags sailing psn g src key addr len tally arg : Nat) : Nat :=
  1 <<< 380 ||| kind <<< 376 ||| op <<< 368 ||| flags <<< 360 ||| sailing <<< 320 ||| (psn % 2 ^ 32) <<< 256
    ||| g <<< 244 ||| src <<< 227 ||| (key % 2 ^ 32) <<< 192 ||| (addr % 2 ^ 64) <<< 128 ||| (len % 2 ^ 16) <<< 112
    ||| (tally % 2 ^ 32) <<< 64 ||| arg % 2 ^ 64

def nctKind (h : Nat) : Nat := field h 376 4
def nctOp (h : Nat) : Nat := field h 368 8
def nctFlags (h : Nat) : Nat := field h 360 8
def nctSailing (h : Nat) : Nat := field h 320 32
def nctPsn (h : Nat) : Nat := field h 256 32
def nctGroup (h : Nat) : Nat := field h 244 12
def nctSrc (h : Nat) : Nat := field h 227 17
def nctKey (h : Nat) : Nat := field h 192 32
def nctAddr (h : Nat) : Nat := field h 128 64
def nctLen (h : Nat) : Nat := field h 112 16
def nctTally (h : Nat) : Nat := field h 64 32
def nctArg (h : Nat) : Nat := field h 0 64

/-- An NCT frame of a sub-port (R290): header and payload, to an address and UDP port. -/
def State.frameTo (s : State) (k : Nat) (dst : BitVec 128) (udpDst h : Nat) (payload : Bytes) : NctFrame :=
  let req := nctKind h ≤ 1
  { mac := (s.subport k).nextHop.getD 0
    src := (s.subport k).address
    dst := dst
    dscp := setting s 0x5010 (if req then 4 else 5)
    ect := req
    flowLabel := nctPsn h % 2 ^ 20
    udpSrc := 0xC000 + nctPsn h % 0x4000
    udpDst := udpDst
    header := BitVec.ofNat 384 h
    payload := payload }

/-- Put a frame of a flow in a sub-port's transmit queue. -/
def State.queueFrame (s : State) (k : Nat) (f : QueuedFrame) : State :=
  let rec_ := s.member (flowGroup f.flow) (flowMember f.flow)
  let dst := BitVec.ofNat 128 (field rec_ (if flowHub f.flow = 0 then 256 else 384) 128)
  (s.modSubport k fun x => { x with queue := x.queue ++ [f] }).send (.nct k (s.frameTo k dst (setting s 0x5010 3) f.header.toNat f.payload))

/-- Send a packet of a flow on a sub-port (R290): CAPE under R317, RETX on a resend. -/
def State.emit (s : State) (fk port header : Nat) (payload : Bytes) (retx ece : Bool) : State :=
  let e := s.groupEntry (flowGroup fk)
  let h := header ||| (b2n (grpCapEngaged e)) <<< 364 ||| (b2n retx) <<< 363 ||| (b2n ece) <<< 365
  (s.count 0x5020 1 1).queueFrame port { flow := fk, header := BitVec.ofNat 384 h, payload := payload }

/-- Send one unsent packet of a flow, if a port of its spray set takes it. -/
def State.sendPacket (s : State) (fk : Nat) (p : TxPacket) : State :=
  let f := s.flow fk
  match s.readyPorts fk with
  | (s, set) => match s.nextPort set f.lastPort f.pass with
    | none => s
    | some (k, pass) =>
      (s.setFlow fk { f with
        lastPort := k, pass := pass
        unacked := f.unacked.map fun q => if q.psn = p.psn then { q with sent := true, port := k } else q }).emit fk k p.header.toNat p.payload false false

/-- Resend one packet on the port after the one it used last (R298); `gap` marks the one resend a gap gets. -/
def State.resend (s : State) (fk : Nat) (p : TxPacket) (gap : Bool) : State :=
  match s.readyPorts fk with
  | (s, set) => match cyclicNext set p.port with
    | none => s
    | some k =>
      ((s.modFlow fk fun f => { f with unacked := f.unacked.map fun q =>
          if q.psn = p.psn then { q with port := k, gapResent := q.gapResent || gap } else q }).count 0x5020 3 1).emit
        fk k p.header.toNat p.payload true false

/-- Move one frame from a port that has lost its link to another of its flow's spray set; it waits where
none is left, and one of a closed group goes (R292). -/
def State.moveFrame (acc : State × List QueuedFrame) (q : QueuedFrame) : State × List QueuedFrame :=
  let (s, kept) := acc
  let f := s.flow q.flow
  if grpState (s.groupEntry (flowGroup q.flow)) = 0 then acc
  else match s.readyPorts q.flow with
    | (s, set) => match s.nextPort set f.lastPort f.pass with
      | none => (s, kept ++ [q])
      | some (k, pass) =>
        let psn := BitVec.ofNat 32 (nctPsn q.header.toNat)
        let move := fun (p : TxPacket) => if nctKind q.header.toNat ≤ 1 ∧ p.psn = psn then { p with port := k } else p
        ((s.setFlow q.flow { f with lastPort := k, pass := pass, unacked := f.unacked.map move }).queueFrame k q, kept)

/-- Move the frames of a sub-port's transmit queue to other ports. -/
def State.moveQueue (s : State) (k : Nat) : State :=
  let q := (s.subport k).queue
  let (s, kept) := q.foldl State.moveFrame (s.modSubport k fun x => { x with queue := [] }, [])
  s.modSubport k fun x => { x with queue := kept ++ x.queue }

/-- Packets of a flow in flight. -/
def Flow.inFlight (f : Flow) : Nat := (f.unacked.filter fun p => p.sent).length

/-- Send the waiting packets a flow's window lets out (R299). -/
def State.pump (s : State) (fk : Nat) : State :=
  (s.flow fk).unacked.foldl (fun s p =>
    if !p.sent && decide ((s.flow fk).inFlight < (s.flow fk).window) then s.sendPacket fk p else s) s

/-- Ports whose transmit queue waits for another port. -/
def State.strandedPorts (s : State) : List Nat :=
  (s.net.subports.filter fun e => !(e.2.state == .up || e.2.state == .narrowed) && !e.2.queue.isEmpty).map Prod.fst

/-- Move what waits on lost ports and pump every flow, after a port has become usable. -/
def State.pumpAll (s : State) : State :=
  let s := s.strandedPorts.foldl (fun s k => s.moveQueue k) s
  (s.net.flows.map Prod.fst).foldl (fun s k => s.pump k) s

/-- Append a packet to a flow: it takes the next PSN (R293). -/
def State.enqueuePacket (s : State) (fk kind op flags key addr len tally arg : Nat) (payload : Bytes) (id : Option Nat) : State :=
  let g := flowGroup fk
  let e := s.groupEntry g
  let f := s.flow fk
  let h := nctHeader kind op flags (grpSailing e) f.nextPsn.toNat g (grpSelf e) key addr len tally arg
  s.setFlow fk { f with
    nextPsn := f.nextPsn + 1
    unacked := f.unacked ++ [{ psn := f.nextPsn, header := BitVec.ofNat 384 h, payload := payload, port := 0, op := id }] }

/-! ### Acknowledgements a receiver sends (R296) -/

/-- The SACK bits of a flow. -/
def Flow.sack (f : Flow) : Nat :=
  maskOf ((List.range 64).filter fun i => f.recorded.contains (f.cum + 1 + BitVec.ofNat 32 i))

/-- Send an ACK for a flow. -/
def State.sendAck (s : State) (fk : Nat) : State :=
  let f := s.flow fk
  let g := flowGroup fk
  let e := s.groupEntry g
  match s.readyPorts fk with
  | (s, set) => match s.nextPort set f.lastPort f.pass with
    | none => s
    | some (k, pass) =>
      let h := nctHeader 2 0x10 0 (grpSailing e) f.cum.toNat g (grpSelf e) 0 0 0 0 f.sack
      (s.setFlow fk { f with sinceAck := 0, sawCe := false, lastPort := k, pass := pass }).emit fk k h [] false f.sawCe

/-! ### What an operation's failure does at its source (R302) -/

/-- The source of a fault found by a hub or at a kernel's completion: no cluster. -/
def State.kernelSource (s : State) (k die : Nat) : FaultSource :=
  let kn := s.kernel? k
  { kernel := k, part := (kn.map (·.part)).getD 0, die := die, cluster := 0xFFFF
    kernelId := (kn.map (·.kernelId.toNat)).getD 0 }

/-- Abort a kernel with REMOTE_INCOMPLETE (R222, R315). -/
def State.remoteIncomplete (s : State) (k hub addr g : Nat) : State :=
  match s.kernel? k with
  | none => s
  | some kn =>
    if kn.phase ≠ .running then s
    else ((s.recordFault (s.kernelSource k (6 + hub)) { code := 0x606, arg0 := addr, arg1 := g } false).1).abortKernel k 0x606

/-- Mark a line in flight as arrived. -/
def State.fillArrives (s : State) (cl line : Nat) (d : LineData) : State :=
  s.modCluster cl fun c => { c with
    fills := c.fills.map fun f => if f.line = line then { f with data := some d } else f
    pf := c.pf.map fun f => if f.line = line ∧ f.data.isNone then { f with came := some d } else f }
/-- Mark a transfer's read as arrived. -/
def State.xferArrives (s : State) (cl g no : Nat) (b : Bytes) (poison : Bool) : State :=
  s.modCluster cl fun c => { c with xfers := c.xfers.map fun x =>
    if x.group = g ∧ x.no = no then { x with awaiting := false, arrived := some (b, poison) } else x }

/-- A core's access raises an access-fault exception (1 load, 2 store, 3 instruction); consumed poison is an
event too (R16, R366). -/
def State.coreFault (s : State) (h kind : Nat) (poison : Bool) : State :=
  let s := { s with host := { s.host with harts := smod s.host.harts h {} fun x => { x with accessFault := some kind } } }
  if poison then s.event { cls := 3, code := 3, die := 4 + h / 96, location := 0x1000 + h, data := 0x701 } else s

/-- The outcome of a failed operation for its user: status as in R302, FFh after a timeout. A schedule's
step is known by the operation it started (R315). -/
def State.failUser (s : State) (id fk status : Nat) : NetUser → State
  | .store k _ addr => s.modKernel k fun x => { x with remoteFail := if x.remoteFail.isSome then x.remoteFail else some (addr, flowGroup fk) }
  | .load cl line _ => s.fillArrives cl line { data := 0, poison := 15 }
  | .xferRead cl g no => s.xferArrives cl g no [] true
  | .atomic gk lane =>
    (match s.group? gk with
     | some g => match g.wait with
       | .atomics word bs =>
         let a := ((bs.find? fun b => b.lane = lane).map (·.addr)).getD 0
         s.takeFault gk g word { code := 0x603, arg0 := a, arg1 := status }
       | _ => s
     | none => s)
  | .schedule hub slot step =>
    let sl := sgetD s.net.sched (16 * hub + slot) {}
    if sl.state ≠ 1 ∨ ¬ sl.inFlight.contains (step, id) then s
    else
      let s := { s with net := { s.net with sched := sset (16 * hub + slot) { sl with state := 3, stepIndex := step, status := status, inFlight := [] } s.net.sched } }
      let s := (s.count 0x5050 2 1).raise (528 + 16 * hub + slot)
      (match s.boundKernel sl.group with
       | some (k, _) => s.remoteIncomplete k hub 0 sl.group
       | none => s)
  | .tile k fq _ _ => s.modKernel k fun x =>
      let tag := (x.man.ferries[fq / 512]?.map (·.tag)).getD 0
      { x with
        remoteFail := if x.remoteFail.isSome then x.remoteFail else some (tag, flowGroup fk)
        ferries := x.ferries.map fun e => if e.1 = fq then (e.1, { e.2 with gone := true }) else e }
  | .ferryCtl k fq _ => s.modKernel k fun x =>
      { x with ferries := x.ferries.map fun e => if e.1 = fq then (e.1, { e.2 with gone := true }) else e }
  | .drain t => { s with mem := { s.mem with twins := smod s.mem.twins t {} fun x => { x with broken := true } } }
  | .core h => s.coreFault h 1 true
  | .coreStore _ => s

/-- The outcome of a completed write for its user: a schedule step has been acknowledged, a tile's
slot is free. -/
def State.finishUser (s : State) (id : Nat) : NetUser → State
  | .schedule hub slot step =>
    { s with net := { s.net with sched := smod s.net.sched (16 * hub + slot) {} fun sl => { sl with inFlight := sl.inFlight.filter fun e => e ≠ (step, id) } } }
  | _ => s

/-- Drop an operation. -/
def State.dropOp (s : State) (id : Nat) : State := { s with net := { s.net with ops := s.net.ops.filter fun o => o.id ≠ id } }

/-- Fail an operation: PEER_UNREACHABLE is set and its packets are withdrawn unless an ERROR ended it, and
its user learns the outcome (R298, R302). After an ERROR its other packets keep their place in the flow, which
goes on. -/
def State.failOp (s : State) (o : NetOp) (status : Nat) (byError : Bool) : State :=
  let s := (s.dropOp o.id).modFlow o.flow fun f => if byError then f else { f with unacked := f.unacked.filter fun p => p.op ≠ some o.id }
  let s := if byError then s else s.modGroupEntry (flowGroup o.flow) fun e => e ||| 2 ^ 13
  (s.count 0x5020 5 1).failUser o.id o.flow status o.user

/-- Start an operation of one or more packets: OP, FLAGS, KEY, ADDR, LEN, TALLY, ARG and payload of
each. On a killed flow or a group that is not open it fails at once (R298, R310). -/
def State.startOp (s : State) (fk : Nat) (user : NetUser) (reply : Bool)
    (ps : List (Nat × Nat × Nat × Nat × Nat × Nat × Nat × Bytes)) : State :=
  let id := s.net.nextOp
  let s := { s with net := { s.net with nextOp := id + 1 } }
  let op : NetOp := { id := id, flow := fk, user := user, awaiting := if reply then 1 else ps.length, reply := reply }
  if (s.flow fk).killed || decide (grpState (s.groupEntry (flowGroup fk)) ≠ 1) then s.failOp op 0xFF false
  else
    let first := (s.flow fk).nextPsn
    let s := { s with net := { s.net with ops := s.net.ops ++ [{ op with psns := (List.range ps.length).map fun i => first + BitVec.ofNat 32 i }] } }
    let s := ps.foldl (fun s (o, fl, key, addr, len, tally, arg, b) =>
      s.enqueuePacket fk 0 o fl key addr len tally (if reply then arg ||| id % 2 ^ 32 else arg) b (some id)) s
    s.pump fk

/-- Send a response on the reverse flow; it is kept until acknowledged (R301). -/
def State.respond (s : State) (fk op arg : Nat) (payload : Bytes) : State :=
  (s.enqueuePacket fk 1 op 0 0 0 payload.length 0 arg payload none).pump fk

/-- Unacknowledged responses of a hub (R301). -/
def State.responsesOf (s : State) (hub : Nat) : Nat :=
  s.net.flows.foldl (fun n e => if flowHub e.1 = hub then n + (e.2.unacked.filter fun p => p.op.isNone).length else n) 0

/-- Close a group: flow state is discarded, outstanding operations fail, SAILING goes to LASTSAIL
(R298, R302, R310). -/
def State.closeGroup (s : State) (g : Nat) : State :=
  let mine := s.net.ops.filter fun o => flowGroup o.flow = g
  let s := mine.foldl (fun s o => s.failOp o 0xFF false) s
  let s := { s with net := { s.net with flows := s.net.flows.filter fun e => flowGroup e.1 ≠ g } }
  s.modGroupEntry g fun e => setField (setField e 0 3 0) 288 32 (grpSailing e)

/-- A closing group whose outstanding operations have all ended closes (R310). -/
def State.settleClosing (s : State) (g : Nat) : State :=
  if grpState (s.groupEntry g) = 2 ∧ ¬ s.net.ops.any (fun o => flowGroup o.flow = g) then s.closeGroup g else s

/-! ### Window accesses (R295, R303) -/

/-- Where a network-window offset leads: flow from a die's hub, key and remote offset. -/
def State.apertureTarget (s : State) (die off : Nat) : Nat × Nat × Nat :=
  let e := s.aperture (off / 2 ^ 35)
  (flowKey (hubOfDie die) (field e 112 12) (field e 95 17), field e 63 32, 4096 * field e 27 36 + off % 2 ^ 35)

/-- Contiguous runs of set bits of an n-bit mask: start and length. -/
def maskRuns (mask n : Nat) : List (Nat × Nat) :=
  ((List.range n).foldl (fun (l : List (Nat × Nat)) i =>
    if !mask.testBit i then l
    else match l with
      | (a, k) :: r => if a + k = i then (a, k + 1) :: r else (i, 1) :: l
      | [] => [(i, 1)]) []).reverse

/-- Send a write through the network window as one PUT per run of bytes. -/
def State.windowPut (s : State) (die off mask data n : Nat) (user : NetUser) (tally : Option Nat) : State :=
  (maskRuns mask n).foldl (fun s (a, k) =>
    let (fk, key, addr) := s.apertureTarget die (off + a)
    s.startOp fk user false
      [(1, if tally.isSome then 0x80 else 0, key, addr, k, tally.getD 0, 0, toLE k (field data (8 * a) (8 * k)))]) s

/-- Send a read through the network window as a GET. -/
def State.windowGet (s : State) (die off len : Nat) (user : NetUser) : State :=
  let (fk, key, addr) := s.apertureTarget die off
  s.startOp fk user true [(2, 0, key, addr, len, 0, 0, [])]

/-- Send an atomic through the network window: operation, format, FETCH, operands (R295). -/
def State.windowAtomic (s : State) (die off op fmt : Nat) (fetch : Bool) (operands : Bytes) (user : NetUser) : State :=
  let (fk, key, addr) := s.apertureTarget die off
  s.startOp fk user true [(4, 0, key, addr, operands.length, 0, op <<< 60 ||| fmt <<< 56 ||| b2n fetch <<< 55, operands)]

/-- Whether a group or kernel still has network operations outstanding (R208, R222, R306). -/
def State.groupOpsOut (s : State) (gk : Nat) : Bool :=
  s.net.ops.any fun o => match o.user with
    | .store _ l _ => l.any fun e => e.1 = gk
    | .atomic g _ => g = gk
    | _ => false
def State.kernelOpsOut (s : State) (k : Nat) : Bool :=
  s.net.ops.any fun o => match o.user with
    | .store x _ _ => x = k
    | .atomic g _ => match s.group? g with
      | some x => x.kernel = k
      | none => false
    | .tile x _ _ _ => x = k
    | _ => false

end Sys2Proof.Machine
end

