-- ==== Sys2Proof/Machine/HostRegs.lean ====
section
/-! DEFINITION. Registers the host and the cores share: launch queues (R325, R327), sessions (R332,
R335), interrupt routes, INTSEND and CLAIM (R336, R337), HART_START (R341) and tallies (R211, R215). -/
namespace Sys2Proof

/-- The partition a requester is confined to: a VF's own (R323). -/
def Requester.vf? : Requester → Option Nat
  | .function fn => if fn.vf.val = 0 then none else some (fn.vf.val - 1)
  | .node => none

end Sys2Proof

namespace Sys2Proof.Machine

/-! ### Bytes of a register write (R457) -/

/-- A register's value after a write of the bits in `mask`. -/
def mergeMask (old mask v : Nat) : Nat := (old &&& ((2 ^ 64 - 1) ^^^ mask)) ||| (v &&& mask)

/-- Whether a requester's BAR shows a partition's registers: the port binds it and a VF sees its own. -/
def State.viaServes (s : State) (r : Requester) (p : Nat) : Bool :=
  match r with
  | .function fn => s.fnLive fn && s.fnServes fn p
  | .node => decide (p < s.parts)

/-- log2 of a function's BAR4 size. -/
def State.bar4Log2 (s : State) (fn : Fn) : Nat := (s.fn fn.port.val fn.vf.val).bar4

/-! ### Launch queues -/

def State.queue (s : State) (k : Nat) : Queue := sgetD s.host.queues k {}
def State.setQueue (s : State) (k : Nat) (x : Queue) : State := { s with host := { s.host with queues := sput s.host.queues k x {} } }
def State.modQueue (s : State) (k : Nat) (f : Queue → Queue) : State := s.setQueue k (f (s.queue k))
def Queue.size (q : Queue) : Nat := 2 ^ q.log2size
/-- dist(a, b) = (b − a) mod QSIZE. -/
def Queue.dist (q : Queue) (a b : Nat) : Nat := (b + q.size - a % q.size) % q.size

/-- A doorbell (R327): beyond the ring it is ignored; else the target moves forward and fetching
resumes. -/
def Queue.doorbell (q : Queue) (t : Nat) : Queue :=
  if t ≥ q.size then q
  else { q with
    target := if q.dist q.qhead t > q.dist q.qhead q.target then t else q.target
    waiting := false, rereads := 0 }

/-- QCFG as read. -/
def Queue.cfg (q : Queue) : Nat := b2n q.enable <<< 31 ||| q.ctx <<< 16 ||| q.log2size
def Queue.status (q : Queue) : Nat := b2n q.stopped <<< 3 ||| b2n q.fetchErr <<< 2 ||| b2n q.cplLost <<< 1 ||| b2n q.waiting

/-- A full-width write of QCFG (R325): CTX and LOG2SIZE are taken while ENABLE is 0, RESTART acts, then
ENABLE takes its value; enabling a stopped queue clears STOPPED (DEDUCED, log 25). -/
def Queue.writeCfg (q : Queue) (v : Nat) : Queue :=
  let l := field v 0 5
  let q := if q.enable then q else { q with ctx := field v 16 6, log2size := if 4 ≤ l ∧ l ≤ 16 then l else q.log2size }
  let q := if v.testBit 30 then { q with qhead := 0, phase := true, target := 0, rereads := 0 } else q
  { q with enable := v.testBit 31, stopped := if v.testBit 31 then false else q.stopped }

/-! ### Sessions (R332, R335) -/

/-- Partitions a function serves, and those whose function it is. -/
def State.fnParts (s : State) (fn : Fn) : List Nat := (List.range s.parts).filter fun p => s.fnServes fn p
def State.ownParts (s : State) (fn : Fn) : List Nat :=
  (List.range s.parts).filter fun p => s.partPort p = fn.port.val && s.partVf p = fn.vf.val
/-- Kernels launched from a function's queues and not complete. -/
def State.fnKernels (s : State) (fn : Fn) : List Nat := (s.kernels.filter fun e => !e.2.refused && s.fnServes fn e.2.part).map Prod.fst
def State.fnKernelsRunning (s : State) (fn : Fn) : Nat := (s.fnKernels fn).length
/-- The queues of a function. -/
def State.fnQueues (s : State) (fn : Fn) : List Nat := (s.fnParts fn).flatMap fun p => (List.range 64).map fun q => 64 * p + q

/-- Set a function's session state and result; a change of state raises source 520 + p (R336). -/
def State.setSession (s : State) (fn : Fn) (state result : Nat) : State :=
  let old := (s.fn fn.port.val fn.vf.val).sessionState
  let s := s.modFn fn.port.val fn.vf.val fun f => { f with sessionState := state, sessionResult := result }
  if old = state then s else (s.ownParts fn).foldl (fun s p => s.raise (520 + p)) s

/-- Result of a refused SESSION_CTL. -/
def State.sessionRefused (s : State) (fn : Fn) (result : Nat) : State :=
  s.modFn fn.port.val fn.vf.val fun f => { f with sessionResult := result }

/-- SESSION_CTL (R332, R335): 1 OPEN, 2 REATTACH, 3 CLOSE, 4 OPEN with FORCE; other values do nothing. -/
def State.sessionCtl (s : State) (fn : Fn) (op : Nat) : State :=
  let f := s.fn fn.port.val fn.vf.val
  let openNew := fun (s : State) =>
    let id := s.host.nextSession
    let s := { s with host := { s.host with nextSession := id + 1 } }
    let s := (s.fnQueues fn).foldl (fun s k => s.modQueue k fun q => { q with qbase := 0, qseq := 0, qhead := 0, qdone := 0 }) s
    (s.modFn fn.port.val fn.vf.val fun f => { f with sessionId := BitVec.ofNat 64 id }).setSession fn 1 0
  if !s.fnPresent fn then s
  else match op with
    | 1 => if f.sessionState = 1 then s.sessionRefused fn 3 else if s.fnKernelsRunning fn > 0 then s.sessionRefused fn 1 else openNew s
    | 2 =>
      if f.sessionState = 1 then s.sessionRefused fn 3
      else if f.sessionState ≠ 2 ∨ f.sessionArg ≠ f.sessionId then s.sessionRefused fn 2
      else (s.count 0x6050 2 1).setSession fn 1 0
    | 3 => if (s.fnQueues fn).any fun k => (s.queue k).enable then s.sessionRefused fn 1 else
      (s.modFn fn.port.val fn.vf.val fun f => { f with sessionId := 0 }).setSession fn 0 0
    | 4 =>
      if f.sessionState = 1 then s.sessionRefused fn 3
      else openNew ((s.fnKernels fn).foldl (fun s k => (s.modKernel k fun x => { x with silent := true }).abortKernel k 0) s)
    | _ => s

/-! ### Interrupt registers (R336, R337) -/

/-- The bits of a route entry that are not Reserved. -/
def routeMask : Nat := 0xE0000000003F00FF
def State.writeRoute (s : State) (n v : Nat) : State :=
  { s with host := { s.host with routes := sput s.host.routes n (BitVec.ofNat 64 (v &&& routeMask)) 0 } }.deliver n

/-- INTSEND: bits 31:8 not zero make it ignored. -/
def State.intSend (s : State) (v : Nat) : State := if v < 256 then s.raise (768 + v) else s

/-- CLAIM: the lowest pending source asserted at a hart, cleared; all ones when none is (R336). -/
def State.claim (s : State) (hart : Nat) : State × Nat :=
  match (s.host.irqPending.map Prod.fst).find? (fun n => s.assertsHart hart n) with
  | some n => ({ s with host := { s.host with irqPending := sdel n s.host.irqPending } }, n)
  | none => (s, 0xFFFFFFFF)

def State.hart (s : State) (h : Nat) : Hart := sgetD s.host.harts h {}
def State.modHart (s : State) (h : Nat) (f : Hart → Hart) : State :=
  { s with host := { s.host with harts := sput s.host.harts h (f (s.hart h)) {} } }

/-- HART_START (R341): the hart starts in machine mode with its id in a0 and 0 in a1; a running hart and
a writer of another partition are ignored. -/
def State.hartStart (s : State) (part : Option Nat) (h addr : Nat) : State :=
  if (s.hart h).running || (match part with | some p => s.hartPart h != p | none => false) then s
  else s.modHart h fun x => { x with running := true, pc := BitVec.ofNat 64 addr, a0 := BitVec.ofNat 64 h, a1 := 0, mmode := true }

/-! ### Tallies (R211 to R215) -/

/-- The kernel that holds a physical tally. -/
def TallySet.holder (t : TallySet) (i : Nat) : Option Nat :=
  (t.runs.find? fun r => r.1 ≤ i && i < r.1 + r.2.1).map fun r => r.2.2
/-- Increment a physical tally, modulo 2^64. -/
def State.tallyInc (s : State) (d i n : Nat) : State :=
  s.setTally d { s.tally d with vals := sput (s.tally d).vals i (sgetD (s.tally d).vals i 0 + BitVec.ofNat 64 n) 0 }
def State.tallyValue (s : State) (d i : Nat) : Nat :=
  if ((s.tally d).holder i).isSome then (sgetD (s.tally d).vals i 0).toNat else 0
/-- An add through the register window: a tally no kernel holds is not changed (R215). -/
def State.tallyAddReg (s : State) (d i n : Nat) : State :=
  if ((s.tally d).holder i).isSome then s.tallyInc d i n else s.count 0xA072 4 1
/-- The partition whose kernel holds a tally. -/
def State.tallyPart (s : State) (d i : Nat) : Option Nat :=
  ((s.tally d).holder i).bind fun k => (s.kernel? k).map (·.part)

/-- A kernel's own tally reference (R212): DIE Fh is the given die. None for one that is invalid or
names no tally of the kernel. -/
def Kernel.tallyOf (k : Kernel) (ref die : Nat) : Option (Nat × Nat) :=
  let d := if field ref 16 4 = 15 then die else field ref 16 4
  if ref ≥ 2 ^ 20 ∨ d ≥ 4 ∨ ref % 65536 ≥ k.man.tallies then none
  else (sget? d k.tallyBase).map fun b => (d, b + ref % 65536)

/-! ### Host-window requests (R331, R334) -/

/-- A posted write of a partition through a host window; while the link is down it is discarded and
counted. -/
def State.hostWrite (s : State) (part port addr : Nat) (b : Bytes) (translated : Bool) : State :=
  if s.portOpen port then s.send (.hostWrite port (s.partVf part) addr b translated) else s.count 0x6050 6 1

/-- What a host-window read returns to its user; poisoned where it failed. -/
def State.hostArrives (s : State) (b : Bytes) (poison : Bool) : HostUser → State
  | .load cl line => s.fillArrives cl line (if poison then { poison := 15 } else { data := BitVec.ofNat 1024 (fromLE b) })
  | .xfer cl g no => s.xferArrives cl g no b poison
  | .core h =>
    if poison then s.coreFault h 1 true
    else (s.modHart h fun x => { x with lastLoad := BitVec.ofNat 512 (fromLE b) }).send (.coreResult h (BitVec.ofNat 512 (fromLE b)))
  | .drain t => if poison then { s with mem := { s.mem with twins := smod s.mem.twins t {} fun x => { x with broken := true } } } else s
  | .flush _ => s

/-- Non-posted requests a port may have outstanding (R319). -/
def hostReadLimit : Nat := 1024
/-- Reads a port has sent and not seen end. -/
def State.readsOut (s : State) (port : Nat) : Nat := (s.host.reads.filter fun r => r.port = port && r.sent).length
/-- Send a read's request. -/
def State.sendRead (s : State) (r : HostRead) : State := s.send (.hostReadRequest r.port r.vf r.tag r.addr r.len r.translated)

/-- A partition's read through a host window: it waits while the port's limit is used up (R319); while the link
is down it returns poison. -/
def State.hostRead (s : State) (part port addr len : Nat) (user : HostUser) (translated : Bool) : State :=
  if s.portOpen port then
    let tag := s.host.nextTag
    let r : HostRead := { port := port, vf := s.partVf part, tag := tag, addr := addr, len := len, user := user, translated := translated
                          sent := decide (s.readsOut port < hostReadLimit) }
    let s := { s with host := { s.host with nextTag := tag + 1, reads := s.host.reads ++ [r] } }
    if r.sent then s.sendRead r else s
  else s.hostArrives [] true user

/-- A read has ended: the oldest one waiting at the port goes out. -/
def State.nextRead (s : State) (port : Nat) : State :=
  if s.readsOut port < hostReadLimit then
    match s.host.reads.find? (fun r => r.port = port && !r.sent) with
    | some r =>
      let go := fun (x : HostRead) => if x.tag = r.tag then { x with sent := true } else x
      { s with host := { s.host with reads := s.host.reads.map go } }.sendRead r
    | none => s
  else s

end Sys2Proof.Machine
end

