-- ==== Sys2Proof/Machine/XlRegs.lean ====
section
/-! DEFINITION. The translation register block (R250, R254, R255, R264 to R266). -/
namespace Sys2Proof.Machine

/-- FQ_CTL as read. -/
def Xlate.fqCtl (x : Xlate) : Nat := b2n x.invDrop <<< 3 ||| b2n x.overflow <<< 2 ||| b2n x.inten <<< 1 ||| b2n x.enable

/-- FQ_BASE and FQ_SIZE, written while ENABLE is 0; other sizes are ignored. -/
def State.writeFqBase (s : State) (p v : Nat) : State :=
  if (s.xl p).enable then s else s.modXl p fun x => { x with fqBase := BitVec.ofNat 64 (4096 * (v / 4096)) }
def State.writeFqSize (s : State) (p v : Nat) : State :=
  if (s.xl p).enable ∨ v < 256 ∨ v > 65536 ∨ popcount v 17 ≠ 1 then s else s.modXl p fun x => { x with fqSize := BitVec.ofNat 32 v }
/-- FQ_HEAD: FQ_SIZE or more is ignored; room lets waiting records in (R266). -/
def State.writeFqHead (s : State) (p v : Nat) : State :=
  if v ≥ (s.xl p).fqSize.toNat then s
  else (s.modXl p fun x => { x with fqHead := BitVec.ofNat 32 v }).drainWaiting p
/-- FQ_CTL: `w1c` are the bits written 1; setting ENABLE needs the whole ring in held memory, and lets waiting
records in. -/
def State.writeFqCtl (s : State) (p v w1c : Nat) : State :=
  (s.modXl p fun x =>
    let ok := x.enable || s.rangeHeld p x.fqBase.toNat (64 * x.fqSize.toNat)
    { x with
      invDrop := x.invDrop && !w1c.testBit 3
      overflow := x.overflow && !w1c.testBit 2
      inten := v.testBit 1
      enable := v.testBit 0 && ok }).drainWaiting p
/-- FQ_LOST[k]: a read clears it (R8). -/
def State.readFqLost (s : State) (p k : Nat) : State × Nat :=
  (s.modXl p fun x => { x with fqLost := sdel k x.fqLost }, (sgetD (s.xl p).fqLost k 0).toNat)

/-- Whether a queue bound to the context holds a kernel that has not completed (R250). -/
def State.ctxBusy (s : State) (p c : Nat) : Bool :=
  s.kernels.any fun e => !e.2.refused && e.2.part = p && (s.queue (64 * p + e.2.queue)).ctx = c

/-- CTX_ROOT: the PPN, while VALID is 0. -/
def State.writeCtxRoot (s : State) (p c v : Nat) : State :=
  if s.ctxValid p c then s
  else s.modXl p fun x => { x with ctxRoot := sput x.ctxRoot c (BitVec.ofNat 64 (v % 2 ^ 44)) 0 }

/-- The bits of CTX_ID that are not Reserved. -/
def ctxIdMask : Nat := 0xE00000FFFFF0FFFF
/-- CTX_ID (R250): with VALID 1, clearing VALID leaves the other fields, any other change is ignored;
with VALID 0 the fields are taken, and setting VALID needs that no queue bound to the context holds a
kernel. -/
def State.writeCtxId (s : State) (p c v : Nat) : State :=
  let v := v &&& ctxIdMask
  let old := s.ctxId p c
  let put := fun (n : Nat) => s.modXl p fun x => { x with ctxId := sput x.ctxId c (BitVec.ofNat 64 n) 0 }
  if s.ctxValid p c then (if v.testBit 63 then s else put (old % 2 ^ 63))
  else if v.testBit 63 && s.ctxBusy p c then s
  else put v

/-- INV_CTL (R255): queue one invalidation, or discard it and set INV_DROP. -/
def State.writeInvCtl (s : State) (p v : Nat) : State :=
  let op := field v 60 4
  let n := field v 0 32
  let x := s.xl p
  if op = 0 ∨ op > 3 ∨ (op = 1 ∧ n = 0) ∨ x.invQueue.length ≥ 64 then s.setXl p { x with invDrop := true }
  else s.setXl p { x with
    invIssued := x.invIssued + 1
    invQueue := x.invQueue ++ [(op, field v 54 6, x.invAddr.toNat / 4096 % 2 ^ 45, n)] }

/-- Whether a TLB leaf overlaps an invalidation. -/
def TlbEntry.hitBy (e : TlbEntry) (p op asid page n : Nat) : Bool :=
  e.part = p && (op = 3 || (e.asid = asid && (op = 2 ||
    (decide (e.vpn < page + n) && decide (page < e.vpn + 2 ^ e.log2pages)))))
/-- Whether a walk-cache entry lies on a path to an invalidated range. -/
def WalkEntry.hitBy (e : WalkEntry) (p op asid page n : Nat) : Bool :=
  e.part = p && (op = 3 || (e.asid = asid && (op = 2 ||
    (decide (e.prefixVpn * 2 ^ (9 * e.level) < page + n) && decide (page < (e.prefixVpn + 1) * 2 ^ (9 * e.level))))))

/-- The ATS requests under way that meet `p` are made again, so that an answer given before an invalidation
fills nothing (R255, R260). -/
def State.reask (s : State) (p : HostXlate → Bool) : State :=
  (s.host.ats.filter fun x => p x && !x.pri && !x.failed).foldl (fun (s : State) x =>
    let tag := s.host.nextAts
    let renew := fun (y : HostXlate) => if y.tag = x.tag then { y with tag := tag } else y
    let s := { s with host := { s.host with ats := s.host.ats.map renew, nextAts := tag + 1 } }
    (s.count 0x6030 2 1).send (.atsRequest x.port x.vf tag x.va x.write (s.ctxPasid x.part x.ctx))) s

/-- Drop what an invalidation names from every TLB and walk cache, and ask again for what is being translated
(R255). -/
def State.dropTranslations (s : State) (p op ctx page n : Nat) : State :=
  let asid := s.ctxAsid p ctx
  let s := s.reask fun x => x.part = p && (op = 3 || (x.ctx = ctx && (op = 2 ||
    (decide (x.va.toNat / 4096 % 2 ^ 45 < page + n) && decide (page ≤ x.va.toNat / 4096 % 2 ^ 45)))))
  { s with
    clusters := s.clusters.map fun e => (e.1, { e.2 with utlb := e.2.utlb.filter fun t => !t.hitBy p op asid page n })
    dieXlate := s.dieXlate.map fun e => (e.1, { e.2 with
      tlb := e.2.tlb.filter fun t => !t.hitBy p op asid page n
      walks := e.2.walks.filter fun t => !t.hitBy p op asid page n }) }

/-- RESUME (R264): retry lets the stalled access run again; fail halts the group and aborts its kernel
with the recorded code; a write that names no stalled fault of the partition is counted. -/
def State.writeResume (s : State) (p v : Nat) : State :=
  match s.stalled.find? (fun f => f.part = p && f.die = field v 48 8 && f.seq % 2 ^ 32 = field v 0 32) with
  | none => s.count 0xA081 6 1
  | some f =>
    let s := { s with stalled := s.stalled.filter fun x => x ≠ f }
    if v.testBit 63 then
      match s.group? f.group with
      | some g => (s.setGroup f.group { g with halted := true, wait := .ready }).abortKernel g.kernel f.code
      | none => s
    else if f.xfer.isSome then s
    else s.modGroup f.group fun g => if g.wait = .faulted f.die f.seq then { g with wait := .ready } else g

end Sys2Proof.Machine
end

