-- ==== Sys2Proof/Machine/NetRegs.lean ====
section
/-! DEFINITION. The group, aperture and key tables as registers (R303, R304, R307, R310, R311, R323), and
the collective sequencer with its slots (R314 to R316). Tables are written in 64-bit words; `mask` holds
the bits a write covers (R457). -/
namespace Sys2Proof.Machine

/-! ### Shares (R323) -/

/-- Whether entry `i` of a table of `count` entries is visible to a requester: a VF sees its partition's
equal contiguous share. -/
def State.inShare (s : State) (vf : Option Nat) (count i : Nat) : Bool :=
  match vf with
  | none => true
  | some p => p < s.parts && i / (count / s.parts) = p

/-- Replace 64-bit word `j` of a table entry. -/
def setWord (e j v : Nat) : Nat := setField e (64 * j) 64 v

/-! ### Group table (R307, R310) -/

/-- The cap of a partition is engaged (R317). -/
def State.capOf (s : State) (p : Nat) : Bool := sgetD s.power.capEngaged p false

/-- Set WRERR of an entry. -/
def State.groupWriteError (s : State) (g : Nat) : State := s.modGroupEntry g fun e => e ||| 2 ^ 11

/-- Whether a group-state image of a partition is being written (R377). -/
def State.imaging (s : State) (p : Nat) : Bool := sgetD s.mem.groupImage p 0 = 1

/-- A move of STATE (R310). A write of 000b to a closed entry moves nothing and is no error; every
other write the life cycle does not list sets WRERR (DEDUCED, log 26). -/
def State.moveGroupState (s : State) (g v : Nat) : State :=
  let e := s.groupEntry g
  match grpState e, v with
  | 0, 0 => s
  | 0, 1 =>
    if grpSailing e ≠ 0 ∧ grpSailing e = setting s 0x5040 (grpPart e + 1) ∧ grpSailing e ≠ grpLastSail e then
      let s := s.setGroupEntry g (setField (setField (setField e 0 3 1) 14 1 0) 15 1 (b2n (s.capOf (grpPart e))))
      { s with net := { s.net with flows := s.net.flows.filter fun x => flowGroup x.1 ≠ g } }
    else s.groupWriteError g
  | 1, 2 => if grpBound e then s.groupWriteError g else s.setGroupEntry g (setField e 0 3 2)
  | 2, 0 => s.closeGroup g
  | _, _ => s.groupWriteError g

/-- A write of STATE: held while the partition's group-state image is written (R377). -/
def State.writeGroupState (s : State) (g v : Nat) : State :=
  let p := grpPart (s.groupEntry g)
  if s.imaging p then { s with mem := { s.mem with heldWrites := s.mem.heldWrites ++ [(p, g, v)] } } else s.moveGroupState g v

/-- The RW bits of each word of a closed group entry, STATE and the W1C bits apart. -/
def groupRw (j : Nat) : Nat :=
  match j with
  | 0 => 0x700
  | 5 => 0xFFFFFFFFC0000000
  | 6 => 0xFFFFFFFFFFFFFFFF
  | 7 => 0xFFFFFFFFFFFFFFC0
  | _ => 0

/-- Write word `j` of a group table entry. OPTIMEOUT keeps its value when a value outside its range is
written (DEDUCED, log 27); PART written through a VF is the VF's partition. -/
def State.writeGroupWord (s : State) (vf : Option Nat) (g j mask v : Nat) : State :=
  if !s.inShare vf 4096 g then s
  else
    let e := s.groupEntry g
    let rw := if grpState e = 0 then groupRw j else (if j = 6 then 0xFFFFFFFF00000000 else 0)
    let old := field e (64 * j) 64
    let v1 := match vf with
      | some p => if j = 0 then setField v 8 3 p else v
      | none => v
    let new := mergeMask old (rw &&& mask) v1
    let new := if j = 6 ∧ (new / 2 ^ 32 < 2000 ∨ new / 2 ^ 32 > 3600000) then setField new 32 32 (old / 2 ^ 32) else new
    let w1c := if j = 0 then v &&& mask &&& 0x2800 else 0
    let s := s.setGroupEntry g (setWord e j (new &&& ((2 ^ 64 - 1) ^^^ w1c)))
    if j = 0 ∧ mask % 8 = 7 then s.writeGroupState g (v % 8) else s

/-! ### Aperture table (R303) -/

/-- Write word `j` of an aperture entry: while VALID, only a write that clears VALID acts, and it
changes VALID alone (DEDUCED, log 28). -/
def State.writeApertureWord (s : State) (vf : Option Nat) (i j mask v : Nat) : State :=
  if !s.inShare vf 4096 i then s
  else
    let e := s.aperture i
    let v1 := match vf with
      | some p => if j = 1 then setField v 60 3 p else v
      | none => v
    let put := fun (x : Nat) => { s with net := { s.net with apertures := sput s.net.apertures i (BitVec.ofNat 128 x) 0 } }
    if e.testBit 127 then
      (if j = 1 ∧ mask.testBit 63 ∧ !v.testBit 63 then put (setField e 127 1 0) else s)
    else
      let rw := if j = 0 then 0xFFFFFFFFF8000000 else 0xFFFFFFFFFFFFFFFF
      put (setWord e j (mergeMask (field e (64 * j) 64) (rw &&& mask) v1))

/-! ### Key table (R304) -/

def State.keyEntry (s : State) (i : Nat) : Nat := (sgetD s.net.keys i 0).toNat
def State.setKey (s : State) (i e : Nat) : State := { s with net := { s.net with keys := sput s.net.keys i (BitVec.ofNat 256 e) 0 } }
def keyValid (e : Nat) : Bool := e.testBit 255
def keyPart (e : Nat) : Nat := field e 252 3
def keyEpoch (e : Nat) : Nat := field e 224 16
def keySailing (e : Nat) : Nat := field e 192 32
def keySize (e : Nat) : Nat := field e 128 64
def keyBase (e : Nat) : Nat := field e 0 64

/-- VALID goes to 0 and EPOCH advances. -/
def closeKey (e : Nat) : Nat := if keyValid e then setField (setField e 255 1 0) 224 16 (keyEpoch e + 1) else e

/-- Whether a region lies wholly in memory held by a partition: an empty region does. -/
def State.regionHeld (s : State) (p a n : Nat) : Bool := n = 0 || (a + n ≤ 2 ^ 48 && s.rangeHeld p a n)

/-- Write word `j` of a key entry. A write that sets VALID is checked as a whole (R304). -/
def State.writeKeyWord (s : State) (vf : Option Nat) (i j mask v : Nat) : State :=
  if !s.inShare vf 16384 i then s
  else
    let e := s.keyEntry i
    let v1 := match vf with
      | some p => if j = 3 then setField v 60 3 p else v
      | none => v
    let rw := match j with
      | 0 => 0xFFFFFFFFFFFFF000
      | 2 => 0xFFFFFFFFFFFFFFFF
      | 3 => 0xFE000000FFFFFFFF
      | _ => 0
    let new := setWord e j (mergeMask (field e (64 * j) 64) (rw &&& mask) v1)
    if j = 3 ∧ mask.testBit 63 then
      (if v.testBit 63 then
        (if s.regionHeld (keyPart new) (keyBase new) (keySize new) ∧ keySailing new = setting s 0x5040 (keyPart new + 1)
         then s.setKey i new else s.count 0x5020 0xA 1)
       else s.setKey i (if keyValid e then setField new 224 16 (keyEpoch e + 1) else new))
    else s.setKey i new

/-- A new sailing (R311): the old one is kept as the previous sailing, and keys of other sailings close. -/
def State.setSailing (s : State) (p v : Nat) : State :=
  let s := s.setCounter 0x5042 (p + 1) (setting s 0x5040 (p + 1))
  let s := { s with dict := { s.dict with vals := sput s.dict.vals (odKey 0x5040 (p + 1)) v 0 } }
  let close := fun (e : Nat) => if keyPart e = p ∧ keySailing e ≠ v then closeKey e else e
  { s with net := { s.net with keys := s.net.keys.map fun e => (e.1, BitVec.ofNat 256 (close e.2.toNat)) } }

/-- Whether some entry of a partition is open or closing. -/
def State.partGroupsLive (s : State) (p : Nat) : Bool :=
  s.net.groups.any fun e => grpPart e.2.toNat = p && grpState e.2.toNat ≠ 0

/-! ### The collective sequencer (R314 to R316) -/

def State.slotReg (s : State) (k : Nat) : SchedSlot := sgetD s.net.sched k {}
def State.setSched (s : State) (k : Nat) (x : SchedSlot) : State := { s with net := { s.net with sched := sput s.net.sched k x {} } }
/-- SEQ_STATUS (R316). -/
def SchedSlot.statusReg (x : SchedSlot) : Nat := 2 ^ 32 * (x.stepIndex % 2 ^ 16) + 2 ^ 24 * (x.status % 256) + x.state

/-- End a schedule FAILED at a step: the bound kernel is aborted (R315). -/
def State.schedFail (s : State) (k step status : Nat) : State :=
  let x := s.slotReg k
  let s := s.setSched k { x with state := 3, stepIndex := step, status := status, inFlight := [] }
  let s := (s.count 0x5050 2 1).raise (528 + k)
  match s.boundKernel x.group with
  | some (kn, _) => s.remoteIncomplete kn (k / 16) 0 x.group
  | none => s

/-- The schedule of a slot has nothing left: DONE is incremented and the slot reports done. A DONE that
names no tally of the bound kernel ends it failed with status TALLY (DEDUCED, log 29). -/
def State.schedSettle (s : State) (k : Nat) : State :=
  let x := s.slotReg k
  if x.state = 1 ∧ x.stepIndex = x.steps ∧ x.inFlight = [] then
    match s.boundKernel x.group with
    | none => s.schedFail k x.stepIndex 0xFE
    | some (_, kn) => match kn.tallyOf x.done.toNat 4 with
      | none => s.schedFail k x.stepIndex 7
      | some (d, i) =>
        let s := s.tallyInc d i 1
        let s := s.setSched k { x with state := 2 }
        (s.count 0x5050 1 1).raise (528 + k)
  else s

def State.schedSettleAll (s : State) : State := (s.net.sched.map Prod.fst).foldl (fun s k => s.schedSettle k) s

/-- SEQ_GO (R316): read the header and start; a running slot ignores it. The status of a schedule that
fails on its header for another reason than a missing kernel is a free value (DESIGN CHOICE, log 30). -/
def State.seqGo (s : State) (k : Nat) : State :=
  let x := s.slotReg k
  if x.state = 1 then s.count 0x5050 3 1
  else
    let a := x.addr.toNat
    let (b, bad) := s.peekBytes a 64
    let h := fromLE b
    let g := field h 0 12
    let e := s.groupEntry g
    let steps := field h 32 16
    let s := s.setSched k { x with base := x.addr, state := 1, stepIndex := 0, status := 0, inFlight := [], group := g, steps := steps, done := BitVec.ofNat 32 (field h 64 32) }
    if bad ∨ a % 64 ≠ 0 ∨ h / 2 ^ 96 ≠ 0 ∨ field h 12 20 ≠ 0 ∨ field h 48 16 ≠ 1 ∨ steps = 0 ∨ steps > 4096 ∨ grpState e ≠ 1
        ∨ ¬ s.rangeHeld (grpPart e) a (64 * (steps + 1)) = true then
      s.useFree.schedFail k 0 (s.freeByte.toNat)
    else match s.boundKernel g with
      | none => s.schedFail k 0 0xFE
      | some _ => s

/-- Step `i` of a running schedule. -/
def State.schedStep (s : State) (x : SchedSlot) (i : Nat) : Nat × Bool :=
  let (b, bad) := s.peekBytes (x.base.toNat + 64 * (i + 1)) 64
  (fromLE b, bad)

def stepOp (r : Nat) : Nat := field r 0 4
def stepMember (s : State) (g r : Nat) : Nat :=
  let e := s.groupEntry g
  if r.testBit 9 then (grpSelf e + field r 239 17) % (grpCountM1 e + 1) else field r 239 17

/-- Whether a step record is as R314 gives it: no reserved value, no Reserved bit, a member within the
count. -/
def State.stepOk (s : State) (g r : Nat) : Bool :=
  stepOp r ≤ 4 && field r 24 215 = 0 && field r 10 6 = 0 && field r 4 3 = 0
    && (stepOp r ≠ 2 || (field r 20 4 ≤ 5 && field r 16 4 ≤ 7))
    && decide (stepMember s g r ≤ grpCountM1 (s.groupEntry g))

/-- Split a transfer at the 4 KiB boundaries of its remote offset: local offset, remote offset, length
(R295). -/
def splitRemote : Nat → Nat → Nat → Nat → List (Nat × Nat × Nat)
  | 0, _, _, _ => []
  | fuel + 1, l, r, n =>
    if n = 0 then []
    else
      let k := if n < 4096 - r % 4096 then n else 4096 - r % 4096
      (l, r, k) :: splitRemote fuel (l + k) (r + k) (n - k)

/-- Move on past a started step. -/
def State.schedAdvance (s : State) (k : Nat) (fly : Option Nat) : State :=
  let x := s.slotReg k
  s.setSched k { x with stepIndex := x.stepIndex + 1, inFlight := match fly with
    | some op => x.inFlight ++ [(x.stepIndex, op)]
    | none => x.inFlight }

/-- Start the next step of a slot if it is of the kind named and may start (R315): `op` is its
operation code. A step that breaks R314 ends the schedule failed, with a free status (DESIGN CHOICE, log 30). -/
def State.schedRun (s : State) (hub slot op : Nat) : State :=
  let k := 16 * hub + slot
  let x := s.slotReg k
  if x.state ≠ 1 ∨ x.stepIndex ≥ x.steps then s
  else
    let (r, bad) := s.schedStep x x.stepIndex
    if bad ∨ !s.stepOk x.group r ∨ grpState (s.groupEntry x.group) ≠ 1 then s.useFree.schedFail k x.stepIndex s.freeByte.toNat
    else if stepOp r ≠ op ∨ (r.testBit 7 ∧ x.inFlight ≠ []) ∨ x.inFlight.length ≥ 64 then s
    else match s.boundKernel x.group with
      | none => s.schedFail k x.stepIndex 0xFE
      | some (_, kn) =>
        let m := stepMember s x.group r
        let fk := flowKey hub x.group m
        let key := if field r 352 32 = 0 then field (s.member x.group m) 224 32 else field r 352 32
        let user := NetUser.schedule hub slot x.stepIndex
        let tally := field r 288 32
        let fl := if r.testBit 8 then 0x80 else 0
        let start := fun (s : State) (ps : List (Nat × Nat × Nat × Nat × Nat × Nat × Nat × Bytes)) =>
          let id := s.net.nextOp
          (s.schedAdvance k (some id)).startOp fk user false ps
        let s := match op with
          | 0 => s.schedAdvance k none
          | 4 => match kn.tallyOf tally 4 with
            | none => s.schedFail k x.stepIndex 7
            | some (d, i) => if s.tallyValue d i ≥ field r 448 64 then s.schedAdvance k none else s
          | 3 => start s [(7, 0, key, 0, 0, tally, field r 256 32, [])]
          | _ =>
            let n := field r 320 32
            let (b, poi) := s.peekBytes (field r 448 64) n
            if poi then s.schedFail k x.stepIndex 5
            else if n = 0 then s.schedAdvance k none
            else
              let arg := if op = 2 then field r 20 4 <<< 60 ||| field r 16 4 <<< 56 else 0
              start s ((splitRemote (n / 4096 + 2) 0 (field r 384 64) n).map fun (l, a, len) =>
                (if op = 2 then 6 else 1, fl, key, a, len, if fl = 0 then 0 else tally, arg, slice b l len))
        s.schedSettle k

/-! ### Rows -/

/-- A write of STATE 001b (R310). -/
def execGroupStateOpen (via : Requester) (grp : Fin 4096) (s : State) : Answer := .next (s.writeGroupWord via.vf? grp.val 0 7 1)
/-- A write of STATE 010b. -/
def execGroupStateClosing (via : Requester) (grp : Fin 4096) (s : State) : Answer := .next (s.writeGroupWord via.vf? grp.val 0 7 2)
/-- A write of STATE 000b. -/
def execGroupStateClosed (via : Requester) (grp : Fin 4096) (s : State) : Answer := .next (s.writeGroupWord via.vf? grp.val 0 7 0)
/-- The node closes a closing entry whose operations have ended. -/
def execGroupClosingDone (grp : Fin 4096) (s : State) : Answer := .next (s.settleClosing grp.val)
/-- A full write of the word of a key entry that holds VALID, with VALID 1. -/
def execKeyEntryValid (via : Requester) (i : Fin 16384) (word : BitVec 64) (s : State) : Answer :=
  .next (if word.getLsbD 63 then s.writeKeyWord via.vf? i.val 3 (2 ^ 64 - 1) word.toNat else s)
/-- SEQ_GO acts on a full-width write alone (R457). -/
def execSeqGo (hub : Fin 2) (slot : Fin 16) (width : BitVec 4) (s : State) : Answer :=
  .next (if width = 8 then s.seqGo (16 * hub.val + slot.val) else s)
/-- A NOP step. -/
def execScheduleNop (hub : Fin 2) (slot : Fin 16) (s : State) : Answer := .next (s.schedRun hub.val slot.val 0)
/-- A PUT step. -/
def execSchedulePut (hub : Fin 2) (slot : Fin 16) (s : State) : Answer := .next (s.schedRun hub.val slot.val 1)
/-- A REDUCE step. -/
def execScheduleReduce (hub : Fin 2) (slot : Fin 16) (s : State) : Answer := .next (s.schedRun hub.val slot.val 2)
/-- A TADD step. -/
def execScheduleTadd (hub : Fin 2) (slot : Fin 16) (s : State) : Answer := .next (s.schedRun hub.val slot.val 3)
/-- A WAIT step. -/
def execScheduleWait (hub : Fin 2) (slot : Fin 16) (s : State) : Answer := .next (s.schedRun hub.val slot.val 4)

end Sys2Proof.Machine
end

