-- ==== Sys2Proof/Machine/Repair.lean ====
section
/-! DEFINITION. Sector errors, the patrol scrubber, retirement, spare slots and fills (R183, R185, R193 to
R197, R364, R368, R369), the 1500 port of a stack (R198) and taking a stack offline (R199). -/
namespace Sys2Proof.Machine

/-- The key address of a byte of a linear pseudo-channel: the inverse of the interleave (R181). -/
def State.pcKey (s : State) (p byte : Nat) : Nat :=
  let st := p / 64
  let half := s.mem.halfMode
  let n := if half then 128 else 256
  let j := if half then 2 * (p % 64) + st % 2 else 4 * (p % 64) + st % 4
  let start := if half then 160000000000 * (st % 4 / 2) else 0
  let r := byte / 256
  let y := if byte < 1249999872 then (r * n + (j ^^^ (r % n))) * 256 + byte % 256
           else 4882812 * (256 * n) + j * 128 + (byte - 1249999872)
  0x8000000000 * (st / 4) + start + y

/-- The stack's fill has ended: the next waiting retirements start until one of them fills. -/
def State.nextFill (s : State) (st : Nat) : State :=
  let s := s.modStack st fun x => { x with fill := none }
  let waiting := (s.stack st).fillWaiting
  waiting.foldl (fun s (p, cause) =>
    if (s.stack st).fill.isSome then s
    else (s.modStack st fun x => { x with fillWaiting := x.fillWaiting.filter fun e => e.1 ≠ p }).retireNow p cause) s

/-! ### The patrol scrubber (R185) -/

/-- A command or address parity error of an access to a stack's sector: the sixteenth retires its pseudo-channel
(R364); the access is repeated (DESIGN CHOICE, log 150). -/
def State.parityError (s : State) (k : Nat) : State :=
  match s.servingPackage k with
  | some _ => s
  | none =>
    let p := (s.keyPc k).2.1
    let n := (s.pc p).parityErrors + 1
    let s := s.modPc p fun x => { x with parityErrors := n }
    if 16 ≤ n then s.retire p 3 else s

/-- A sector's stored word comes to have `n` symbols in error. The scrubber reads it then; with scrubbing off the
errors stay until an access reads the sector (R183; DESIGN CHOICE, log 150). A sector already poisoned is counted
(R366; DEDUCED, log 32).
(DESIGN CHOICE, log 113.) -/
def execPatrolScrub (addr : BitVec 48) (e : SectorError) (s : State) : Answer :=
  .next (match s.keyAddr addr.toNat with
    | none => s
    | some a =>
      let k := a / 32 * 32
      match e with
      | .parity => s.parityError k
      | .symbols n row =>
        let s' := if n.val = 0 then s else s.setUpset k n.val row.toNat
        if s.lossAt k ≠ .none then s
        else if setting s 0x4020 1 = 0 then s'
        else if s.marked k then s.countLost k
        else s'.meetUpset k)

/-- The base die reports a pseudo-channel out of service, or nothing of it answers for 1 ms (R364). -/
def execPseudoChannelHardFailure (pc : Fin 1024) (s : State) : Answer := .next (s.retire pc.val 4)

/-- Copy one granule of a running fill (R195, R368): 4,882,812 granules and the 128-byte tail. The read of a sector
meets its errors like any other (R183).
(DEDUCED, log 114.) -/
def State.fillStep (s : State) (st : Nat) (e : FillError) : State :=
  match (s.stack st).fill with
  | none => s
  | some (p, sub, g) =>
    match e with
    | .slotFault =>
      let s := (s.modPc p fun x => { x with lost := true })
      let s := match sget? sub s.mem.slots with
        | some sl => s.setSlotEntry sub { sl with lost := true }
        | none => s
      (s.event { cls := 3, code := 0x13, die := p / 256, location := p, data := 3 }).nextFill st
    | .sectors bad =>
      let n := if g = 4882812 then 4 else 8
      let hit := fun i => bad.toNat.testBit i || (s.pc p).failedHard
      let s := (List.range n).foldl (fun s i =>
        let k := s.pcKey p (256 * g + 32 * i)
        if hit i then
          ((s.dramPoison k).count 0x4013 (st + 1) 1).event { cls := 3, code := 2, die := p / 256, addr := k, location := p }
        else s.meetUpset k) s
      if g = 4882812 then
        let s := match sget? sub s.mem.slots with
          | some sl => s.setSlotEntry sub { sl with filled := true }
          | none => s
        ((s.count 0x4030 6 1).event { cls := 6, code := 0x12, die := p / 256, location := p, data := sub }).nextFill st
      else s.modStack st fun x => { x with fill := some (p, sub, g + 1) }

def execFillGranule (stack : Fin 16) (e : FillError) (s : State) : Answer := .next (s.fillStep stack.val e)

/-- A tier-2 package fails (R369). -/
def execTier2PackageFailure (pkg : Fin 24) (s : State) : Answer :=
  .next (if s.mem.failedPkgs.contains pkg.val then s
    else ({ s with mem := { s.mem with failedPkgs := pkg.val :: s.mem.failedPkgs } }).event
      { cls := 5, code := 0x14, die := 6 + pkg.val / 12, location := pkg.val })

/-! ### The 1500 port (R198) -/

/-- CTRL as read. -/
def Stack.ctrl (x : Stack) : Nat := x.result.toNat <<< 16 ||| b2n x.busy <<< 8 ||| x.wir.toNat

/-- A full-width write of CTRL: WIR is taken; GO runs it with WDRIN unless an instruction is running,
and then WIR of the running one is kept by the wrapper. -/
def State.writeCtrl (s : State) (st v : Nat) : State :=
  s.modStack st fun x =>
    let x := { x with wir := BitVec.ofNat 8 v }
    if v.testBit 31 && !x.busy then { x with busy := true, running := x.wir, operand := x.wdrin } else x

/-- Spare rows of a bank in use. -/
def PseudoChannel.spares (y : PseudoChannel) (b : Nat) : Nat := sgetD y.rowsUsed b 0 + sgetD y.softRows b 0

/-- Whether a pseudo-channel is in service: a retired one is until its fill has copied the tail (R195 step 4). -/
def State.inService (s : State) (p : Nat) : Bool :=
  !(s.pc p).retired || (match (s.stack (p / 64)).fill with
    | some (q, _, _) => q = p
    | none => false)

/-- What a wrapper instruction does: the state, WDROUT and RESULT. A bit of WDRIN that is not listed and
not zero, or a row beyond the bank, ends with RESULT 02h. -/
def State.wrapperRun (s : State) (st : Nat) : State × Nat × Nat :=
  let x := s.stack st
  let w := x.operand.toNat
  let pcStatusByte := fun (i : Nat) =>
    let p := s.pc (64 * st + i)
    b2n (s.inService (64 * st + i)) ||| b2n p.retired <<< 1 ||| b2n p.rowsRepaired <<< 2 ||| b2n p.bankReplaced <<< 3
  match x.running.toNat with
  | 0x01 =>
    if w ≥ 8 then (s, 0, 2) else (s, fromLE ((List.range 8).map fun i => BitVec.ofNat 8 (pcStatusByte (8 * w + i))), 0)
  | 0x02 =>
    if w / 512 ≠ 0 ∨ field w 6 2 ≠ 0 then (s, 0, 2)
    else
      let p := 64 * st + field w 0 6
      if w.testBit 8 then (s, b2n (Config.spareBankUnused (p / 2) && !sgetD s.mem.spareBanks (p / 2) false), 0)
      else
        let left := fun (b : Nat) => (Config.spareRows p b - (s.pc p).spares b) % 16
        (s, (List.range 16).foldl (fun n b => n ||| left b <<< (4 * b)) 0, 0)
  | 0x03 =>
    let p := 64 * st + field w 26 6
    let b := field w 22 4
    let row := field w 0 18
    if !x.offline then (s, 0, 3)
    else if field w 32 31 ≠ 0 ∨ field w 18 4 ≠ 0 ∨ row ≥ Config.rowsPerBank then (s, 0, 2)
    else if Config.spareRows p b ≤ (s.pc p).spares b then (s, 0, 1)
    else if w.testBit 63 then (s.modPc p fun y => { y with rowsUsed := sput y.rowsUsed b (sgetD y.rowsUsed b 0 + 1) 0 }, 0, 0)
    else (s.modPc p fun y => { y with softRows := sput y.softRows b (sgetD y.softRows b 0 + 1) 0, rowsRepaired := true }, 0, 0)
  | 0x04 =>
    let p := 64 * st + field w 26 6
    if !x.offline then (s, 0, 3)
    else if w / 2 ^ 32 ≠ 0 ∨ field w 0 22 ≠ 0 then (s, 0, 2)
    else if !Config.spareBankUnused (p / 2) || sgetD s.mem.spareBanks (p / 2) false then (s, 0, 1)
    else
      let s := s.modPc p fun y => { y with bankReplaced := true }
      ({ s with mem := { s.mem with spareBanks := sset (p / 2) true s.mem.spareBanks } }, 0, 0)
  | 0xFF => (s, 0, 0)
  | _ => (s, 0, 4)

/-- Start one wrapper instruction through CTRL. -/
def State.wrapperGo (s : State) (st wir : Nat) : State := s.writeCtrl st (2 ^ 31 + wir)

/-- CTRL written with GO and WIR 01h. -/
def execPcStatus (stack : Fin 16) (s : State) : Answer := .next (s.wrapperGo stack.val 0x01)
/-- CTRL written with GO and WIR 02h. -/
def execRepairInfo (stack : Fin 16) (s : State) : Answer := .next (s.wrapperGo stack.val 0x02)
/-- CTRL written with GO and WIR 03h. -/
def execRowRepair (stack : Fin 16) (s : State) : Answer := .next (s.wrapperGo stack.val 0x03)
/-- CTRL written with GO and WIR 04h. -/
def execBankRepair (stack : Fin 16) (s : State) : Answer := .next (s.wrapperGo stack.val 0x04)
/-- CTRL written with GO and WIR FFh. -/
def execWrapperBypass (stack : Fin 16) (s : State) : Answer := .next (s.wrapperGo stack.val 0xFF)
/-- The running instruction ends: BUSY clears, RESULT and WDROUT are set. -/
def execWrapperInstructionDone (stack : Fin 16) (s : State) : Answer :=
  .next (if (s.stack stack.val).busy then
    let (s, out, res) := s.wrapperRun stack.val
    s.modStack stack.val fun x => { x with busy := false, wdrout := BitVec.ofNat 64 out, result := BitVec.ofNat 8 res }
  else s)
/-- An instruction still running after 5 s ends with RESULT 05h. -/
def execWrapperTimeout (stack : Fin 16) (s : State) : Answer :=
  .next (if (s.stack stack.val).busy then s.modStack stack.val fun x => { x with busy := false, result := 5 } else s)

/-! ### Offline stacks (R197, R199) -/

/-- The partition that holds a stack's memory. -/
def State.stackPart (s : State) (st : Nat) : Nat := st / 2 / (8 / s.parts)

/-- Whether a stack may go offline: no kernel runs in a partition that holds its memory. -/
def State.offlineAllowed (s : State) (st : Nat) : Bool := !(s.kernels.any fun e => e.2.part = s.stackPart st)

/-- Take every copy of a stack's lines out of the caches and its directories: its data is not preserved, and no
copy outlives the zeroing (R199). -/
def State.dropStack (s : State) (st : Nat) : State :=
  let mine := fun (line : Nat) => !isTier2 line && decide ((s.keyPc line).1 = st)
  { s with agents := s.agents.map fun (e : Nat × CohAgent) => (e.1, { e.2 with
      copies := e.2.copies.filter fun c => c.remote || !mine c.line
      wbBuf := e.2.wbBuf.filter fun c => !mine c.line
      dir := e.2.dir.filter fun d => !mine d.line }) }

/-- Stack offline request: a stack number takes it offline, FFh starts bringing every offline stack
back; a stack that is being zeroed stays offline until that ends. -/
def State.stackRequest (s : State) (v : Nat) : State :=
  if v = 0xFF then { s with mem := { s.mem with hbmStacks := s.mem.hbmStacks.map fun e => (e.1, if e.2.offline then { e.2 with zeroing := true } else e.2) } }
  else (s.dropStack v).modStack v fun x => { x with offline := true, zeroing := false }

/-- Write zero to every sector of a stack but those of pseudo-channels that remain retired. -/
def State.zeroStack (s : State) (st : Nat) : State :=
  let gone := fun (k : Nat) =>
    if isTier2 k then false
    else
      let (t, p, _) := s.keyPc k
      t = st && !(s.pc p).retired
  let s := s.dropStack st
  let s := { s with mem := { s.mem with
    cells := s.mem.cells.filter fun e => !gone e.1
    upsets := s.mem.upsets.filter fun e => !gone (32 * e.1)
    known := s.mem.known.filter fun e => !gone (32 * e.1)
    poison := s.mem.poison.filter fun e => !gone (32 * e.1) } }
  s.modStack st fun x => { x with offline := false, zeroing := false, mixed := none, cleared := s.mem.allPoisoned || x.cleared }

/-- A stack brought back has been zeroed and serves accesses. -/
def execStackZeroed (stack : Fin 16) (s : State) : Answer :=
  .next (if (s.stack stack.val).zeroing then s.zeroStack stack.val else s)

/-- Free a slot: the pseudo-channel returns to service with its counts clear (R197, R364); a fill of it ends, and
the next waiting one starts (R195). -/
def State.releaseSlot (s : State) (sub : Nat) : State :=
  match sget? sub s.mem.slots with
  | none => s
  | some sl =>
    let s := ({ s with mem := { s.mem with slots := sdel sub s.mem.slots } }).writeRecord
    let ended := (s.stack (sl.pc / 64)).fill.any fun f => f.1 = sl.pc
    let s := if ended then s.nextFill (sl.pc / 64) else s
    s.modPc sl.pc fun x => { x with retired := false, lost := false, failedHard := false, correctedSectors := [], repeatSectors := [], uncorrectableRows := [], parityErrors := 0 }

/-- Whether a slot may be freed: its stack is offline. -/
def State.slotFreeable (s : State) (sub : Nat) : Bool :=
  match sget? sub s.mem.slots with
  | some sl => (s.stack (sl.pc / 64)).offline
  | none => false

/-- A slot entry as read (R197); subs beyond the slot count read zero. -/
def State.slotWord (s : State) (sub : Nat) : Nat :=
  if (if sub ≥ 0x41 then sub - 0x41 else sub - 1) ≥ s.slotCount then 0
  else match sget? sub s.mem.slots with
  | some sl => 2 ^ 31 + 2 ^ 30 * b2n sl.filled + 2 ^ 29 * b2n sl.lost + sl.pc
  | none => 0

end Sys2Proof.Machine
end

