-- ==== Sys2Proof/Machine/Twins.lean ====
section
/-! DEFINITION. Twin regions, slack water, drains and checkpoint records (R370 to R376), and the
group-state image (R377). -/
namespace Sys2Proof.Machine

def State.twin (s : State) (t : Nat) : Twin := sgetD s.mem.twins t {}
def State.setTwin (s : State) (t : Nat) (x : Twin) : State := { s with mem := { s.mem with twins := sput s.mem.twins t x {} } }
def State.modTwin (s : State) (t : Nat) (f : Twin → Twin) : State := s.setTwin t (f (s.twin t))
def State.flip (s : State) (p : Nat) : FlipState := sgetD s.mem.flips p {}
def State.setFlip (s : State) (p : Nat) (x : FlipState) : State := { s with mem := { s.mem with flips := sput s.mem.flips p x {} } }

/-- Twin state, sub 08h, as read. -/
def Twin.stateWord (t : Twin) : Nat := b2n t.valid <<< 31 ||| b2n t.drainFail <<< 24 ||| b2n t.draining <<< 23 ||| b2n t.cur <<< 22
/-- The committed backing, and the drain target of it. -/
def Twin.backing (t : Twin) : Nat := if t.cur then t.back1.toNat else t.back0.toNat
def Twin.target (t : Twin) : Nat := if t.cur then t.target1.toNat else t.target0.toNat

/-- Whether a twin may become valid (R370). -/
def State.twinOk (s : State) (t : Twin) : Bool :=
  let n := t.size.toNat
  let a := t.back0.toNat
  let b := t.back1.toNat
  n % 4096 = 0 && decide (t.part < s.parts) && s.regionHeld t.part a n && s.regionHeld t.part b n
    && (a + n ≤ b || b + n ≤ a) && (s.flip t.part).pending.isNone

/-- The valid twins of a partition. -/
def State.partTwins (s : State) (p : Nat) : Sparse Twin := s.mem.twins.filter fun e => e.2.valid && e.2.part = p

/-! ### Hub drains (R372 to R375) -/

/-- The die that serves a backing: the Kysar die of an HBM address, the hub of tier 2. -/
def State.backingDie (s : State) (a : Nat) : Nat :=
  match s.keyAddr a with
  | some k => if isTier2 k then 6 + tier2Hub k else k / 0x8000000000
  | none => 6

/-- The checkpoint descriptor and commit word (R374). -/
def ckptDescriptor (crc size step part twin sailing : Nat) : Nat :=
  crc <<< 256 ||| (size % 2 ^ 64) <<< 192 ||| (step % 2 ^ 64) <<< 128 ||| part <<< 112 ||| twin <<< 96 ||| sailing <<< 64
    ||| 1 <<< 32 ||| 0x434B5054
def commitWord (step : Nat) : Nat := 0x434D4954 <<< 32 ||| step % 2 ^ 32

/-- Write bytes for a hub drain at a node physical address; the drain breaks where the write is refused
(R375). -/
def State.drainWrite (s : State) (t die a : Nat) (b : Bytes) : State :=
  let tw := s.twin t
  let broke := fun (s : State) => s.modTwin t fun x => { x with broken := true }
  if !s.backedFor tw.part a || !s.backedFor tw.part (a + b.length - 1) then broke s
  else match window a with
    | .net off => if !s.windowReached die (window a) then broke s else (splitRemote (b.length / 4096 + 2) 0 off b.length).foldl (fun s (l, o, n) =>
        let (fk, key, addr) := s.apertureTarget die o
        s.startOp fk (.drain t) false [(1, 0, key, addr, n, 0, 0, slice b l n)]) s
    | .host port off =>
      if s.portOpen port then s.send (.hostWrite port (s.partVf tw.part) off b false) else broke (s.count 0x6050 6 1)
    | .companion _ | .regs _ | .reserved => broke s
    | _ => match s.hubWriteRange (10 + hubOfDie die) a b with
      | some s => s
      | none => broke s

/-- Behind the writes of a drain through a host window goes a 4-byte read of the last address written (R373). -/
def State.drainCover (s : State) (t last : Nat) : State :=
  match window last with
  | .host port off => if (s.twin t).broken then s else s.hostRead (s.twin t).part port (off / 4 * 4) 4 (.drain t) false
  | _ => s

/-- Start the hub drain of a twin's committed backing: descriptor, then data (R373). An uncorrectable error of the
staging SRAM fails the drain, and one in the trace share drops the trace (R365; DESIGN CHOICE, log 162). -/
def State.startDrain (s : State) (t : Nat) : State :=
  let tw := s.twin t
  let (data, bad) := s.peekBytes tw.backing tw.size.toNat
  let die := s.backingDie tw.backing
  let (s, hit) := s.meetArrays .staging (hubOfDie die) 3 fun _ => true
  let s := if hit.any fun u => u.entry = 1 then { s with mem := { s.mem with trace := sdel (hubOfDie die) s.mem.trace } } else s
  let s := s.modTwin t fun x => { x with stage := 1, broken := hit.any (fun u => u.entry = 0) || bad || setting s 0x8020 1 ≥ 32 }
  if (s.twin t).broken then s
  else
    let d := ckptDescriptor (crc32c data) tw.size.toNat tw.step.toNat tw.part t (setting s 0x5040 (tw.part + 1))
    let s := s.drainWrite t die tw.target (toLE 64 d)
    let s := if data.isEmpty then s else s.drainWrite t die (tw.target + 64) data
    s.drainCover t (tw.target + 63 + data.length)

/-- Network operations and host reads of a drain still outstanding. -/
def State.drainOpsOut (s : State) (t : Nat) : Bool :=
  s.net.ops.any (fun o => o.user == .drain t) || s.host.reads.any fun r => r.user == .drain t

/-- DRAINING clears (R372, R373, R375). The last one of the partition to clear gives OD 4073h its value. -/
def State.drainEnd (s : State) (t : Nat) (ok : Bool) (ms : Nat) : State :=
  let tw := s.twin t
  let s := s.setTwin t { tw with draining := false, drainFail := !ok, stage := 0, broken := false }
  let s := if (s.mem.twins.any fun e => e.2.draining && e.2.mode = 1) then s else s.setCounter 0x2010 2 (setting s 0x8020 2)
  let s := if (s.partTwins tw.part).any (fun e => e.2.draining) then s else s.setCounter 0x4073 (tw.part + 1) (ms % 2 ^ 32)
  if ok then s else s.event { cls := 6, code := 0x50, die := 6, part := tw.part, location := t, data := tw.step.toNat }

/-- A hub drain ends (R373, R375): once its writes are complete the commit word is written, and once that
is complete DRAINING clears; a drain that failed writes no commit word. -/
def execHubDrainEnd (twin : BitVec 8) (ok : Bool) (ms : BitVec 32) (s : State) : Answer :=
  let t := twin.toNat
  let tw := s.twin t
  .next (if !tw.draining ∨ tw.mode ≠ 1 ∨ s.drainOpsOut t then s
    else if tw.stage = 2 then s.drainEnd t (ok && !tw.broken) ms.toNat
    else if !ok ∨ tw.broken then s.drainEnd t false ms.toNat
    else
      let s := s.drainWrite t (s.backingDie tw.backing) (tw.target + 64 + tw.size.toNat) (toLE 8 (commitWord tw.step.toNat))
      let s := s.drainCover t (tw.target + 71 + tw.size.toNat)
      if s.drainOpsOut t then s.modTwin t fun x => { x with stage := 2 }
      else s.drainEnd t (!(s.twin t).broken) ms.toNat)

/-- Software's report of a drain (R372): DRAINING clears, and with 2 DRAINFAIL is set. The duration of a
software drain is a free value (DESIGN CHOICE, log 35). -/
def State.softDrainDone (s : State) (t : Nat) (ok : Bool) : State :=
  let tw := s.twin t
  if !tw.draining ∨ tw.mode ≠ 0 then s else s.useFree.drainEnd t ok s.freeNat

/-! ### Slack water (R371) -/

/-- Whether a slack water may be declared: a later step, and no flip pending. -/
def State.slackOk (s : State) (p step : Nat) : Bool := s.counter 0x4071 (p + 1) < step && (s.flip p).pending.isNone
def State.declareSlack (s : State) (p step : Nat) : State := s.setFlip p { s.flip p with pending := some (BitVec.ofNat 64 step) }

/-- FLIP: with no valid twin draining, CUR of every valid twin inverts, a drain step starts its drains,
and the step comes into force. -/
def execTwinFlip (p : Fin 8) (s : State) : Answer :=
  .next (match (s.flip p.val).pending with
    | none => s
    | some step =>
      if (s.partTwins p.val).any (fun e => e.2.draining) then s
      else
        let every := setting s 0x4072 (p.val + 1)
        let since := (s.flip p.val).sinceDrain + 1
        let drain : Bool := every ≠ 0 && since ≥ every
        let ts := s.partTwins p.val
        let s := ts.foldl (fun s e => s.modTwin e.1 fun t =>
          { t with cur := !t.cur, draining := drain && t.mode ≠ 0xFF, step := if drain then step else t.step }) s
        let s := s.setFlip p.val { pending := none, sinceDrain := if drain then 0 else since }
        let s := (s.setCounter 0x4071 (p.val + 1) step.toNat).setInterval p.val
        if drain then ts.foldl (fun s e => if e.2.mode = 1 then s.startDrain e.1 else s) s else s)

/-! ### Group-state image (R377) -/

/-- Open groups of a partition, in index order. -/
def State.openGroups (s : State) (p : Nat) : List Nat :=
  (s.net.groups.filter fun e => grpPart e.2.toNat = p && grpState e.2.toNat = 1).map Prod.fst

/-- The sections of one group. -/
def State.imageGroup (s : State) (g : Nat) : Bytes :=
  let e := s.groupEntry g
  let aps := s.net.apertures.filter fun a => a.2.getLsbD 127 && field a.2.toNat 112 12 = g
  let bases : List (Nat × Nat × Nat) := match s.boundKernel g with
    | some (_, k) => k.tallyBase.map fun b => (b.1, b.2, k.man.tallies)
    | none => []
  let dies := maskOf (bases.map fun b => b.1)
  toLE 64 (g ||| (aps.length % 65536) <<< 16 ||| dies <<< 32)
    ++ toLE 64 e
    ++ (s.peekBytes (grpMembers e) (64 * (grpCountM1 e + 1))).1
    ++ aps.flatMap (fun a => toLE 16 (a.1 % 65536) ++ toLE 16 a.2.toNat)
    ++ bases.flatMap (fun (d, b, n) => toLE 8 b ++ toLE 8 n ++ (List.range n).flatMap fun i => toLE 8 (s.tallyValue d (b + i)))

/-- The whole image; its time stamp is a free value (DESIGN CHOICE, log 8). -/
def State.groupImageBytes (s : State) (p : Nat) : Bytes :=
  let gs := s.openGroups p
  let body := gs.flatMap fun g => s.imageGroup g
  toLE 64 ((64 + body.length) <<< 192 ||| s.freeWord.toNat <<< 128 ||| setting s 0x5040 (p + 1) <<< 96
    ||| (gs.length % 65536) <<< 80 ||| p <<< 72 ||| 1 <<< 32 ||| 0x47534749) ++ body

def State.setImageStatus (s : State) (p v : Nat) : State :=
  { s with mem := { s.mem with groupImage := sput s.mem.groupImage p v 0 } }

/-- A write of the image address starts the image, or fails for the address.
(DEDUCED, log 88.) -/
def State.startImage (s : State) (p a : Nat) : State :=
  s.setImageStatus p (if a % 4096 = 0 ∧ s.rangeHeld p a 64 then 1 else 3)

/-- Held writes of a partition are performed (DEDUCED, log 33). -/
def State.releaseHeld (s : State) (p : Nat) : State :=
  let mine := s.mem.heldWrites.filter fun h => h.1 = p
  let s := { s with mem := { s.mem with heldWrites := s.mem.heldWrites.filter fun h => h.1 ≠ p } }
  mine.foldl (fun s (_, g, v) =>
    if g < 4096 then s.moveGroupState g v
    else if s.partGroupsLive p then s else s.setSailing p v) s

/-- The image is written: done, or failed for space. -/
def execGroupImageDone (p : Fin 8) (s : State) : Answer :=
  .next (if !s.imaging p.val then s
    else
      let a := setting s 0x5060 (p.val + 1)
      let b := s.groupImageBytes p.val
      let s := s.useFree
      let s := if s.rangeHeld p.val a b.length then
          (match s.hubWriteRange 10 a b with
           | some s => s.setImageStatus p.val 2
           | none => s)
        else s.setImageStatus p.val 3
      if s.imaging p.val then s else s.releaseHeld p.val)

end Sys2Proof.Machine
end

