-- ==== Sys2Proof/Machine/Registers.lean ====
section
/-! DEFINITION. The register map: the register window's blocks (R19) and the BARs (R322, R323, R325),
what each register reads, what a write to it does, and the access rules of R457. -/
namespace Sys2Proof.Machine

/-- A register. Tables are named by entry and 64-bit word, mailboxes by 64-bit word. -/
inductive Reg where
  | tallyValue (die i : Nat)
  | tallyAdd (die i : Nat)
  /-- 1500 port: 0 CTRL, 1 WDRIN, 2 WDROUT -/
  | wrapper (stack k : Nat)
  | time (die : Nat)
  | claim (hart : Nat)
  | hartStart (hart : Nat)
  | coreFreq (hart : Nat)
  /-- translation block, by offset -/
  | xl (part off : Nat)
  | route (n : Nat)
  | intsend
  /-- dictionary mailbox: key and offset -/
  | mailbox (key off : Nat)
  | doorbell (q : Nat)
  /-- queue control, by offset -/
  | queue (q off : Nat)
  /-- `hub1`: the copy on HB1, whose writes are ignored -/
  | group (g j : Nat) (hub1 : Bool)
  | aperture (i j : Nat) (hub1 : Bool)
  | key (i j : Nat) (hub1 : Bool)
  /-- schedule slot register, by offset -/
  | slot (k off : Nat)
  | ecam (hub word : Nat)
  /-- function control, by offset -/
  | fnCtl (fn : Fn) (off : Nat)
  /-- a word of a function's MSI-X table, and its Pending Bit Array -/
  | msix (fn : Fn) (word : Nat)
  | msixPba (fn : Fn)
  /-- recovery: 0 REC_SIZE, 1 REC_GO, 2 REC_STATUS; the window by 64-bit word -/
  | recovery (k : Nat)
  | recWindow (word : Nat)
  deriving DecidableEq, Repr

/-- A register found at an address: itself, its first byte and its width in bytes. -/
structure RegAt where
  reg : Reg
  base : Nat
  width : Nat
  deriving DecidableEq, Repr

/-! ### Where registers lie -/

/-- Registers of a translation block by offset (R254). -/
def xlWidth (o : Nat) : Option Nat :=
  if o = 0 ∨ o = 0x100 ∨ o = 0x108 ∨ o = 0x110 ∨ o = 0x118 ∨ o = 0x200 then some 8
  else if o = 8 ∨ o = 0x10 ∨ o = 0x18 ∨ o = 0x20 then some 4
  else if 0x40 ≤ o ∧ o < 0x80 ∧ o % 8 = 0 then some 8
  else if 0x800 ≤ o ∧ o < 0x800 + 64 * 16 ∧ o % 8 = 0 then some 8
  else none

/-- Registers of a queue by offset (R325). -/
def queueWidth (o : Nat) : Option Nat :=
  if o = 0 then some 8 else if o = 8 ∨ o = 0x10 ∨ o = 0x14 ∨ o = 0x18 ∨ o = 0x1C then some 4 else none

/-- Registers of the function control block by offset (R332). -/
def fnCtlWidth (o : Nat) : Option Nat :=
  if o = 0 ∨ o = 0x10 ∨ o = 0x20 then some 8 else if o = 8 ∨ o = 0x18 ∨ o = 0x28 then some 4 else none

/-- Registers of a mailbox by offset (R396). -/
def mailboxWidth (o : Nat) : Option Nat :=
  if o < 0x2000 ∧ o % 8 = 0 then some 8 else if o = 0x2000 ∨ o = 0x2004 then some 4 else none

/-- The register that a byte offset of a block falls into: one that starts at the byte's 8-byte or
4-byte boundary and reaches it. -/
def findReg (mk : Nat → Reg) (width : Nat → Option Nat) (o : Nat) : Option RegAt :=
  let at_ := fun (b : Nat) => (width b).bind fun w => if o < b + w then some { reg := mk b, base := b, width := w : RegAt } else none
  (at_ (o / 4 * 4)).orElse fun _ => at_ (o / 8 * 8)

/-- Move a register's base by the block's own. -/
def RegAt.shift (r : RegAt) (b : Nat) : RegAt := { r with base := r.base + b }

/-- Queue section of BAR2's layout for a partition: doorbell page and control (R325). -/
def doorbellAt (p o : Nat) : Option RegAt :=
  if o % 4096 < 4 then some { reg := .doorbell (64 * p + o / 4096), base := 4096 * (o / 4096), width := 4 } else none
def queueAt (p o : Nat) : Option RegAt :=
  if o ≥ 64 * 64 then none
  else (findReg (fun b => .queue (64 * p + o / 64) b) queueWidth (o % 64)).map fun r => r.shift (o / 64 * 64)

/-- PF BAR2's layout. -/
def bar2At (o : Nat) : Option RegAt :=
  if o < 0x200000 then (doorbellAt (o / 0x40000) (o % 0x40000)).map fun r => r.shift (0x40000 * (o / 0x40000))
  else if o < 0x400000 then
    let x := o - 0x200000
    (queueAt (x / 0x40000) (x % 0x40000)).map fun r => r.shift (0x200000 + 0x40000 * (x / 0x40000))
  else none

/-- The MSI-X table and Pending Bit Array of a function at an offset of their place in BAR2 (PRESUMED, log 12). -/
def msixAt (fn : Fn) (o : Nat) : Option RegAt :=
  if o < 0x400 then some { reg := .msix fn (o / 4), base := o / 4 * 4, width := 4 }
  else if 0x800 ≤ o ∧ o < 0x808 then some { reg := .msixPba fn, base := 0x800, width := 8 }
  else none
/-- First byte of that place: in the queue-control section, beyond its queues. -/
def msixBase (fn : Fn) : Nat := if fn.vf.val = 0 then 0x210000 else 0x50000

/-- A table of entries of `n` 64-bit words. -/
def tableAt (mk : Nat → Nat → Reg) (n o : Nat) : RegAt :=
  { reg := mk (o / (8 * n)) (o % (8 * n) / 8), base := o / 8 * 8, width := 8 }

/-- A schedule slot's registers (R316). -/
def slotAt (hub o : Nat) : Option RegAt :=
  if o % 32 < 24 then some { reg := .slot (16 * hub + o / 32) (o % 32 / 8 * 8), base := o / 8 * 8, width := 8 } else none

/-- One register per 8 bytes, `w` bytes wide. -/
def strideAt (mk : Nat → Reg) (w o : Nat) : Option RegAt :=
  if o % 8 < w then some { reg := mk (o / 8), base := o / 8 * 8, width := w } else none

/-- The register at an offset of the register-and-control window (R19). -/
def regAt (off : Nat) : Option RegAt :=
  let die := off / 0x200000000
  let blk := 0x200000000 * die
  let o := off % 0x200000000
  let within := fun (b n : Nat) (f : Nat → Option RegAt) =>
    if b ≤ o ∧ o < b + n then (f (o - b)).map fun r => r.shift (blk + b) else none
  let first := fun (l : List (Option RegAt)) => (l.find? fun x => x.isSome).bind id
  if die > 8 then none
  else if 0x10000 ≤ o ∧ o < 0x10008 then some { reg := .time die, base := blk + 0x10000, width := 8 }
  else if die < 4 then first
    [ within 0x40000000 0x20000 (strideAt (.tallyValue die) 8), within 0x40020000 0x20000 (strideAt (.tallyAdd die) 8),
      within 0x100000000 0x100 fun x => if x % 0x40 < 0x18 then
        some { reg := .wrapper (4 * die + x / 0x40) (x % 0x40 / 8), base := x / 8 * 8, width := 8 } else none ]
  else if die < 6 then
    let h := 96 * (die - 4)
    first
    [ within 0x10000000 768 (strideAt (fun c => .claim (h + c)) 4), within 0x11000000 768 (strideAt (fun c => .hartStart (h + c)) 8),
      within 0x12000000 768 (strideAt (fun c => .coreFreq (h + c)) 4) ]
  else if die < 8 then
    let both :=
      [ within 0x100000000 0x40000 (fun x => some (tableAt (fun g j => .group g j (die = 7)) 8 x)),
        within 0x100040000 0x10000 (fun x => some (tableAt (fun i j => .aperture i j (die = 7)) 2 x)),
        within 0x100100000 0x80000 (fun x => some (tableAt (fun i j => .key i j (die = 7)) 4 x)),
        within 0x100200000 512 (slotAt (die - 6)),
        within 0x180000000 0x10000000 (fun x => some { reg := .ecam (die - 6) (x / 4), base := x / 4 * 4, width := 4 }) ]
    let own := if die = 6 then
      [ within 0x80000000 0x80000 (fun x => (findReg (.xl (x / 0x10000)) xlWidth (x % 0x10000)).map fun r => r.shift (0x10000 * (x / 0x10000))),
        within 0xA0000000 0x2000 (strideAt .route 8),
        within 0xA0010000 4 (fun _ => some { reg := .intsend, base := 0, width := 4 }),
        within 0xB0000000 0x80000 (fun x => (findReg (.mailbox (18 + x / 0x10000)) mailboxWidth (x % 0x10000)).map fun r => r.shift (0x10000 * (x / 0x10000))),
        within 0xC0000000 0x400000 bar2At ] else []
    first (both ++ own)
  else none

/-- The register at a BAR0 offset (R323), or at 2^32 plus a BAR2 offset (R325), of a function. -/
def barAt (fn : Fn) (recovering : Bool) (off : Nat) : Option RegAt :=
  let within := fun (b n : Nat) (f : Nat → Option RegAt) =>
    if b ≤ off ∧ off < b + n then (f (off - b)).map fun r => r.shift b else none
  let first := fun (l : List (Option RegAt)) => (l.find? fun x => x.isSome).bind id
  if recovering then
    (if fn.port.val ≠ 0 ∨ fn.vf.val ≠ 0 then none
     else first
      [ within 0x4000 0x18 (fun x => if x % 8 < 4 then some { reg := .recovery (x / 8), base := x / 8 * 8, width := 4 } else none),
        within 0x2000000 0x1000000 (fun x => some { reg := .recWindow (x / 8), base := x / 8 * 8, width := 8 }) ])
  else if off ≥ 2 ^ 32 then
    let o := off - 2 ^ 32
    (if msixBase fn ≤ o ∧ o < msixBase fn + 0x1000 then (msixAt fn (o - msixBase fn)).map fun r => r.shift (msixBase fn)
     else if fn.vf.val = 0 then bar2At o
     else if o < 0x40000 then doorbellAt (fn.vf.val - 1) o
     else if o < 0x80000 then (queueAt (fn.vf.val - 1) (o - 0x40000)).map fun r => r.shift 0x40000
     else none).map fun r => r.shift (2 ^ 32)
  else first
    [ within 0 0x1000 (findReg (.fnCtl fn) fnCtlWidth),
      within 0x2000 0x2000 (strideAt .route 8),
      within 0x10000 0x10000 (findReg (.mailbox (fnKey fn.port.val fn.vf.val)) mailboxWidth),
      within 0x100000 0x80000 (fun x => (findReg (.xl (x / 0x10000)) xlWidth (x % 0x10000)).map fun r => r.shift (0x10000 * (x / 0x10000))),
      within 0x200000 0x100000 (fun x =>
        let d := x / 0x40000
        let o := x % 0x40000
        if o < 0x20000 then some { reg := .tallyValue d (o / 8), base := x / 8 * 8, width := 8 }
        else some { reg := .tallyAdd d ((o - 0x20000) / 8), base := x / 8 * 8, width := 8 }),
      within 0x400000 0x40000 (fun x => some (tableAt (fun g j => .group g j false) 8 x)),
      within 0x440000 0x10000 (fun x => some (tableAt (fun i j => .aperture i j false) 2 x)),
      within 0x500000 0x80000 (fun x => some (tableAt (fun i j => .key i j false) 4 x)),
      within 0x600000 512 (slotAt 0), within 0x601000 512 (slotAt 1) ]

/-! ### What a requester may see (R321, R323) -/

/-- Whether a register exists for a requester in this state. Through a VF the tables show the
partition's share and the other registers the partition's own. -/
def State.visible (s : State) (via : Requester) (r : Reg) : Bool :=
  let own := fun (p : Nat) => match via with
    | .node => p < s.parts
    | .function fn => p < s.parts && (fn.vf.val = 0 || s.fnServes fn p)
  let present := match via with
    | .node => true
    | .function fn => s.fnLive fn && (fn.vf.val = 0 || s.fnServes fn (fn.vf.val - 1))
  present && match r with
  | .xl p _ => own p
  | .route n => (match via.vf? with
      | some p => n < 1024 && s.sourcePart n = p
      | none => true)
  | .tallyValue d i | .tallyAdd d i => (match via.vf? with
      | some p => s.tallyPart d i = some p
      | none => true)
  | .group g _ _ => s.inShare via.vf? 4096 g
  | .aperture i _ _ => s.inShare via.vf? 4096 i
  | .key i _ _ => s.inShare via.vf? 16384 i
  | .slot k _ => (match via.vf? with
      | some p => k % 16 / 2 = p
      | none => true)
  | .doorbell q | .queue q _ => s.viaServes via (q / 64) && (s.boot.stage = 0x0A || via = .node)
  | .ecam hub _ => s.rootRole hub
  | _ => true

/-! ### Reading and writing one register -/

def State.mailbox (s : State) (k : Nat) : Mailbox := sgetD s.dict.mailboxes k {}
def State.setMailbox (s : State) (k : Nat) (x : Mailbox) : State := { s with dict := { s.dict with mailboxes := sput s.dict.mailboxes k x {} } }

/-- Eight bytes of a mailbox frame. -/
def frameWord (m : Sparse Byte) (o : Nat) : Nat := fromLE ((List.range 8).map fun i => sgetD m (o + i) 0)

/-- The value of a register, with what the read itself does (CLAIM, FQ_LOST; a TIME value and the
configuration space behind a root port are free values, logs 8 and 38; all ones while nothing is there,
PRESUMED, log 158). -/
def State.readReg (s : State) (r : Reg) : State × Nat :=
  match r with
  | .tallyValue d i => (s, s.tallyValue d i)
  | .wrapper st k => (s, if k = 0 then (s.stack st).ctrl else if k = 1 then (s.stack st).wdrin.toNat else (s.stack st).wdrout.toNat)
  | .time _ => (s.useFree, s.freeWord.toNat)
  | .claim h => s.claim h
  | .coreFreq h => (s, s.coreFreq h)
  | .xl p o =>
    let x := s.xl p
    if o = 0 then (s, x.fqBase.toNat)
    else if o = 8 then (s, x.fqSize.toNat)
    else if o = 0x10 then (s, x.fqHead.toNat)
    else if o = 0x18 then (s, x.fqTail.toNat)
    else if o = 0x20 then (s, x.fqCtl)
    else if o < 0x80 then s.readFqLost p ((o - 0x40) / 8)
    else if o = 0x100 then (s, x.invAddr.toNat)
    else if o = 0x110 then (s, x.invDone.toNat)
    else if o = 0x118 then (s, x.invIssued.toNat)
    else if o < 0x800 then (s, 0)
    else if o % 16 = 0 then (s, s.ctxRoot p ((o - 0x800) / 16)) else (s, s.ctxId p ((o - 0x800) / 16))
  | .route n => (s, (sgetD s.host.routes n 0).toNat)
  | .mailbox k o =>
    let m := s.mailbox k
    (s, if o < 0x1000 then frameWord m.req o else if o < 0x2000 then frameWord m.rsp (o - 0x1000)
      else if o = 0x2004 then b2n m.done <<< 1 ||| b2n m.busy else 0)
  | .queue q o =>
    let x := s.queue q
    (s, if o = 0 then x.qbase.toNat else if o = 8 then x.cfg else if o = 0x10 then x.qseq.toNat else if o = 0x14 then x.qhead
      else if o = 0x18 then x.qdone.toNat else x.status)
  | .group g j _ => (s, field (s.groupEntry g) (64 * j) 64)
  | .aperture i j _ => (s, field (s.aperture i) (64 * j) 64)
  | .key i j _ => (s, field (s.keyEntry i) (64 * j) 64)
  | .slot k o => (s, if o = 0 then (s.slotReg k).addr.toNat else if o = 16 then (s.slotReg k).statusReg else 0)
  | .ecam hub w =>
    if w < 0x40000 then
      match sget? w (sgetD s.host.ports hub {}).ecam with
      | some v => (s, v.toNat)
      | none => (s.useFree, s.freeNat % 2 ^ 32)
    else if s.portOpen hub then (s.useFree.send (.rootConfigRead hub (4 * w)), s.freeNat % 2 ^ 32)
    else (s, 2 ^ 32 - 1)
  | .fnCtl fn o =>
    let f := s.fn fn.port.val fn.vf.val
    (s, if o = 0 then f.sessionId.toNat else if o = 0x10 then f.sessionArg.toNat
      else if o = 0x18 then f.sessionResult <<< 8 ||| f.sessionState
      else if o = 0x20 then f.b4base.toNat else if o = 0x28 then s.fnKernelsRunning fn else 0)
  | .recovery k => (s, if k = 0 then s.boot.recSize.toNat else if k = 2 then s.boot.recStatus else 0)
  | .recWindow w => (s, frameWord s.boot.recWindow (8 * w))
  | .msix fn w => (s, field ((s.fn fn.port.val fn.vf.val).msixEntry (w / 4)) (32 * (w % 4)) 32)
  | .msixPba fn => (s, s.msixPending fn)
  | .tallyAdd _ _ | .hartStart _ | .intsend | .doorbell _ => (s, 0)

/-- Registers that hold an action and act on a write of their full width alone (R457). -/
def Reg.action : Reg → Bool
  | .tallyAdd _ _ | .intsend | .doorbell _ | .hartStart _ => true
  | .wrapper _ k => k = 0
  | .xl _ o => o = 0x108 || o = 0x200
  | .queue _ o => o = 8
  | .slot _ o => o = 8
  | .fnCtl _ o => o = 8
  | .mailbox _ o => o = 0x2000
  | .recovery k => k = 1
  | _ => false

/-- Put the covered bytes of a word into a frame. -/
def putFrame (m : Sparse Byte) (o mask v : Nat) : Sparse Byte :=
  (List.range 8).foldl (fun m i => if mask.testBit (8 * i) then sput m (o + i) (BitVec.ofNat 8 (v >>> (8 * i))) 0 else m) m

/-- Write a register: `mask` holds the bits the write covers, `writer` the writer's partition where the
node knows it. -/
def State.writeReg (s : State) (via : Requester) (writer : Option Nat) (r : Reg) (mask v : Nat) : State :=
  match r with
  | .tallyAdd d i => s.tallyAddReg d i v
  | .wrapper st k =>
    if k = 0 then s.writeCtrl st v
    else if k = 1 then s.modStack st fun x => { x with wdrin := BitVec.ofNat 64 (mergeMask x.wdrin.toNat mask v) }
    else s
  | .hartStart h => s.hartStart writer h v
  | .coreFreq h => s.modHart h fun x => { x with freqReq := BitVec.ofNat 12 (coreReq (mergeMask x.freqReq.toNat (mask &&& 0xFFF) v)) }
  | .xl p o =>
    let x := s.xl p
    if o = 0 then s.writeFqBase p (mergeMask x.fqBase.toNat mask v)
    else if o = 8 then s.writeFqSize p (mergeMask x.fqSize.toNat mask v)
    else if o = 0x10 then s.writeFqHead p (mergeMask x.fqHead.toNat mask v)
    else if o = 0x20 then s.writeFqCtl p (mergeMask x.fqCtl mask v) (v &&& mask)
    else if o = 0x100 then s.setXl p { x with invAddr := BitVec.ofNat 64 (4096 * (mergeMask x.invAddr.toNat mask v / 4096)) }
    else if o = 0x108 then s.writeInvCtl p v
    else if o = 0x200 then s.writeResume p v
    else if o < 0x800 then s
    else
      let c := (o - 0x800) / 16
      if o % 16 = 0 then s.writeCtxRoot p c (mergeMask (s.ctxRoot p c) mask v) else s.writeCtxId p c (mergeMask (s.ctxId p c) mask v)
  | .route n => if n < 560 ∨ 768 ≤ n then s.writeRoute n (mergeMask (sgetD s.host.routes n 0).toNat mask v) else s
  | .intsend => s.intSend v
  | .mailbox k o =>
    let m := s.mailbox k
    if o < 0x1000 then s.setMailbox k { m with req := putFrame m.req o mask v }
    else if o = 0x2000 then (if v.testBit 0 && !m.busy then s.setMailbox k { m with busy := true } else s)
    else if o = 0x2004 then s.setMailbox k { m with done := m.done && !(v &&& mask).testBit 1 }
    else s
  | .doorbell q => s.modQueue q fun x => x.doorbell v
  | .queue q o =>
    if o = 0 then s.modQueue q fun x => if x.enable then x else { x with qbase := BitVec.ofNat 64 (4096 * (mergeMask x.qbase.toNat mask v / 4096)) }
    else if o = 8 then s.modQueue q fun x => x.writeCfg v
    else if o = 0x10 then s.modQueue q fun x => if x.enable then x else { x with qseq := BitVec.ofNat 32 (mergeMask x.qseq.toNat mask v) }
    else if o = 0x1C then s.modQueue q fun x =>
      { x with fetchErr := x.fetchErr && !(v &&& mask).testBit 2, cplLost := x.cplLost && !(v &&& mask).testBit 1 }
    else s
  | .group g j h => if h then s else s.writeGroupWord via.vf? g j mask v
  | .aperture i j h => if h then s else s.writeApertureWord via.vf? i j mask v
  | .key i j h => if h then s else s.writeKeyWord via.vf? i j mask v
  | .slot k o =>
    if o = 0 then s.setSched k { s.slotReg k with addr := BitVec.ofNat 64 (64 * (mergeMask (s.slotReg k).addr.toNat mask v / 64)) }
    else if o = 8 then s.seqGo k
    else s
  | .ecam hub w =>
    if w < 0x40000 then
      let p := sgetD s.host.ports hub {}
      let p' := { p with ecam := sset w (BitVec.ofNat 32 (mergeMask (sgetD p.ecam w 0).toNat mask v)) p.ecam }
      { s with host := { s.host with ports := sput s.host.ports hub p' {} } }
    else if s.portOpen hub then s.send (.rootConfigWrite hub (4 * w) mask v)
    else s
  | .fnCtl fn o =>
    if o = 8 then s.sessionCtl fn (v % 16)
    else if o = 0x10 then s.modFn fn.port.val fn.vf.val fun f => { f with sessionArg := BitVec.ofNat 64 (mergeMask f.sessionArg.toNat mask v) }
    else if o = 0x20 then s.modFn fn.port.val fn.vf.val fun f =>
      let n := 2 ^ s.bar4Log2 fn
      { f with b4base := BitVec.ofNat 64 (mergeMask f.b4base.toNat mask v / n * n) }
    else s
  | .recovery k =>
    if k = 0 then { s with boot := { s.boot with recSize := BitVec.ofNat 32 (mergeMask s.boot.recSize.toNat mask v) } }
    else if k = 1 then s.recGo else s
  | .recWindow w => { s with boot := { s.boot with recWindow := putFrame s.boot.recWindow (8 * w) mask v } }
  | .msix fn w =>
    let sh := 32 * (w % 4)
    let old := (s.fn fn.port.val fn.vf.val).msixEntry (w / 4)
    let new := mergeMask (field old sh 32) mask v % 2 ^ 32
    (s.modFn fn.port.val fn.vf.val fun f => { f with
      msix := sput f.msix (w / 4) (BitVec.ofNat 128 (setField old sh 32 new)) msixReset }).deliverAll
  | .tallyValue _ _ | .time _ | .claim _ | .msixPba _ => s

/-! ### Accesses (R457) -/

/-- The register an access of `width` bytes reaches: naturally aligned and within one register.
(DEDUCED, log 37.) -/
def State.access (s : State) (via : Requester) (addr width : Nat) : Option RegAt :=
  let r : Option RegAt := match via with
    | .node => (match window addr with
        | .regs off => (regAt off).map fun r => r.shift 0x100000000000
        | _ => none)
    | .function fn => barAt fn s.recovering addr
  r.bind fun r =>
    if (width = 1 ∨ width = 2 ∨ width = 4 ∨ width = 8) ∧ addr % width = 0 ∧ addr + width ≤ r.base + r.width ∧ s.visible via r.reg then some r
    else none

/-- Read through the register window or a BAR: zero where no register is accessed. -/
def State.readAt (s : State) (via : Requester) (addr width : Nat) : State × Nat :=
  match s.access via addr width with
  | none => (s, 0)
  | some r =>
    let (s, v) := s.readReg r.reg
    (s, field v (8 * (addr - r.base)) (8 * width))

/-- Write through the register window or a BAR: ignored where no register is accessed, and where a
register that acts is not written whole. -/
def State.writeAt (s : State) (via : Requester) (writer : Option Nat) (addr width v : Nat) : State :=
  match s.access via addr width with
  | none => s
  | some r =>
    if r.reg.action ∧ width ≠ r.width then s
    else
      let sh := 8 * (addr - r.base)
      s.writeReg via writer r.reg ((2 ^ (8 * width) - 1) <<< sh) ((v % 2 ^ (8 * width)) <<< sh)

end Sys2Proof.Machine
end

