-- ==== Sys2Proof/Machine/Int.lean ====
section
/-! DEFINITION. INT and IMD: integer arithmetic, logic, multiply and divide (R64, R65). -/
namespace Sys2Proof.Machine

/-- INT and IMD operands: TYPE I32 to U64, MOD zero, RRR with RS3 and AUX zero, or RI (R61, R64). -/
def intSig (w : Fields) (rri ri : Bool) (rs1 rs2 : Bool) : Sig :=
  let o := Opnd.ofType w.ty
  { legal := w.ty ≤ 3 && w.mod = 0 && (if w.ri then ri else rri && w.aux = 0)
    rd := o, rs1 := if rs1 then o else .zero, rs2 := if rs2 then o else .zero }

/-- Operand width in bits. -/
def intWidth (ty : Nat) : Nat := if wide ty then 64 else 32

/-- The second operand of a lane: RS2, or IMM24 sign- or zero-extended to the width (R60, R64). -/
def intSrc2 (g : Group) (w : Fields) (signed : Bool) (lane : Nat) : Nat :=
  if w.ri then (if signed then wrap (intWidth w.ty) w.imm else w.immU) else g.get lane w.rs2 (wide w.ty)

/-- A lane-wise integer operation of RS1 and RS2 or IMM24; `f` gets the width and both operands. -/
def State.intOp (s : State) (id : GroupId) (cls op : Nat) (w : Fields) (immSigned : Bool)
    (f : Nat → Nat → Nat → Nat) : State :=
  s.issueGroup id cls op w (intSig w true true true true) fun _ _ g _ =>
    .ok (g.laneOp w.rd.toNat (wide w.ty) fun l =>
      (f (intWidth w.ty) (g.get l w.rs1.toNat (wide w.ty)) (intSrc2 g w immSigned l) % 2 ^ intWidth w.ty, 0)).next

/-- A lane-wise operation of RS1 alone, RRR with RS2 zero. -/
def State.intUnary (s : State) (id : GroupId) (op : Nat) (w : Fields) (f : Nat → Nat → Nat) : State :=
  s.issueGroup id 0 op w (intSig w true false true false) fun _ _ g _ =>
    .ok (g.laneOp w.rd.toNat (wide w.ty) fun l =>
      (f (intWidth w.ty) (g.get l w.rs1.toNat (wide w.ty)) % 2 ^ intWidth w.ty, 0)).next

/-- A shift or rotate: the count is one 32-bit register RS2, which may be odd, or IMM24, modulo the
width (R64). -/
def State.intShift (s : State) (id : GroupId) (op : Nat) (w : Fields) (f : Nat → Nat → Nat → Nat) : State :=
  s.issueGroup id 0 op w { intSig w true true true false with rs2 := .r } fun _ _ g _ =>
    .ok (g.laneOp w.rd.toNat (wide w.ty) fun l =>
      let n := intWidth w.ty
      let c := (if w.ri then w.immU else g.reg l w.rs2) % n
      (f n (g.get l w.rs1.toNat (wide w.ty)) c % 2 ^ n, 0)).next

/-- Arithmetic shift right of an n-bit pattern. -/
def sraN (n x c : Nat) : Nat := wrap n (sext n x / (2 ^ c : Nat))
/-- Rotate left of an n-bit pattern. -/
def rotN (n x c : Nat) : Nat := (x <<< c) % 2 ^ n ||| x >>> (n - c)
/-- Leading zero bits of an n-bit pattern. -/
def clzN (n x : Nat) : Nat := if x = 0 then n else n - 1 - Nat.log2 x
/-- High half of the double-width product. -/
def mulHigh (signed : Bool) (n a b : Nat) : Nat :=
  if signed then wrap n (sext n a * sext n b / (2 ^ n : Nat)) else a * b / 2 ^ n
/-- Quotient rounded toward zero; all ones on division by zero; the most negative value by −1 gives
itself (R65). -/
def divN (signed : Bool) (n a b : Nat) : Nat :=
  if b = 0 then 2 ^ n - 1 else if signed then wrap n (Int.tdiv (sext n a) (sext n b)) else a / b
/-- Remainder with the dividend's sign; the dividend on division by zero (R65). -/
def remN (signed : Bool) (n a b : Nat) : Nat :=
  if b = 0 then a else if signed then wrap n (Int.tmod (sext n a) (sext n b)) else a % b
/-- I32 and I64 are signed. -/
def intSigned (ty : Nat) : Bool := ty = 0 || ty = 2

/-- INT 01h: RS1 + RS2. -/
def execIntAdd (g : GroupId) (w : Fields) (s : State) : Answer := .next (s.intOp g 0 0x01 w true fun _ a b => a + b)
/-- INT 02h: RS1 − RS2. -/
def execIntSub (g : GroupId) (w : Fields) (s : State) : Answer := .next (s.intOp g 0 0x02 w true fun n a b => a + 2 ^ n - b)
/-- INT 03h: bitwise and; IMM24 zero-extended. -/
def execIntAnd (g : GroupId) (w : Fields) (s : State) : Answer := .next (s.intOp g 0 0x03 w false fun _ a b => a &&& b)
/-- INT 04h: bitwise or. -/
def execIntOr (g : GroupId) (w : Fields) (s : State) : Answer := .next (s.intOp g 0 0x04 w false fun _ a b => a ||| b)
/-- INT 05h: bitwise exclusive or. -/
def execIntXor (g : GroupId) (w : Fields) (s : State) : Answer := .next (s.intOp g 0 0x05 w false fun _ a b => a ^^^ b)
/-- INT 06h: bitwise not of RS1. -/
def execIntNot (g : GroupId) (w : Fields) (s : State) : Answer := .next (s.intUnary g 0x06 w fun n a => 2 ^ n - 1 - a)
/-- INT 07h: shift left. -/
def execIntShl (g : GroupId) (w : Fields) (s : State) : Answer := .next (s.intShift g 0x07 w fun _ a c => a <<< c)
/-- INT 08h: logical shift right. -/
def execIntShr (g : GroupId) (w : Fields) (s : State) : Answer := .next (s.intShift g 0x08 w fun _ a c => a >>> c)
/-- INT 09h: arithmetic shift right. -/
def execIntSra (g : GroupId) (w : Fields) (s : State) : Answer := .next (s.intShift g 0x09 w sraN)
/-- INT 0Ah: rotate left. -/
def execIntRot (g : GroupId) (w : Fields) (s : State) : Answer := .next (s.intShift g 0x0A w rotN)
/-- INT 0Bh: RRR copies RS1; RI gives IMM24 sign-extended with RS1 zero. -/
def execIntMov (g : GroupId) (w : Fields) (s : State) : Answer :=
  .next (s.issueGroup g 0 0x0B w (intSig w true true (!w.ri) false) fun _ _ gr _ =>
    .ok (gr.laneOp w.rd.toNat (wide w.ty) fun l =>
      (if w.ri then wrap (intWidth w.ty) w.imm else gr.get l w.rs1.toNat (wide w.ty), 0)).next)
/-- INT 0Ch: IMM24 bits 15:0 × 65,536; bits 23:16 and RS1 zero; I32 or U32. -/
def execIntLih (g : GroupId) (w : Fields) (s : State) : Answer :=
  let sig := intSig w false true false false
  .next (s.issueGroup g 0 0x0C w { sig with legal := sig.legal && w.ty ≤ 1 && w.immU < 65536 } fun _ _ gr _ =>
    .ok (gr.laneOp w.rd.toNat false fun _ => (65536 * w.immU, 0)).next)
/-- INT 0Dh: leading zero bits. -/
def execIntClz (g : GroupId) (w : Fields) (s : State) : Answer := .next (s.intUnary g 0x0D w clzN)
/-- INT 0Eh: set bits. -/
def execIntPopc (g : GroupId) (w : Fields) (s : State) : Answer := .next (s.intUnary g 0x0E w fun n a => popcount a n)
/-- IMD 01h: low half of the product. -/
def execImdMul (g : GroupId) (w : Fields) (s : State) : Answer := .next (s.intOp g 1 0x01 w true fun _ a b => a * b)
/-- IMD 02h: high half of the product, signed or unsigned by TYPE. -/
def execImdMulhi (g : GroupId) (w : Fields) (s : State) : Answer :=
  .next (s.intOp g 1 0x02 w true (mulHigh (intSigned w.ty)))
/-- IMD 03h: quotient. -/
def execImdDiv (g : GroupId) (w : Fields) (s : State) : Answer := .next (s.intOp g 1 0x03 w true (divN (intSigned w.ty)))
/-- IMD 04h: remainder. -/
def execImdRem (g : GroupId) (w : Fields) (s : State) : Answer := .next (s.intOp g 1 0x04 w true (remN (intSigned w.ty)))

end Sys2Proof.Machine
end

