-- ==== Sys2Proof/Machine/Ctl.lean ====
section
/-! DEFINITION. CTL and SPC: branches, exit, trap, the mask stack, special registers, lane exchange and
PHASE (R64, R67, R68, R72 to R75, R347). -/
namespace Sys2Proof.Machine

/-- CTL operands: TYPE, MOD zero; AUX zero unless the operation uses it. -/
def ctlSig (w : Fields) (ri : Bool) (rd rs1 : Opnd) (aux : Bool) : Sig :=
  { legal := w.ty = 0 && w.mod = 0 && w.ri == ri && (ri || aux || w.aux = 0), rd := rd, rs1 := rs1 }

/-- The mask of active lanes whose register is not zero. -/
def Group.nonZero (g : Group) (r : Nat) : W32 := BitVec.ofNat 32 (maskOf (g.lanes.filter fun l => g.reg l r ≠ 0))

/-- The target PC + 8 × IMM24 (R73). -/
def branchTarget (g : Group) (w : Fields) : W64 := BitVec.ofInt 64 ((g.pc.toNat : Int) + 8 * w.imm)

/-- Go to a target, or on to the next instruction. -/
def Group.goto (g : Group) (taken : Bool) (target : W64) : Group := if taken then { g.next with pc := target } else g.next

/-- A branch on a condition of the group. -/
def State.branch (s : State) (id : GroupId) (op : Nat) (w : Fields) (rs1 : Opnd) (cond : Group → Bool) : State :=
  s.issueGroup id 7 op w (ctlSig w true .zero rs1 false) fun _ _ g _ => .ok (g.goto (cond g) (branchTarget g w))

/-- CTL 01h: always taken. -/
def execCtlBr (g : GroupId) (w : Fields) (s : State) : Answer := .next (s.branch g 0x01 w .zero fun _ => true)
/-- CTL 02h: taken when the active mask is zero. -/
def execCtlBrmz (g : GroupId) (w : Fields) (s : State) : Answer := .next (s.branch g 0x02 w .zero fun g => g.active = 0)
/-- CTL 03h: taken when some active lane has RS1 not zero. -/
def execCtlBrany (g : GroupId) (w : Fields) (s : State) : Answer :=
  .next (s.branch g 0x03 w .r fun g => g.nonZero w.rs1.toNat ≠ 0)
/-- CTL 04h: taken when the mask is not zero and every active lane has RS1 not zero. -/
def execCtlBrall (g : GroupId) (w : Fields) (s : State) : Answer :=
  .next (s.branch g 0x04 w .r fun g => g.active ≠ 0 && g.nonZero w.rs1.toNat = g.active)
/-- CTL 05h: the address in the pair RS1 of the active lanes; DIVERGENT_TARGET where they disagree, with
the lowest active lane's target and the lanes that differ from it. -/
def execCtlBri (g : GroupId) (w : Fields) (s : State) : Answer :=
  .next (s.issueGroup g 7 0x05 w (ctlSig w false .zero .p false) fun _ _ gr _ =>
    match gr.lanes with
    | [] => .ok gr.next
    | l :: _ =>
      let t := gr.pair l w.rs1.toNat
      let bad := maskOf (gr.lanes.filter fun x => gr.pair x w.rs1.toNat ≠ t)
      if bad ≠ 0 then .error { code := 0x109, arg0 := t, arg1 := bad }
      else .ok (gr.goto true (BitVec.ofNat 64 t)))
/-- CTL 06h: the link goes to the pair RD of every active lane; the branch is taken as BR's. -/
def execCtlCall (g : GroupId) (w : Fields) (s : State) : Answer :=
  .next (s.issueGroup g 7 0x06 w (ctlSig w true .p .zero false) fun _ _ gr _ =>
    .ok ((gr.setActive w.rd.toNat true fun _ => (gr.pc + 8).toNat).goto true (branchTarget gr w)))

/-- The active lanes end (R74). -/
def Group.exit (g : Group) : Group :=
  let gone := g.active
  let launch := g.launch &&& ~~~ gone
  { g with
    active := 0
    launch := launch
    stack := if launch = 0 then [] else g.stack.map fun e => (e.1 &&& ~~~ gone, e.2 &&& ~~~ gone) }

/-- CTL 08h: the fault TRAP with IMM24. -/
def execCtlTrap (g : GroupId) (w : Fields) (s : State) : Answer :=
  .next (s.issueGroup g 7 0x08 w (ctlSig w true .zero .zero false) fun _ _ _ _ => .error { code := 0x10F, arg0 := w.immU })
/-- CTL 09h: no operation. -/
def execCtlNop (g : GroupId) (w : Fields) (s : State) : Answer :=
  .next (s.issueGroup g 7 0x09 w (ctlSig w false .zero .zero false) fun _ _ gr _ => .ok gr.next)

/-! ### The mask stack (R72), top first -/

/-- CTL 10h. -/
def execCtlMif (g : GroupId) (w : Fields) (s : State) : Answer :=
  .next (s.issueGroup g 7 0x10 w (ctlSig w false .zero .r false) fun _ _ gr _ =>
    if gr.stack.length ≥ 16 then .error { code := 0x10A, arg0 := 16 }
    else
      let c := gr.nonZero w.rs1.toNat
      .ok { gr.next with stack := (gr.active, gr.active &&& ~~~ c) :: gr.stack, active := gr.active &&& c })
/-- CTL 11h. -/
def execCtlMelse (g : GroupId) (w : Fields) (s : State) : Answer :=
  .next (s.issueGroup g 7 0x11 w (ctlSig w false .zero .zero false) fun _ _ gr _ =>
    match gr.stack with
    | [] => .error { code := 0x10B }
    | (sv, pe) :: r => .ok { gr.next with active := pe, stack := (sv, 0) :: r })
/-- CTL 12h. -/
def execCtlMend (g : GroupId) (w : Fields) (s : State) : Answer :=
  .next (s.issueGroup g 7 0x12 w (ctlSig w false .zero .zero false) fun _ _ gr _ =>
    match gr.stack with
    | [] => .error { code := 0x10B }
    | (sv, _) :: r => .ok { gr.next with active := sv, stack := r })
/-- CTL 13h. -/
def execCtlMloop (g : GroupId) (w : Fields) (s : State) : Answer :=
  .next (s.issueGroup g 7 0x13 w (ctlSig w false .zero .zero false) fun _ _ gr _ =>
    if gr.stack.length ≥ 16 then .error { code := 0x10A, arg0 := 16 }
    else .ok { gr.next with stack := (gr.active, 0) :: gr.stack })
/-- CTL 14h: d in AUX; the breaking lanes leave the mask and the d entries above the loop entry. -/
def execCtlMbrk (g : GroupId) (w : Fields) (s : State) : Answer :=
  .next (s.issueGroup g 7 0x14 w (ctlSig w false .zero .r true) fun _ _ gr _ =>
    if w.aux ≥ gr.stack.length then .error { code := 0x10B, arg0 := gr.stack.length, arg1 := w.aux }
    else
      let b := gr.nonZero w.rs1.toNat
      .ok { gr.next with
        active := gr.active &&& ~~~ b
        stack := (gr.stack.take w.aux).map (fun e => (e.1 &&& ~~~ b, e.2 &&& ~~~ b)) ++ gr.stack.drop w.aux })

/-! ### SPC -/

/-- The special registers (R68): width 64 and the value for a lane; none for a reserved code. CLOCK is
the free value passed in (DESIGN CHOICE, log 8). -/
def specialReg (kn : Kernel) (gk : Nat) (g : Group) (clock : W64) (code lane : Nat) : Option (Bool × Nat) :=
  let cl := gcluster gk
  match code with
  | 0x000 => some (false, lane)
  | 0x001 => some (false, g.index)
  | 0x002 => some (false, gk % 64 / 16)
  | 0x003 => some (false, g.landing)
  | 0x004 => some (false, g.lcluster)
  | 0x005 => some (false, (kn.clusters.getD g.landing []).length)
  | 0x006 => some (false, cl)
  | 0x007 => some (false, kn.kernelId.toNat)
  | 0x008 => some (true, kn.args.toNat)
  | 0x009 => some (false, sgetD kn.tallyBase (clusterDie cl) 0)
  | 0x00A => some (false, g.active.toNat)
  | 0x00B => some (false, g.launch.toNat)
  | 0x00C => some (false, g.stack.length)
  | 0x00D => some (false, g.flags.toNat)
  | 0x00E => some (true, clock.toNat)
  | 0x00F => some (false, g.phase)
  | c =>
    if c < 0x100 ∨ c ≥ 0x200 then none
    else match kn.man.berths[c - 0x100]?, kn.berthOff[c - 0x100]? with
      | some b, some o => if (kn.clusters.getD b.landing []).contains cl then some (false, o) else none
      | _, _ => none

/-- Whether RDSR of a code writes a pair. -/
def specialWide (code : Nat) : Bool := code = 0x008 || code = 0x00E

/-- SPC 01h: the special register of IMM24 bits 11:0 to RD of every active lane. -/
def execSpcRdsr (g : GroupId) (w : Fields) (s : State) : Answer :=
  let code := w.immU % 4096
  let sig := ctlSig w true (if specialWide code then .p else .r) .zero false
  .next (s.issue g 8 0x01 w { sig with legal := sig.legal && w.immU < 4096 } false (fun _ => none) (fun _ _ => none)
    fun s gk gr kn =>
      match specialReg kn gk gr s.freeWord code 0 with
      | none => .fault s { code := 0x10E, arg0 := code }
      | some (wd, _) =>
        let g' := gr.setActive w.rd.toNat wd fun l => ((specialReg kn gk gr s.freeWord code l).map Prod.snd).getD 0
        .done ((if code = 0x00E then s.useFree else s).setGroup gk g'.next))

/-- SPC lane operations: RRR, TYPE U32. -/
def laneSig (w : Fields) (rs2 : Opnd) : Sig :=
  { legal := w.ty = 1 && w.mod = 0 && !w.ri && w.aux = 0, rd := .r, rs1 := .r, rs2 := rs2 }

/-- SPC 02h: RS1 of the lane that the low 5 bits of RS2 name. -/
def execSpcShfl (g : GroupId) (w : Fields) (s : State) : Answer :=
  .next (s.issueGroup g 8 0x02 w (laneSig w .r) fun _ _ gr _ =>
    .ok (gr.setActive w.rd.toNat false fun l => gr.reg (gr.reg l w.rs2 % 32) w.rs1.toNat).next)
/-- SPC 03h: 1 when some active lane has RS1 not zero. -/
def execSpcVoteany (g : GroupId) (w : Fields) (s : State) : Answer :=
  .next (s.issueGroup g 8 0x03 w (laneSig w .zero) fun _ _ gr _ =>
    .ok (gr.setActive w.rd.toNat false fun _ => b2n (gr.nonZero w.rs1.toNat != 0)).next)
/-- SPC 04h: 1 when every active lane has RS1 not zero. -/
def execSpcVoteall (g : GroupId) (w : Fields) (s : State) : Answer :=
  .next (s.issueGroup g 8 0x04 w (laneSig w .zero) fun _ _ gr _ =>
    .ok (gr.setActive w.rd.toNat false fun _ => b2n (gr.nonZero w.rs1.toNat == gr.active)).next)
/-- SPC 05h: the mask of active lanes whose RS1 is not zero. -/
def execSpcBallot (g : GroupId) (w : Fields) (s : State) : Answer :=
  .next (s.issueGroup g 8 0x05 w (laneSig w .zero) fun _ _ gr _ =>
    .ok (gr.setActive w.rd.toNat false fun _ => (gr.nonZero w.rs1.toNat).toNat).next)

/-- SPC 10h: the group's phase in force; PHASE_RANGE comes after the register ranges (R78, R347). -/
def execSpcPhase (g : GroupId) (w : Fields) (s : State) : Answer :=
  let sig := ctlSig w true .zero .zero false
  .next (s.issue g 8 0x10 w { sig with legal := sig.legal && w.immU < 256 } true (fun _ => none)
    (fun kn _ => if w.immU ≥ kn.man.phases.length then some { code := 0x110, arg0 := w.immU, arg1 := kn.man.phases.length } else none)
    fun s gk gr _ => .done (s.setGroup gk { gr.next with phase := w.immU }).powerSettle)

end Sys2Proof.Machine
end

