-- ==== Sys2Proof/Machine/Tile.lean ====
section
/-! DEFINITION. Tile handles and tiles in scratchpad (R31, R94, R103, R104), ferry geometry (R33, R45,
R459), scratchpad writes by a group's engines, and the order fences put on engine accesses (R208). -/
namespace Sys2Proof.Machine

/-! ### Tile handles (R31) -/

def hSlot (h : Nat) : Nat := field h 0 11
def hFormat (h : Nat) : Nat := field h 11 4
def hRows (h : Nat) : Nat := field h 15 8 + 1
def hCols (h : Nat) : Nat := field h 23 8 + 1
def hRScale (h : Nat) : Nat := field h 31 10
def hCScale (h : Nat) : Nat := field h 41 10
def hScaleKind (h : Nat) : Nat := field h 51 2
def hBlock32 (h : Nat) : Bool := h.testBit 53
def hTop (h : Nat) : Nat := field h 60 4
/-- The handle value END (R32). -/
def hEnd : Nat := 2 ^ 64 - 1
/-- Slot base in bytes. -/
def hBase (h : Nat) : Nat := 256 * hSlot h
/-- Block size of block scales. -/
def hBlock (h : Nat) : Nat := if hBlock32 h then 32 else 16

/-- Round up to a multiple. -/
def roundUp (x m : Nat) : Nat := (x + m - 1) / m * m
/-- The row pitch of a tile (R103). -/
def pitchOf (cols fmt : Nat) : Nat := roundUp ((cols * elemBits fmt + 7) / 8) 32
def hPitch (h : Nat) : Nat := pitchOf (hCols h) (hFormat h)
/-- The end of a tile's element rows within its slot: every row takes its pitch (R103, R104; DEDUCED, log 70). -/
def hElemEnd (h : Nat) : Nat := hRows h * hPitch h
/-- Bytes of one native scale (R94). -/
def scaleBytes (kind : Nat) : Nat := if kind = 1 then 4 else 2

/-- The roles in which a tile is read. -/
inductive TileRole where
  | a | b | plain | whole
  deriving DecidableEq, Repr

/-- Ends of the scale vectors a role makes the engine read; `whole` counts every vector the handle
declares (R104, R38). -/
def hScaleEnd (h : Nat) (role : TileRole) : Nat :=
  let k := hScaleKind h
  let row := 64 * hRScale h + hRows h * scaleBytes k
  let col := 64 * hCScale h + hCols h * scaleBytes k
  let blk := 64 * hRScale h + (hRows h * hCols h + hBlock h - 1) / hBlock h
  if k = 0 then 0
  else match role with
    | .plain => 0
    | .a => if k = 3 then blk else row
    | .b => if k = 3 then blk else col
    | .whole => if k = 3 then blk else (if row < col then col else row)
/-- The extent of a tile in a role (R104).
(DEDUCED, log 111.) -/
def hExtent (h : Nat) (role : TileRole) : Nat :=
  if hElemEnd h < hScaleEnd h role then hScaleEnd h role else hElemEnd h

/-- MX_SCRATCH_RANGE: the extent past 64 KiB, or its end past the scratchpad size in force (R104). -/
def scratchFault (h extent size : Nat) : Option FaultInfo :=
  if extent > 65536 ∨ hBase h + extent > size then some { code := 0x308, arg0 := hBase h + extent, arg1 := size } else none

/-- Scratchpad byte offset of element (r, c) and, for a 4-bit format, whether it is the high half. -/
def hElemAt (h r c : Nat) : Nat × Bool :=
  if elemBits (hFormat h) = 4 then (hBase h + r * hPitch h + c / 2, c % 2 = 1)
  else (hBase h + r * hPitch h + c * (elemBits (hFormat h) / 8), false)

/-- Read an element's code from scratchpad; the first of two 4-bit elements is the low half (R82). -/
def Cluster.elem (c : Cluster) (h row col : Nat) : Nat :=
  let (a, hi) := hElemAt h row col
  let fmt := hFormat h
  if elemBits fmt = 4 then field (c.spadRead a 1) (if hi then 4 else 0) 4 else c.spadRead a (elemBits fmt / 8)

/-! ### Ferry geometry (R33, R41, R42, R459) -/

def farEnd : Nat := 0xFE
def Ferry.isOut (f : Ferry) : Bool := f.consumer = farEnd
def Ferry.isIn (f : Ferry) : Bool := f.producer = farEnd
def Ferry.isLong (f : Ferry) : Bool := f.isOut || f.isIn
def ferryKey (f q : Nat) : Nat := 512 * f + q
/-- Clusters of a landing. -/
def Kernel.landingClusters (k : Kernel) (l : Nat) : List Nat := k.clusters.getD l []
/-- Producer clusters per consumer cluster of a MERGE ferry. -/
def Kernel.mergeWays (k : Kernel) (f : Ferry) : Nat :=
  (k.landingClusters f.producer).length / (k.landingClusters f.consumer).length
/-- The queues of a ferry that a producer cluster of a landing feeds. -/
def Kernel.producerQueues (k : Kernel) (f : Ferry) (lc : Nat) : List Nat :=
  if f.isOut then [lc]
  else match f.pattern with
    | 0 => [lc]
    | 1 => [lc / k.mergeWays f]
    | _ => List.range (k.landingClusters f.consumer).length
/-- The cluster whose scratchpad holds queue `q` of a ferry. -/
def Kernel.queueCluster (k : Kernel) (f : Ferry) (q : Nat) : Nat :=
  (k.landingClusters (if f.isOut then f.producer else f.consumer)).getD q 0
/-- The number of queues of a ferry. -/
def Kernel.queueCount (k : Kernel) (f : Ferry) : Nat :=
  (k.landingClusters (if f.isOut then f.producer else f.consumer)).length
def Kernel.fq (k : Kernel) (f q : Nat) : FerryQueue := sgetD k.ferries (ferryKey f q) { slots := [] }
def Kernel.setFq (k : Kernel) (f q : Nat) (x : FerryQueue) : Kernel := { k with ferries := sset (ferryKey f q) x k.ferries }
/-- SLOT of a slot position, in 256-byte units. -/
def Kernel.slotUnit (k : Kernel) (fi : Nat) (f : Ferry) (i : Nat) : Nat := k.ferryOff.getD fi 0 / 256 + i * f.tileSize
/-- The slot position a handle names, if its SLOT starts one. -/
def Kernel.slotIndex (k : Kernel) (fi : Nat) (f : Ferry) (h : Nat) : Option Nat :=
  let base := k.ferryOff.getD fi 0 / 256
  if hSlot h < base ∨ (hSlot h - base) % f.tileSize ≠ 0 ∨ (hSlot h - base) / f.tileSize ≥ f.capacity then none
  else some ((hSlot h - base) / f.tileSize)

/-! ### Long-ferry messages and slots (R42, R312, R313) -/

/-- The group table index and the flow of a long ferry's queue toward a member. -/
def State.ferryFlow (_s : State) (kn : Kernel) (f : Ferry) (q m : Nat) : Nat :=
  flowKey (hubOfDie (clusterDie (kn.queueCluster f q))) (kn.man.netgroups.getD f.netgroup 0) m

/-- Send a long-ferry control operation: OP and ARG; KEY is the TAG (R312, R313). -/
def State.ferrySend (s : State) (k fi q m op arg : Nat) (by' : Option (Nat × Nat)) : State :=
  match s.kernel? k with
  | none => s
  | some kn => match kn.man.ferries[fi]? with
    | none => s
    | some f => s.startOp (s.ferryFlow kn f q m) (.ferryCtl k (ferryKey fi q) by') false [(op, 0, f.tag, 0, 0, 0, q <<< 55 ||| arg, [])]

/-- Return a slot to the free set; an IN end returns a credit (R34, R42, R313). `by'` is the group that gave it
back and the instruction's number. -/
def State.freeSlot (s : State) (k fi q i : Nat) (by' : Nat × Nat) : State :=
  let s := s.modKernel k fun kn => kn.setFq fi q { kn.fq fi q with slots := (kn.fq fi q).slots.set i .free }
  match s.kernel? k with
  | none => s
  | some kn => match kn.man.ferries[fi]? with
    | none => s
    | some f => if f.isIn then s.ferrySend k fi q (kn.fq fi q).peer 9 1 (some by') else s

/-- Slots given back by FYFREE that waited for a matrix read: every one whose reading instruction has
executed becomes free (R122). -/
def State.releaseFreed (s : State) (gk no : Nat) : State :=
  match s.group? gk with
  | none => s
  | some g => match s.kernel? g.kernel with
    | none => s
    | some kn =>
      kn.ferries.foldl (fun s (key, x) =>
        (x.slots.zipIdx).foldl (fun s (st, i) =>
          if st = .freeing gk no then s.freeSlot g.kernel (key / 512) (key % 512) i (gk, no) else s) s) s

/-! ### Scratchpad writes by a group's engines -/

/-- The clusters whose scratchpad receives a group's write at a 256-byte unit: the consumers' where the
unit lies in a slot of another cluster that the group holds reserved, else its own (R33, R459;
DEDUCED, log 18). -/
def State.spadTargets (s : State) (gk unit : Nat) : List Nat :=
  match s.group? gk with
  | none => [gcluster gk]
  | some g => match s.kernel? g.kernel with
    | none => [gcluster gk]
    | some kn =>
      let hits := (kn.man.ferries.zipIdx).flatMap fun (f, fi) =>
        if f.producer ≠ g.landing then []
        else (kn.producerQueues f g.lcluster).flatMap fun q =>
          let cl := kn.queueCluster f q
          let base := kn.ferryOff.getD fi 0 / 256
          if unit < base ∨ unit ≥ base + f.capacity * f.tileSize then []
          else if (kn.fq fi q).slots[(unit - base) / f.tileSize]? = some (.reserved gk) then [cl] else []
      if hits.isEmpty then [gcluster gk] else hits.eraseDups

/-- Write bytes to scratchpad for a group. -/
def State.spadStore (s : State) (gk : Nat) : Nat → Nat → Bytes → State
  | 0, _, _ => s
  | fuel + 1, off, b =>
    if b.isEmpty then s
    else
      let k := 256 - off % 256
      let s := (s.spadTargets gk (off / 256)).foldl (fun s cl => s.modCluster cl fun c => c.spadWrite off (b.take k)) s
      s.spadStore gk fuel (off + k) (b.drop k)

/-- Replace half a byte of a scratchpad; the other half is kept (R82, R136). -/
def Cluster.halfWrite (c : Cluster) (a : Nat) (hi : Bool) (v : Nat) : Cluster :=
  c.spadWrite a (toLE 1 (setField (c.spadRead a 1) (if hi then 4 else 0) 4 v))

/-- Write half a byte to scratchpad for a group: in each receiving scratchpad the other half stays as it is there. -/
def State.halfStore (s : State) (gk a : Nat) (hi : Bool) (v : Nat) : State :=
  (s.spadTargets gk (a / 256)).foldl (fun s cl => s.modCluster cl fun c => c.halfWrite a hi v) s

/-- Write one element's code into a tile; the other half of a 4-bit byte is kept. -/
def State.elemStore (s : State) (gk h row col v : Nat) : State :=
  let (a, hi) := hElemAt h row col
  let fmt := hFormat h
  if elemBits fmt = 4 then s.halfStore gk a hi v else s.spadStore gk 2 a (toLE (elemBits fmt / 8) v)

/-! ### Fences and engine accesses (R119, R204, R208) -/

/-- A queued or running access of a group: its issue number, whether it reads and writes. -/
structure Pending where
  no : Nat
  reads : Bool
  writes : Bool

/-- Whether a VX word's operation stores to scratchpad: VXST alone (R134). -/
def vxStores (w : W64) : Bool := let op := field w.toNat 52 8; op = 0x03

/-- Engine accesses of a group not yet performed. -/
def State.engineWork (s : State) (gk : Nat) : List Pending :=
  let c := s.cluster (gcluster gk)
  let l := gk % 64
  (c.mxq.filter fun e => e.group = l).map (fun e => match e.op with
      | .drain .. => { no := e.no, reads := true, writes := true }
      | _ => { no := e.no, reads := true, writes := false })
    ++ (c.slip.filter fun e => e.group = l).map (fun e => { no := e.no, reads := true, writes := true })
    ++ (c.vxq.filter fun e => e.group = l).map (fun e => { no := e.no, reads := true, writes := vxStores e.word })
    ++ (c.xfers.filter fun e => e.group = l).map (fun e => { no := e.no, reads := true, writes := true })

/-- Network writes of a group issued before a number and not acknowledged. -/
def State.netWritesBefore (s : State) (gk no : Nat) : Bool :=
  s.net.ops.any fun o => match o.user with
    | .store _ l _ => l.any fun e => e.1 = gk && decide (e.2 < no)
    | _ => false

/-- The groups that issued a network operation, each with its order number (R306). -/
def NetUser.issuers : NetUser → List (Nat × Nat)
  | .store _ l _ => l
  | .load _ _ b | .ferryCtl _ _ b => b.toList
  | .tile _ _ _ b => [b]
  | .xferRead cl g no => [(64 * cl + g, no)]
  | .atomic .. | .schedule .. | .core _ | .coreStore _ | .drain _ => []

/-- Network operations of a group issued before a number and not acknowledged (R306). -/
def State.netOpsBefore (s : State) (gk no : Nat) : Bool :=
  s.net.ops.any fun o => o.user.issuers.any fun e => e.1 = gk && decide (e.2 < no)

/-- Whether a fence of the group keeps back an access with this number: some earlier access that the
fence orders before it has not been performed (R208). -/
def State.fenced (s : State) (gk no : Nat) (reads writes : Bool) : Bool :=
  match s.group? gk with
  | none => false
  | some g =>
    let work := s.engineWork gk
    g.fences.any fun f => decide (f.no ≤ no) &&
      ((work.any fun e => decide (e.no < f.no) &&
        ((e.reads && (writes || (reads && f.readsAfter))) || (e.writes && f.writesBefore && writes)))
       || (f.writesBefore && f.scope = 4 && writes && s.netWritesBefore gk f.no))

/-- Whether any access of a group issued before `no` is still in an engine. -/
def State.earlierWork (s : State) (gk no : Nat) : Bool := (s.engineWork gk).any fun e => decide (e.no < no)

/-- A group has left: its launch mask is zero and its engine work has left the engines (R74, R118). -/
def State.groupExited (s : State) (gk : Nat) : Bool :=
  match s.group? gk with
  | none => true
  | some g => g.launch = 0 && (s.engineWork gk).isEmpty

/-- Perform the acquires of a cluster's groups whose earlier reads have left the engines (R208, R209). -/
def State.settleFences (s : State) (cl : Nat) : State :=
  (s.clusterGroups cl).foldl (fun s (gk, g) =>
    let due := fun (f : Fence) => f.acquires && !s.earlierWork gk f.no
    if !g.fences.any due then s
    else
      let scope := (g.fences.filter due).foldl (fun n f => Nat.max n f.scope) 0
      (s.setGroup gk { g with fences := g.fences.map fun f => if due f then { f with acquires := false } else f }).acquire gk scope) s

/-! ### The close of a queue (R37, R313) -/

/-- The producer groups that feed a queue. -/
def State.producers (s : State) (k : Nat) (kn : Kernel) (fi : Nat) (f : Ferry) (q : Nat) : List Nat :=
  let _ := fi
  (s.kernelGroups k).filterMap fun (gk, g) =>
    if g.landing = f.producer ∧ (kn.producerQueues f g.lcluster).contains q then some gk else none

/-- Whether every producer group of a queue has closed its stream or exited. -/
def State.producersDone (s : State) (k : Nat) (kn : Kernel) (fi : Nat) (f : Ferry) (q : Nat) : Bool :=
  (s.producers k kn fi f q).all fun gk => (kn.fq fi q).closedBy.contains gk || s.groupExited gk

/-- Send END on the OUT queues of a cluster whose producer groups are all done (R313; DEDUCED, log 40). -/
def State.sendEnds (s : State) (cl : Nat) : State :=
  match (s.cluster cl).kernel with
  | none => s
  | some k => match s.kernel? k with
    | none => s
    | some kn =>
      if kn.phase ≠ .running then s
      else (kn.man.ferries.zipIdx).foldl (fun s (f, fi) =>
        match (kn.landingClusters f.producer).findIdx? (fun c => c = cl) with
        | some q =>
          let x := kn.fq fi q
          if f.isOut && x.endCount.isNone && s.producersDone k kn fi f q then
            let t := x.tiles % 65536
            (s.modKernel k fun kn => kn.setFq fi q { kn.fq fi q with endCount := some t }).ferrySend k fi q (f.tag % 2 ^ 17) 11 (t <<< 32) none
          else s
        | none => s) s

/-- What follows when engine work of a cluster ends or a stream closes: pending acquires are performed, and
queues whose producers are done close. -/
def State.settleEnds (s : State) (cl : Nat) : State := (s.settleFences cl).sendEnds cl

end Sys2Proof.Machine
end

