-- ==== Sys2Proof/Machine/Drain.lean ====
section
/-! DEFINITION. What leaves and enters a cluster's memory path: the write buffer and its drains (R159 to R161), the L1 and the prefetch side buffer (R155, R163, R164),
remote-node lines (R173) and blocked loads (R157, R366). -/
namespace Sys2Proof.Machine

/-! ### Register-window accesses of a transfer (R457) -/

/-- The width of the next register access of a transfer at an address with `n` bytes left: the widest naturally
aligned one within the register (DEDUCED, log 39). -/
def regStep (a n : Nat) : Nat :=
  let stop := match window a with
    | .regs off => (match regAt off with
        | some r => 0x100000000000 + r.base + r.width
        | none => a + 8)
    | _ => a + 8
  ([8, 4, 2].find? fun w => a % w = 0 && decide (w ≤ n) && decide (a + w ≤ stop)).getD 1

/-- Write bytes to the register window for a partition's transfer. -/
def State.regWrite (s : State) (part : Nat) : Nat → Nat → Bytes → State
  | 0, _, _ => s
  | fuel + 1, a, b =>
    if b.isEmpty then s
    else
      let w := regStep a b.length
      (s.writeAt .node (some part) a w (fromLE (b.take w))).regWrite part fuel (a + w) (b.drop w)

/-- Read bytes from the register window for a transfer, register by register. -/
def State.regRead (s : State) : Nat → Nat → Nat → State × Bytes
  | 0, _, _ => (s, [])
  | fuel + 1, a, n =>
    if n = 0 then (s, [])
    else
      let w := regStep a n
      let (s, v) := s.readAt .node a w
      let (s, r) := s.regRead fuel (a + w) (n - w)
      (s, toLE w v ++ r)

/-- Whether a cluster's die reaches what serves a window (R14). -/
def State.clusterReaches (s : State) (cl a : Nat) : Bool := s.windowReached (clusterDie cl) (window a)

/-! ### Remote-node lines (R173) -/

/-- Whether remote-node caching is in force for a cluster's partition. -/
def State.remoteCaching (s : State) (cl : Nat) : Bool := inForce s 0xA061 (s.clusterPart cl + 1) = 1
/-- The remote-node copy a cluster's half holds. -/
def State.remoteCopy (s : State) (cl line : Nat) : Option Copy :=
  (s.agent (clusterHalf cl)).copies.find? fun c => c.remote && c.line = line
/-- Bytes of a remote-node line the half holds. -/
def State.remoteRead (s : State) (cl a n : Nat) : Option Nat :=
  (s.remoteCopy cl (lineOf a)).bind fun c =>
    let need := maskOf ((List.range 4).filter fun i => decide (a % 128 / 32 ≤ i) && decide (i ≤ (a % 128 + n - 1) / 32))
    if need &&& c.valid.toNat = need then some (field c.data.toNat (8 * (a % 128)) (8 * n)) else none
/-- Keep sectors of a remote-node line in the requester's half. -/
def State.keepRemote (s : State) (cl line sectors data : Nat) (i : AllocInfo) : State :=
  let half := clusterHalf cl
  let i := { i with remote := true }
  match s.remoteCopy cl line with
  | some c => s.placeCopy half { c with valid := c.valid ||| BitVec.ofNat 4 sectors, data := BitVec.ofNat 1024 (mergeSectors sectors c.data.toNat data) } i
  | none => match s.makeRoom half line i with
    | none => s
    | some (s, w) => s.placeCopy half { line := line, st := .S, valid := BitVec.ofNat 4 sectors, dirty := 0, data := BitVec.ofNat 1024 data, way := w, remote := true } i
/-- A read looks up a remote-node line: the lookup counts, and a hit renews the line's place by its hint (R168,
R171, R173). -/
def State.remoteLookup (s : State) (cl a n : Nat) (i : AllocInfo) : State × Option Nat :=
  if !s.remoteCaching cl then (s, s.remoteRead cl a n)
  else
    let half := clusterHalf cl
    let s := s.meetCopies (lineOf a)
    match s.remoteCopy cl (lineOf a), s.remoteRead cl a n with
    | some c, some v => ((s.countLookup half (some c.way)).placeCopy half c { i with remote := true }, some v)
    | some c, none => (s.countLookup half (some c.way), none)
    | none, _ => (s.countLookup half none, none)
/-- A write through a network window updates a present remote-node line. -/
def State.updateRemote (s : State) (cl a mask data n : Nat) : State :=
  let line := lineOf a
  s.modAgent (clusterHalf cl) fun x => { x with copies := x.copies.map fun c =>
    if c.remote ∧ c.line = line then { c with data := BitVec.ofNat 1024 (mergeBytes 128 (mask % 2 ^ n * 2 ^ (a % 128)) c.data.toNat (data * 2 ^ (8 * (a % 128)))) } else c }
/-! ### The L1 and the prefetch side buffer (R155, R163, R164) -/

/-- Keep a line as the most recently used one of its set; the least recently used of eight gives way. -/
def Cluster.l1Insert (c : Cluster) (l : L1Line) : Cluster :=
  if c.l1size = 0 then c
  else
    let sets := c.l1size / 1024
    let rest := c.l1.filter fun x => x.line ≠ l.line
    let same := rest.filter fun x => x.line / 128 % sets = l.line / 128 % sets
    let rest := if same.length < 8 then rest
      else match same.getLast? with
        | some v => rest.filter fun x => x.line ≠ v.line
        | none => rest
    { c with l1 := l :: rest }

/-- A store updates a line held in the L1 or the prefetch side buffer (R159). A poisoned line is dropped
instead: whether the store clears the poison is settled when its sector drains (R184). A hit by a store does
not renew the line's place: only loads use the L1 (R155; DEDUCED, log 140). -/
def Cluster.storeThrough (c : Cluster) (a n v : Nat) : Cluster :=
  let line := lineOf a
  let put := fun (d : LineData) => { d with data := BitVec.ofNat 1024 (setField d.data.toNat (8 * (a % 128)) (8 * n) v) }
  { c with
    l1 := (c.l1.filter fun x => !(x.line = line && x.data.poison ≠ 0)).map fun x => if x.line = line then { x with data := put x.data } else x
    pf := (c.pf.filter fun x => !(x.line = line && (match x.data with
        | some d => d.poison ≠ 0
        | none => false))).map fun x => if x.line = line then { x with data := x.data.map put } else x }

/-! ### The write buffer (R160) -/

/-- The kernel and landing of a group, for its moored ways. -/
def State.landingOf (s : State) (gk : Nat) : Option (Nat × Nat) := (s.group? gk).map fun g => (g.kernel, g.landing)
def State.entryInfo (s : State) (cl : Nat) (e : WbEntry) : AllocInfo :=
  s.allocInfo cl e.hint ((e.owners.head?).bind fun o => s.landingOf o.1)
/-- The lowest byte an entry writes (R224). -/
def WbEntry.first (e : WbEntry) : Nat := 32 * e.sector + (((List.range 32).find? fun i => e.mask.toNat.testBit i).getD 0)

/-- Perform a sector write that leaves the buffer: none where the home answers RETRY. A register sees each
store the entry holds as one access of its own width (R457, log 39). What cannot be reached is discarded
(R14). -/
def State.wbPerform (s : State) (cl : Nat) (e : WbEntry) : Option State :=
  let a := 32 * e.sector
  let mask := e.mask.toNat
  let data := e.data.toNat
  let part := s.clusterPart cl
  let runs := fun (f : State → Nat → Bytes → State) =>
    (maskRuns mask 32).foldl (fun s (o, k) => f s (a + o) (toLE k (field data (8 * o) (8 * k)))) s
  if !s.clusterReaches cl a then some s
  else match window a with
  | .regs _ => some (e.parts.foldl (fun (s : State) (o, w) => s.writeAt .node (some part) (a + o) w (field data (8 * o) (8 * w))) s)
  | .companion off => some (runs fun s x b => s.send (.companionWrite (off + (x - a)) b))
  | .host port off => some (runs fun s x b => s.hostWrite part port (off + (x - a)) b e.translated)
  | .net off =>
    let k := ((e.owners.head?).bind fun o => (s.group? o.1).map fun g => g.kernel).getD 0
    some ((s.updateRemote cl a mask data 32).windowPut (clusterDie cl) off mask data 32 (.store k e.owners e.first) none)
  | .reserved => some s
  | _ => match s.keyAddr a with
    | none => some s
    | some k => s.clusterWrite cl (lineOf k) (mask <<< (k % 128)) (data <<< (8 * (k % 128))) (s.entryInfo cl e) e.uncached

/-- A buffered sector with an uncorrectable error is written to memory poisoned (R365); at an address that is no
memory it is discarded (DESIGN CHOICE, log 162). -/
def State.wbLost (s : State) (cl : Nat) (e : WbEntry) : Option State :=
  match s.keyAddr (32 * e.sector) with
  | none => some s
  | some k => (s.clusterWrite cl (lineOf k) ((2 ^ 32 - 1) <<< (k % 128)) 0 (s.entryInfo cl e) true).map fun s => s.dramPoison k

/-- Drain the oldest entry. -/
def State.drainOne (s : State) (cl : Nat) : Option State :=
  match (s.cluster cl).wb with
  | [] => some s
  | e :: r =>
    let (s, bad) := s.meetArrays .writeBuffer cl 3 fun x => x = e.sector
    let s := s.modCluster cl fun c => { c with wb := r }
    if bad.isEmpty then s.wbPerform cl e else s.wbLost cl e

/-- Drain the oldest `n` entries: none where one meets RETRY. -/
def State.drainN : Nat → State → Nat → Option State
  | 0, s, _ => some s
  | n + 1, s, cl => (s.drainOne cl).bind fun s => s.drainN n cl

/-- Drain every entry up to the last one that satisfies `p`. -/
def State.drainThrough (s : State) (cl : Nat) (p : WbEntry → Bool) : Option State :=
  let n := ((s.cluster cl).wb.zipIdx).foldl (fun n (e, i) => if p e then i + 1 else n) 0
  s.drainN n cl

/-- Drain what a release or fence of a group covers. -/
def State.drainGroup (s : State) (gk : Nat) : Option State :=
  s.drainThrough (gcluster gk) fun e => e.owners.any fun o => o.1 = gk
/-- Drain what lies before a request for a line, named by its location. -/
def State.drainLine (s : State) (cl line : Nat) : Option State := s.drainThrough cl fun e => 32 * e.sector / 128 * 128 = line
/-- Drain a cluster's whole buffer. -/
def State.drainAll (s : State) (cl : Nat) : Option State := s.drainN (s.cluster cl).wb.length cl

/-- A request of a cluster, core or hub has met RETRY, or could not be sent, and is sent again later
(R234, R244; log 95). -/
def State.retryMet (s : State) : State := s.count 0x7101 4 1

/-- While more than 16 entries are occupied, the oldest drain; a RETRY leaves the rest for later. -/
def State.drainOver : Nat → State → Nat → State
  | 0, s, _ => s
  | n + 1, s, cl =>
    if (s.cluster cl).wb.length ≤ 16 then s
    else match s.drainOne cl with
      | some s => s.drainOver n cl
      | none => s.retryMet

/-- Put bytes within one sector, at their location, into the buffer. -/
def Cluster.wbPut (c : Cluster) (a n v : Nat) (owner : Nat × Nat) (hint : Nat) (uncached translated : Bool) : Cluster :=
  let sec := a / 32
  let mask := (2 ^ n - 1) <<< (a % 32)
  let put := fun (e : WbEntry) => { e with
    mask := e.mask ||| BitVec.ofNat 32 mask
    data := BitVec.ofNat 256 (setField e.data.toNat (8 * (a % 32)) (8 * n) v)
    owners := owner :: e.owners.filter fun o => o.1 ≠ owner.1
    parts := e.parts.filter (fun x => x ≠ (a % 32, n)) ++ [(a % 32, n)]
    hint := hint, uncached := uncached, translated := translated }
  if c.wb.any fun e => e.sector = sec then { c with wb := c.wb.map fun e => if e.sector = sec then put e else e }
  else { c with wb := c.wb ++ [put { sector := sec, mask := 0, data := 0, owners := [] }] }

/-- What a release makes the group wait for in this model: its earlier accesses in the engines and, at
SYSTEM scope, the acknowledgement of its network writes (R208, R213).
(DEDUCED, log 73.) -/
def State.releaseHeldBack (s : State) (gk : Nat) (g : Group) (scope : Nat) : Bool :=
  s.earlierWork gk g.issued || (scope = 4 && s.netWritesBefore gk g.issued)

/-! ### Blocked loads (R157, R366) -/

/-- The key under which a lane's register value is kept in a load's arrived data. -/
def regKey (lane : Nat) : Nat := 2 ^ 48 + lane
def isRegs (pa : Nat) : Bool := match window pa with
  | .regs _ => true
  | _ => false

/-- The bytes of one lane of a load, and whether they are poisoned. -/
def LoadBlock.laneValue (b : LoadBlock) (l : LaneAccess) : Nat × Bool :=
  if isRegs l.pa then
    let d := sgetD b.got (regKey l.lane) {}
    (field d.data.toNat 0 (8 * b.bytes), d.poison ≠ 0)
  else
    let d := sgetD b.got (lineOf l.loc) {}
    (field d.data.toNat (8 * (l.loc % 128)) (8 * b.bytes), d.poison.toNat.testBit (l.loc % 128 / 32))

/-- A load has all its lines: its destination is written, or the lowest poisoned address faults. -/
def State.finishLoad (s : State) (gk : Nat) (g : Group) (b : LoadBlock) : State :=
  let bad := b.lanes.filter fun l => (b.laneValue l).2
  match bad with
  | l :: r =>
    let low := r.foldl (fun m x => if x.pa < m.pa then x else m) l
    s.takeFault gk { g with wait := .ready } b.word
      (poisonFault (if b.source = 4 then 4 else poisonSource low.pa) 0 low.pa low.va.toNat)
  | [] =>
    let g := b.lanes.foldl (fun g l =>
      let v := (b.laneValue l).1
      let v := if b.signed then wrap 32 (sext (8 * b.bytes) v) else v
      g.set l.lane b.rd (b.bytes = 8) v) g
    s.setGroup gk g.next

/-- Go on with a load: finish it, or wait for the lines it still needs. -/
def State.loadProgress (s : State) (gk : Nat) (g : Group) (b : LoadBlock) : State :=
  if b.need.isEmpty then s.finishLoad gk g b else s.setGroup gk { g with wait := .load b }

/-- The groups of a cluster that wait for a line, with their loads. -/
def State.lineWaiters (s : State) (cl line : Nat) : List (Nat × Group × LoadBlock) :=
  (s.clusterGroups cl).filterMap fun (gk, g) => match g.wait with
    | .load b => if b.need.contains line then some (gk, g, b) else none
    | _ => none

/-- A line has arrived for every load that waits for it (R157); a tombstone faults them (R176). `lost`:
the request completed with poison (R280). -/
def State.lineArrives (s : State) (cl line : Nat) (d : LineData) (tomb lost : Bool) : State :=
  (s.lineWaiters cl line).foldl (fun s (gk, g, b) =>
    if tomb then
      let pa := ((b.lanes.find? fun l => lineOf l.loc = line).map fun l => lineOf l.pa).getD line
      s.takeFault gk { g with wait := .ready } b.word { code := 0x801, arg0 := pa }
    else s.loadProgress gk g { b with
      need := b.need.filter fun x => x ≠ line
      got := sset line d b.got
      source := if lost then 4 else b.source }) s

/-- The register block answers the loads that wait for a line of it, one access a lane (R457). -/
def State.regsArrive (s : State) (cl line : Nat) : State :=
  (s.lineWaiters cl line).foldl (fun s (gk, g, b) =>
    let mine := b.lanes.filter fun l => lineOf l.pa = line
    let (s, got) := mine.foldl (fun (s, got) l =>
      if s.clusterReaches cl l.pa then
        let (s, x) := s.readAt .node l.pa b.bytes
        (s, sset (regKey l.lane) { data := BitVec.ofNat 1024 x : LineData } got)
      else (s, sset (regKey l.lane) { poison := 15 } got)) (s, b.got)
    s.loadProgress gk g { b with
      need := b.need.filter fun x => x ≠ line
      got := got
      source := if s.clusterReaches cl line then b.source else 4 }) s

/-! ### Requests for missed lines -/

/-- What a request for a whole line brings. -/
inductive LineAnswer where
  | data (d : LineData) (tomb lost : Bool)
  /-- not arrived, or the home answered RETRY -/
  | later
  deriving DecidableEq, Repr

/-- Send the request for a missed line: windows of other nodes and of the host are asked at once, a
remote-node line that the half holds answers at once (R173); where the hub cannot be reached the answer is
poison (R14). -/
def State.askLine (s : State) (cl line : Nat) (translated : Bool) (hint : Nat) (owner : Option (Nat × Nat))
    (by' : Option (Nat × Nat)) : State :=
  match window line with
  | .net off => (match s.remoteLookup cl line 128 (s.allocInfo cl hint owner) with
    | (s, some d) => s.fillArrives cl line { data := BitVec.ofNat 1024 d }
    | (s, none) =>
      if s.clusterReaches cl line then s.windowGet (clusterDie cl) off 128 (.load cl line by') else s.fillArrives cl line { poison := 15 })
  | .host port off =>
    if s.clusterReaches cl line then s.hostRead (s.clusterPart cl) port off 128 (.load cl line) translated
    else s.fillArrives cl line { poison := 15 }
  | _ => s

/-- Take what a request for a line has brought. -/
def State.takeLine (s : State) (cl line hint : Nat) (owner : Option (Nat × Nat)) (uncached : Bool) (came : Option LineData)
    (keepRemote : Bool) : State × LineAnswer :=
  let i := s.allocInfo cl hint owner
  let lost := !s.clusterReaches cl line
  match window line with
  | .net _ | .host _ _ => match came with
    | none => (s, .later)
    | some d =>
      let keep := s.remoteCaching cl && keepRemote && d.poison = 0 && (match window line with | .net _ => true | _ => false)
      (if keep then s.keepRemote cl line 15 d.data.toNat i else s, .data d false (lost && d.poison ≠ 0))
  | .companion _ => if lost then (s, .data { poison := 15 } false true)
    else (s.useFree, .data { data := BitVec.ofNat 1024 s.freeNat } false false)
  | .regs _ | .reserved => (s, .data { poison := 15 } false false)
  | _ => match s.keyAddr line with
    | none => (s, .data { poison := 15 } false false)
    | some k => match s.clusterRead cl k 15 i uncached with
      | none => (s.retryMet, .later)
      | some (s, r) => (s, .data { data := BitVec.ofNat 1024 r.data, poison := BitVec.ofNat 4 r.poison } r.tomb (!s.reachesLine (clusterDie cl) k))

/-- Whether a line is already on its way to the cluster. -/
def Cluster.inFlight (c : Cluster) (line : Nat) : Bool :=
  c.fills.any (fun f => f.line = line) || c.pf.any fun f => f.line = line && f.data.isNone

/-- Missed lines in flight with no L1, where they share the prefetch side buffer (R158). -/
def Cluster.flying (c : Cluster) : Nat := c.fills.length + (c.pf.filter fun f => f.data.isNone).length

/-- Whether a cluster has room for `n` more missed lines (R157, R158). -/
def Cluster.missRoom (c : Cluster) (n : Nat) : Bool :=
  if c.l1size = 0 then decide (c.flying + n ≤ 16) else decide (c.fills.length + n ≤ 64)

/-- With no L1, missed lines take entries of the prefetch side buffer: the oldest arrived ones go. -/
def Cluster.dropOldestPf (c : Cluster) (n : Nat) : Cluster :=
  let extra := c.fills.length + c.pf.length + n - 16
  if c.l1size = 0 then
    let gone := ((c.pf.filter fun f => f.data.isSome).take extra).map (·.line)
    { c with pf := c.pf.filter fun f => !(gone.contains f.line) }
  else c

/-- Ask for one missed line; none when the write buffer's drain meets RETRY. -/
def State.askMiss (s : State) (cl hint : Nat) (owner : Nat × Nat) (x : Nat × Bool × Bool) : Option State :=
  (s.drainLine cl x.1).map fun s =>
    let f : Fill := { line := x.1, keep := !x.2.1, hint := hint, uncached := x.2.1, owner := some owner }
    (s.modCluster cl fun c => { c.dropOldestPf 1 with fills := (c.dropOldestPf 1).fills ++ [f] }).askLine cl x.1 x.2.2 hint (some owner) none

/-- With no L1, a load of more lines than may be in flight asks for the next ones as entries come free. -/
def State.sendLater (s : State) (cl : Nat) : State :=
  (s.clusterGroups cl).foldl (fun s (gk, g) => match g.wait with
    | .load b =>
      let step := fun (acc : State × List (Nat × Bool × Bool)) (x : Nat × Bool × Bool) =>
        let (s, left) := acc
        if !left.isEmpty || !(s.cluster cl).missRoom 1 then (s, left ++ [x])
        else if (s.cluster cl).inFlight x.1 then (s, left)
        else match s.askMiss cl (field b.word.toNat 44 2) (g.kernel, g.landing) x with
          | some s => (s, left)
          | none => (s, left ++ [x])
      if b.later.isEmpty then s
      else
        let (s, left) := (b.later.filter fun x => b.need.contains x.1).foldl step (s, [])
        s.setGroup gk { g with wait := .load { b with later := left } }
    | _ => s) s

/-- L1_FILL: a missed line arrives (R157, R158). -/
def execL1Fill (cl : Fin 512) (line : BitVec 48) (s : State) : Answer :=
  let c := cl.val
  let a := line.toNat
  match (s.cluster c).fills.find? (fun f => f.line = a) with
  | none => .next (s.sendLater c)
  | some f =>
    let drop := fun (s : State) => s.modCluster c fun x => { x with fills := x.fills.filter fun f => f.line ≠ a }
    if isRegs a then .next (((drop s).regsArrive c a).sendLater c)
    else match s.takeLine c a f.hint f.owner f.uncached f.data f.keepRemote with
      | (s, .later) => .next s
      | (s, .data d tomb lost) =>
        let s := drop s
        let s := if f.keep && !tomb then s.modCluster c fun x => x.l1Insert { line := a, data := d } else s
        .next ((s.lineArrives c a d tomb lost).sendLater c)

/-! ### Prefetches (R163) -/

/-- Discard the waiting prefetches of a page and count them. -/
def State.dropPrefetches (s : State) (cl page : Nat) : State :=
  let gone := (s.cluster cl).pfWait.filter fun p => p.va / 4096 = page
  (s.modCluster cl fun c => { c with pfWait := c.pfWait.filter fun p => p.va / 4096 ≠ page }).count 0xA068 3 gone.length

/-- Send the request of a prefetch's entry once the write buffer has drained its line (R160). -/
def State.askPrefetch (s : State) (cl : Nat) (e : PfEntry) : State :=
  let mark := fun (x : PfEntry) => if x.line = e.line then { x with asked := true } else x
  match s.drainLine cl e.line with
  | none => s.retryMet
  | some s => (s.modCluster cl fun c => { c with pf := c.pf.map mark }).askLine cl e.line e.translated e.hint e.owner e.by'

/-- Prefetch one line: it never faults. One that cannot be translated, is unbacked or finds every entry in
flight is discarded and counted; one of an uncached page or a register line keeps nothing (R156, R246) and
R163 counts it nowhere; one whose translation is not there yet is kept and tried again
(DEDUCED, log 72). -/
def State.tryPrefetch (s : State) (cl : Nat) (p : PfWait) : State :=
  let keep := fun (s : State) => s.modCluster cl fun c => { c with pfWait := if c.pfWait.contains p then c.pfWait else c.pfWait ++ [p] }
  let off := fun (s : State) => s.modCluster cl fun c => { c with pfWait := c.pfWait.filter fun x => x ≠ p }
  match s.kernel? p.kernel with
  | none => off s
  | some kn =>
    if s.fenced p.group p.no true false then keep s
    else match s.translate cl kn p.va 0 (prefetchWaiter cl, none) with
      | (s, .wait) => keep s
      | (s, .busy) => keep s.retryMet
      | (s, .fault _) => (off s).count 0xA068 3 1
      | (s, .ok pa pbmt t) =>
        let s := off s
        let line := lineOf (s.location pa)
        let c := s.cluster cl
        if pbmt ≠ 0 ∨ isRegs pa then s
        else if c.l1.any (fun x => x.line = line) || c.pf.any (fun x => x.line = line) || c.fills.any (fun x => x.line = line) then s
        else
          let used := c.pf.length + (if c.l1size = 0 then c.fills.length else 0)
          if !(used < 16 ∨ c.pf.any (fun x => x.data.isSome)) then s.count 0xA068 3 1
          else
            let gone := if used < 16 then none else (c.pf.find? fun x => x.data.isSome).map (·.line)
            let e : PfEntry := { line := line, hint := p.hint, owner := some (p.kernel, p.landing), asked := false, translated := t, by' := some (p.group, p.no) }
            (s.modCluster cl fun c => { c with pf := (c.pf.filter fun x => some x.line ≠ gone) ++ [e] }).askPrefetch cl e

/-- Try a cluster's waiting prefetches again, oldest first. -/
def State.retryPrefetches (s : State) (cl : Nat) : State := (s.cluster cl).pfWait.foldl (fun s p => s.tryPrefetch cl p) s

/-- PREFETCH_FILL: a prefetched line arrives (R163); a load that waits for it takes it into the L1, else
it stands in its entry. Prefetches that wait are tried again. -/
def execPrefetchFill (cl : Fin 512) (line : BitVec 48) (s : State) : Answer :=
  let c := cl.val
  let a := line.toNat
  let s := s.retryPrefetches c
  match (s.cluster c).pf.find? (fun f => f.line = a && f.data.isNone) with
  | none => .next s
  | some f =>
    if !f.asked then .next (s.askPrefetch c f)
    else
      let drop := fun (s : State) => s.modCluster c fun x => { x with pf := x.pf.filter fun f => f.line ≠ a }
      match s.takeLine c a f.hint f.owner false f.came f.keepRemote with
      | (s, .later) => .next s
      | (s, .data d tomb lost) =>
        if !(s.lineWaiters c a).isEmpty then
          let s := drop s
          let s := if f.keep && !tomb then s.modCluster c fun x => x.l1Insert { line := a, data := d } else s
          .next ((s.lineArrives c a d tomb lost).sendLater c)
        else if tomb || !f.keep then .next (drop s)
        else .next (s.modCluster c fun x => { x with pf := x.pf.map fun e => if e.line = a then { e with data := some d } else e })

/-- WRITE_BUFFER_AGE: the oldest entry has been occupied for 32 clocks and drains (R160). -/
def execWriteBufferAge (cl : Fin 512) (s : State) : Answer := .next ((s.drainOne cl.val).getD s.retryMet)

/-- STREAM_TRACKER_EXPIRY: a tracker unmatched for 8,192 fabric clocks is freed (R172). -/
def execStreamTrackerExpiry (half : Fin 8) (i : Fin 32) (s : State) : Answer :=
  .next (s.modAgent half.val fun a => { a with trackers := a.trackers.set i.val none })

end Sys2Proof.Machine
end

