-- ==== Sys2Proof/Machine/Matrix.lean ====
section
/-! DEFINITION. MX: the matrix engine's checks at issue, its queue, and the execution of multiplies,
drains and accumulator loads (R95 to R98, R101 to R119). -/
namespace Sys2Proof.Machine

/-! ### Shapes (R97, R101, R102) -/

def mxM (fmt : Nat) : Nat := if fmt = 0 then 32 else 64
def mxN : Nat := 64
/-- Every MXMMA covers two chunks. -/
def mxK (fmt : Nat) : Nat := 2 * chunkSize fmt
def accKind (fmt : Nat) : AccKind := if fmt = 0 then .fp64 else if fmt = 10 ∨ fmt = 11 then .i32 else .fp32
def AccKind.code : AccKind → Nat
  | .fp64 => 0 | .fp32 => 1 | .i32 => 2
/-- The M × N rectangle of a kind. -/
def AccKind.rows : AccKind → Nat
  | .fp64 => 32 | _ => 64
def mixes (a b : Nat) : Bool :=
  a = b || ((a = 3 || a = 4) && (b = 3 || b = 4)) || (decide (5 ≤ a ∧ a ≤ 8) && decide (5 ≤ b ∧ b ≤ 8))
/-- The format class of the change penalty: a row of the shape table. -/
def mxClass (fmt : Nat) : Nat :=
  if fmt = 3 ∨ fmt = 4 then 3 else if 5 ≤ fmt ∧ fmt ≤ 8 then 5 else fmt

/-! ### The offset word (R107) -/

def offK (o : Nat) : Nat := field o 0 8
def offM (o : Nat) : Nat := field o 8 8
def offN (o : Nat) : Nat := field o 16 8
def offBad (o : Nat) : Bool := field o 24 8 ≠ 0

/-! ### Signatures (R106) -/

def mxSig (w : Fields) (rs1 : Bool) (offset legal : Bool) : Sig :=
  { legal := legal && w.mod = 0 && !w.ri && w.ty ≤ 12
    rs1 := if rs1 then .p else .zero, rs2 := .p, rs3 := if offset then .r else .zero }

/-- The check on ACC, with the register ranges (R78, R109). -/
def accumRange (acc : Nat) (g : Group) : Option FaultInfo :=
  if acc ≥ g.accumCount then some { code := 0x107, arg0 := acc, arg1 := g.accumCount } else none

/-- A check and the fault it gives. -/
abbrev Check := Bool × FaultInfo
/-- The first check that fails. -/
def firstFault : List Check → Option FaultInfo
  | [] => none
  | (b, f) :: r => if b then some f else firstFault r
/-- A fault found already, as a check. -/
def asCheck : Option FaultInfo → List Check
  | some f => [(true, f)]
  | none => []

def State.tile (s : State) (cl i : Nat) : AccTile := sgetD (s.cluster cl).tiles i {}
def State.setTile (s : State) (cl i : Nat) (t : AccTile) : State :=
  s.modCluster cl fun c => { c with tiles := sput c.tiles i t {} }

/-- The group a tile is open for: an owner that has exited no longer holds it (R111). -/
def State.tileOpen (s : State) (cl i : Nat) : Option (Nat × AccKind) :=
  match (s.tile cl i).openBy with
  | some (l, k) => if s.groupExited (64 * cl + l) then none else some (l, k)
  | none => none

/-! ### Issue -/

/-- The rectangle and block checks of R105 on A and B. An offset word that is wrong in bits 31:24, or in K0,
which both operands share, names A as the handle at fault (DESIGN CHOICE, log 134). -/
def mmaShape (fmt a b o : Nat) : List Check :=
  let M := mxM fmt
  let N := mxN
  let K := mxK fmt
  let bad := fun (h : Nat) => ({ code := 0x303, arg0 := h, arg1 := o } : FaultInfo)
  [(offBad o, bad a),
   (offK o % K ≠ 0 || offM o % M ≠ 0 || offM o + M > hRows a || offK o + K > hCols a
      || (hScaleKind a = 3 && hCols a % hBlock a ≠ 0), bad a),
   (offN o % N ≠ 0 || offK o + K > hRows b || offN o + N > hCols b
      || (hScaleKind b = 3 && hRows b % hBlock b ≠ 0), bad b)]

/-- The latched kinds of an operand pair (R112). -/
def latchOf (a b : Nat) : LatchMeta :=
  { kindA := BitVec.ofNat 2 (hScaleKind a), kindB := BitVec.ofNat 2 (hScaleKind b)
    blockA := hScaleKind a = 3 && hBlock32 a, blockB := hScaleKind b = 3 && hBlock32 b }

/-- SCALE_MISMATCH of one instruction: R113, R96. -/
def scaleBad (fmt a b : Nat) : Bool :=
  let blk := fun (h : Nat) => hScaleKind h = 3
  ((blk a || blk b) && !decide (5 ≤ fmt ∧ fmt ≤ 9)) || (blk a != blk b) || (blk a && blk b && hBlock32 a != hBlock32 b)

/-- MXMMA's execution checks in the order of R127 (R108, R110, R112). -/
def State.mmaChecks (s : State) (cl l tile acc ty a b o : Nat) (start : Bool) : Option FaultInfo :=
  let opened := s.tileOpen cl tile
  let latched := if start ∨ opened.isNone then none else (s.tile cl tile).latchMeta
  firstFault <|
    ([(hTop a ≠ 0, { code := 0x301, arg0 := a, arg1 := 1 }), (hTop b ≠ 0, { code := 0x301, arg0 := b, arg1 := 2 }),
     (ty = 12 || hFormat a ≠ ty, { code := 0x302, arg0 := ty, arg1 := hFormat a }),
     (!mixes ty (hFormat b), { code := 0x302, arg0 := ty, arg1 := hFormat b })] : List Check)
    ++ mmaShape ty a b o ++
    ([(scaleBad ty a b || (match latched with | some m => m != latchOf a b | none => false), { code := 0x304, arg0 := a, arg1 := b }),
     (!start && opened.isNone, { code := 0x305, arg0 := acc }),
     ((match opened with | some (_, k) => !start && k != accKind ty | none => false),
        { code := 0x306, arg0 := acc, arg1 := (opened.map fun e => e.2.code).getD 0 }),
     ((match opened with | some (x, _) => x != l | none => false), { code := 0x307, arg0 := acc, arg1 := (opened.map Prod.fst).getD 0 })] : List Check)
    ++ asCheck (scratchFault a (hExtent a .a) (s.cluster cl).spadSize)
    ++ asCheck (scratchFault b (hExtent b .b) (s.cluster cl).spadSize)

/-- Queue an MX entry for the cluster. -/
def State.mxPush (s : State) (gk : Nat) (g : Group) (word : W64) (op : MxOp) : State :=
  (s.modCluster (gcluster gk) fun c =>
    { c with mxq := c.mxq ++ [{ group := gk % 64, no := g.issued, op := op, word := word, pc := g.pc }] }).setGroup gk g.next

/-- MX 01h MXMMA. A full queue holds the group (R119). -/
def execMxMma (id : GroupId) (w : Fields) (s : State) : Answer :=
  let offset := w.aux.testBit 5
  let start := w.aux.testBit 4
  let acc := w.aux % 16
  .next (s.issue id 9 0x01 w (mxSig w true offset (w.aux < 64)) true (fun _ => none) (fun _ g => accumRange acc g)
    fun s gk g kn =>
      let cl := gcluster gk
      if (s.cluster cl).mxq.length ≥ 4 then .hold s
      else
        let a := g.pair g.lead w.rs1.toNat
        let b := g.pair g.lead w.rs2
        let o := if offset then g.reg g.lead w.rs3 else 0
        let needs := fun (h : Nat) => hTop h = 0 && hScaleKind h = 3
        let tile := g.accumBase + acc
        if (needs a || needs b) && !kn.feature 0 then .fault s { code := 0x103, arg0 := 0 }
        else match s.mmaChecks cl (gk % 64) tile acc w.ty a b o start with
          | some f => .fault s f
          | none =>
            let t := s.tile cl tile
            let latch := start || t.latchMeta.isNone
            let t' := { t with
              openBy := some (gk % 64, accKind w.ty)
              latchMeta := if latch then some (latchOf a b) else t.latchMeta }
            .done ((s.setTile cl tile t').mxPush gk g (w.word 9 0x01)
              (.mma w.ty (BitVec.ofNat 64 a) (BitVec.ofNat 64 b) (BitVec.ofNat 32 o) start latch tile)))

/-- The rectangle of a drain or a load inside the tile named (R107, R111, R117). -/
def rectBad (h o rows : Nat) : Bool :=
  offBad o || offK o ≠ 0 || offM o + rows > hRows h || offN o + 64 > hCols h

/-- MX 03h MXLDACC. -/
def execMxLdacc (id : GroupId) (w : Fields) (s : State) : Answer :=
  let offset := w.aux.testBit 5
  let acc := w.aux % 16
  .next (s.issue id 9 0x03 w (mxSig w false offset (w.aux < 64 && !w.aux.testBit 4)) true (fun _ => none) (fun _ g => accumRange acc g)
    fun s gk g _ =>
      let cl := gcluster gk
      if (s.cluster cl).mxq.length ≥ 4 then .hold s
      else
        let h := g.pair g.lead w.rs2
        let o := if offset then g.reg g.lead w.rs3 else 0
        let tile := g.accumBase + acc
        let opened := s.tileOpen cl tile
        let kind : AccKind := if w.ty = 0 then .fp64 else .fp32
        let check := firstFault <|
          ([(hTop h ≠ 0, { code := 0x301, arg0 := h, arg1 := 3 }),
           (w.ty ≥ 2 || hFormat h ≠ w.ty, { code := 0x302, arg0 := w.ty, arg1 := hFormat h }),
           (rectBad h o kind.rows, { code := 0x303, arg0 := h, arg1 := o }),
           ((match opened with | some (x, _) => x != gk % 64 | none => false), { code := 0x307, arg0 := acc, arg1 := (opened.map Prod.fst).getD 0 })] : List Check)
          ++ asCheck (scratchFault h (hExtent h .plain) (s.cluster cl).spadSize)
        match check with
        | some f => .fault s f
        | none =>
          let t := { s.tile cl tile with openBy := some (gk % 64, kind), latchMeta := none }
          .done ((s.setTile cl tile t).mxPush gk g (w.word 9 0x03) (.ldacc (BitVec.ofNat 64 h) (BitVec.ofNat 32 o) tile)))

/-! ### Execution (R98, R111, R112) -/

/-- The format of an accumulator kind; i32 has none. -/
def AccKind.fmt : AccKind → Fmt
  | .fp64 => .fp64 | _ => .fp32

/-- A scale as fp32 bits: bf16 widens exactly (R95). -/
def scaleBits (kind raw : Nat) : Nat := if kind = 2 then 65536 * raw else raw

/-- Row scales of A and column scales of B as the tile latches them, by row or column of the slice. -/
def Cluster.latchScales (c : Cluster) (h off first n : Nat) : Option (Sparse W32) :=
  let k := hScaleKind h
  if k = 1 ∨ k = 2 then
    some ((List.range n).foldl (fun m i =>
      sput m i (BitVec.ofNat 32 (scaleBits k (c.spadRead (hBase h + 64 * off + (first + i) * scaleBytes k) (scaleBytes k)))) 0) [])
  else none

/-- A product of the chunk sum: a, b and, with block scales, A's scale and B's scale, in operand order
(R96, R98). -/
def Cluster.product (c : Cluster) (flush : Bool) (ty a b row col k : Nat) : (Num × Flags) × Flags :=
  let dec := fun (fmt code : Nat) => match elemType fmt with
    | some (.float f) => f.read flush code
    | _ => (Num.fin false 0 0, 0)
  let (x, fx) := dec (hFormat a) (c.elem a row k)
  let (y, fy) := dec (hFormat b) (c.elem b k col)
  let scales :=
    if hScaleKind a = 3 then
      let n := hBlock a
      [e8m0Value (c.spadRead (hBase a + 64 * hRScale a + row * (hCols a / n) + k / n) 1),
       e8m0Value (c.spadRead (hBase b + 64 * hRScale b + col * (hRows b / n) + k / n) 1)]
    else []
  let _ := ty
  (mulAll ([x, y] ++ scales), fx ||| fy)

/-- One chunk added to an accumulator value (R98). -/
def Cluster.chunk (c : Cluster) (flush : Bool) (ty a b row col k0 : Nat) (acc : Nat) : Nat × Flags :=
  let ks := (List.range (chunkSize ty)).map fun i => k0 + i
  match accKind ty with
  | .i32 =>
    let w := elemBits ty
    let sum : Int := ks.foldl (fun t k => t + sext w (c.elem a row k) * sext w (c.elem b k col)) 0
    clampInt true 32 (sext 32 acc + sum)
  | kind =>
    let ps := ks.map fun k => c.product flush ty a b row col k
    let fl := ps.foldl (fun f p => f ||| p.2) 0
    let (v, fv) := kind.fmt.finish flush (chunkSum (ps.map Prod.fst))
    let (r, fr) := kind.fmt.add flush acc v
    (r, fl ||| fv ||| fr)

/-- A whole MXMMA on a tile's values: every element takes its two chunks in ascending k. -/
def Cluster.mma (c : Cluster) (flush : Bool) (ty a b o : Nat) (vals : Sparse W64) : Sparse W64 × Flags :=
  (List.range (mxM ty)).foldl (fun (vals, fl) i =>
    (List.range mxN).foldl (fun (vals, fl) j =>
      let v := (sgetD vals (64 * i + j) 0).toNat
      let (v1, f1) := c.chunk flush ty a b (offM o + i) (offN o + j) (offK o) v
      let (v2, f2) := c.chunk flush ty a b (offM o + i) (offN o + j) (offK o + chunkSize ty) v1
      (sput vals (64 * i + j) (BitVec.ofNat 64 v2) 0, fl ||| f1 ||| f2)) (vals, fl)) (vals, 0)

/-- Set sticky flags in a group. -/
def State.flagGroup (s : State) (gk : Nat) (f : Flags) : State := s.modGroup gk fun g => g.flag f
/-- LAUNCH.FLUSH of a group's kernel. -/
def State.flushOf (s : State) (gk : Nat) : Bool :=
  (((s.group? gk).bind fun g => s.kernel? g.kernel).map (·.flush)).getD false

/-- Clocks lost to a change of format class between consecutive MXMMA (R119). -/
def classPenalty (last : Option Nat) (k : Nat) : Nat :=
  match last with
  | some l => if l = k then 0 else if l = 0 ∨ k = 0 then 16 else 4
  | none => 0

/-- Execute a queued matrix operation. The occurrences behind A041h/02 to /04 are counted with it: a drain
makes a wait for a draining tile possible, the eighth slip entry one for a slip entry. -/
def State.mxRun (s : State) (cl gk no : Nat) (word pc : W64) : MxOp → State
  | .mma ty a b o start latch tile =>
    let c := s.cluster cl
    let t := s.tile cl tile
    let t := if start then { t with kind := accKind ty, vals := [], rowScale := none, colScale := none } else t
    let t := if latch then { t with
        rowScale := c.latchScales a.toNat (hRScale a.toNat) (offM o.toNat) (mxM ty)
        colScale := c.latchScales b.toNat (hCScale b.toNat) (offN o.toNat) mxN } else t
    let (vals, fl) := c.mma (s.flushOf gk) ty a.toNat b.toNat o.toNat t.vals
    let s := (s.setTile cl tile { t with vals := vals }).flagGroup gk fl
    let s := s.modCluster cl fun c => { c with lastClass := some (mxClass ty) }
    ((s.count 0xA041 1 1).count 0xA041 5 (classPenalty c.lastClass (mxClass ty))).releaseFreed gk no
  | .ldacc src o tile =>
    let c := s.cluster cl
    let h := src.toNat
    let kind : AccKind := if hFormat h = 0 then .fp64 else .fp32
    let vals := (List.range kind.rows).foldl (fun vals i =>
      (List.range 64).foldl (fun vals j =>
        sput vals (64 * i + j) (BitVec.ofNat 64 (c.elem h (offM o.toNat + i) (offN o.toNat + j))) 0) vals) []
    (s.setTile cl tile { s.tile cl tile with kind := kind, vals := vals, rowScale := none, colScale := none }).releaseFreed gk no
  | .drain dest o slot chain tile =>
    let s := (s.count 0xA041 3 1).count 0xA041 4 (if (s.cluster cl).slip.length ≥ 7 then 1 else 0)
    (s.setTile cl tile { s.tile cl tile with draining := true }).modCluster cl fun c =>
      { c with slip := c.slip ++ [{ group := gk % 64, no := no, tile := tile, dest := dest, off := o, slot := slot, chain := chain, word := word, pc := pc }] }

/-- An operation reads the scratchpad of its operands and, unless it starts one, its accumulator tile (R365). -/
def State.mxMeet (s : State) (cl : Nat) : MxOp → State × Option FaultInfo
  | .mma _ a b _ start _ tile =>
    match s.meetScratch cl 0 [(hBase a.toNat, hExtent a.toNat .a), (hBase b.toNat, hExtent b.toNat .b)] with
    | (s, some f) => (s, some f)
    | (s, none) => if start then (s, none) else s.meetEntries .accumulators cl 7 0 fun x => x = tile
  | .ldacc src _ _ => s.meetScratch cl 0 [(hBase src.toNat, hExtent src.toNat .plain)]
  | .drain .. => (s, none)

/-- MATRIX_ENGINE_START: the head of the queue starts once its waits are over: a draining tile it would
open, a full slip, a fence of its group (R119). -/
def execMatrixEngineStart (cl : Fin 512) (s : State) : Answer :=
  .next (State.settleEnds (match (s.cluster cl.val).mxq with
    | [] => s
    | e :: rest =>
      let gk := 64 * cl.val + e.group
      let busyTile := match e.op with
        | .mma _ _ _ _ start _ tile => start && (s.tile cl.val tile).draining
        | .ldacc _ _ tile => (s.tile cl.val tile).draining
        | .drain .. => decide ((s.cluster cl.val).slip.length ≥ 8)
      let writes := match e.op with
        | .drain .. => true
        | _ => false
      if busyTile || s.fenced gk e.no true writes then s
      else match (s.modCluster cl.val fun c => { c with mxq := rest }).mxMeet cl.val e.op with
        | (s, some f) => (s.engineFault gk e.pc e.word none f).1
        | (s, none) => s.mxRun cl.val gk e.no e.word e.pc e.op) cl.val)

end Sys2Proof.Machine
end

