-- ==== Sys2Proof/Machine/Mem.lean ====
section
/-! DEFINITION. MEM loads, stores and prefetch (R66, R155 to R163) and MEM atomics (R219 to R221). -/
namespace Sys2Proof.Machine

/-! ### Operands -/

/-- A MEM access: RI form, TYPE zero, SCOPE zero, HINT defined. -/
def memSig (w : Fields) (rd : Opnd) : Sig :=
  { legal := w.ty = 0 && w.ri && w.scope = 0 && w.hint ≠ 3, rd := rd, rs1 := if w.space then .r else .p }

/-- The virtual address of a lane's access: the pair RS1 plus IMM24, modulo 2^64 (R66). -/
def Group.memAddr (g : Group) (w : Fields) (l : Nat) : Nat := wrap 64 ((g.pair l w.rs1.toNat : Int) + w.imm)
/-- The scratchpad offset of a lane's access: register RS1 plus IMM24, modulo 2^32. -/
def Group.memOff (g : Group) (w : Fields) (l : Nat) : Nat := wrap 32 ((g.reg l w.rs1.toNat : Int) + w.imm)

/-- A lane fault: the value of the lowest faulting lane and the mask of the faulting lanes. -/
def laneFault (code : Nat) (at_ : Nat → Nat) (bad : List Nat) : Option FaultInfo :=
  match bad with
  | [] => none
  | l :: _ => some { code := code, arg0 := at_ l, arg1 := maskOf bad }

/-- MISALIGNED, then SCRATCH_RANGE (R66). -/
def spadCheck (g : Group) (w : Fields) (n size : Nat) : Option FaultInfo :=
  let off := g.memOff w
  (laneFault 0x10C off (g.lanes.filter fun l => off l % n ≠ 0)).orElse fun _ =>
    laneFault 0x10D off (g.lanes.filter fun l => off l + n > size)
def alignCheck (g : Group) (w : Fields) (n : Nat) : Option FaultInfo :=
  laneFault 0x10C (g.memAddr w) (g.lanes.filter fun l => g.memAddr w l % n ≠ 0)

/-- A lane's translated access: its memory type, and whether its request goes out translated. -/
structure LaneXl where
  acc : LaneAccess
  uncached : Bool
  translated : Bool

/-- Translate every active lane's address: the fault with the lowest code, taken from the lowest lane
(R78); a wait where some lane waits; else the accesses in lane order. -/
inductive LanesXl where
  | ok (l : List LaneXl)
  | fault (f : FaultInfo)
  | hold

def State.translateLanes (s : State) (gk : Nat) (g : Group) (kn : Kernel) (w : Fields) (acc : AccessKind) : State × LanesXl :=
  let step := fun (r : State × List LaneXl × Option (FaultInfo × Nat) × Bool) (l : Nat) =>
    let (s, xs, bad, wait) := r
    let va := g.memAddr w l
    match s.translate (gcluster gk) kn va acc (gk, none) with
    | (s, .ok pa pbmt t) =>
      (s, xs ++ [{ acc := { lane := l, va := BitVec.ofNat 64 va, pa := pa, loc := s.location pa }, uncached := pbmt ≠ 0, translated := t }], bad, wait)
    | (s, .fault f) => (s, xs, (match bad with
        | some b => if f.code < b.1.code ∨ (f.code = b.1.code ∧ va < b.2) then some (f, va) else some b
        | none => some (f, va)), wait)
    | (s, .wait) | (s, .busy) => (s, xs, bad, true)
  let (s, xs, bad, wait) := g.lanes.foldl step (s, [], none, false)
  match bad with
  | some (f, _) => (s, .fault f)
  | none => (s, if wait then .hold else .ok xs)

/-! ### Loads -/

/-- One line a load needs: its location (R17) and how it is asked for. -/
structure LineNeed where
  line : Nat
  uncached : Bool
  translated : Bool
  deriving DecidableEq

/-- The lines of a load, without repeats. -/
def lineNeeds (xs : List LaneXl) : List LineNeed :=
  xs.foldl (fun l x =>
    let n := lineOf x.acc.loc
    if l.any fun y => y.line = n then l
    else l ++ [{ line := n, uncached := x.uncached || isRegs n, translated := x.translated }]) []

/-- Look one line up in the L1 and the prefetch side buffer (R155, R163): a hit renews it, or moves it
into the L1. A line in error is dropped, so that it is fetched again (R365).
(DEDUCED, log 116.) -/
def State.l1Lookup (s : State) (cl : Nat) (n : LineNeed) : State × Option LineData :=
  if n.uncached then (s, none)
  else
    let (s, bad) := s.meetArrays .l1 cl 2 fun x => x = n.line
    let s := if bad.isEmpty then s else s.modCluster cl fun c =>
      { c with l1 := c.l1.filter fun x => x.line ≠ n.line, pf := c.pf.filter fun x => x.line ≠ n.line || x.data.isNone }
    let c := s.cluster cl
    match c.l1.find? (fun x => x.line = n.line) with
    | some x => (s.modCluster cl fun c => c.l1Insert x, some x.data)
    | none => match c.pf.find? (fun x => x.line = n.line && x.data.isSome) with
      | some x => (match x.data with
        | some d => (s.modCluster cl fun c => { c with pf := c.pf.filter fun y => y.line ≠ n.line }.l1Insert { line := n.line, data := d }, some d)
        | none => (s, none))
      | none => (s, none)

/-- Issue a load of `n` bytes through the L1. None when a write-buffer drain meets RETRY.
(DEDUCED, log 71.) -/
def State.startLoad (s : State) (gk : Nat) (g : Group) (w : Fields) (word : W64) (n : Nat) (signed : Bool) (xs : List LaneXl) :
    Option State :=
  let cl := gcluster gk
  let (s, got, miss) := (lineNeeds xs).foldl (fun (s, got, miss) x =>
    match s.l1Lookup cl x with
    | (s, some d) => (s, sset x.line d got, miss)
    | (s, none) => (s, got, miss ++ [x])) (s, ([] : Sparse LineData), ([] : List LineNeed))
  let fresh := miss.filter fun x => !(s.cluster cl).inFlight x.line
  let now := if (s.cluster cl).l1size = 0 then 16 - (s.cluster cl).flying else fresh.length
  let ask := fresh.map fun x => (x.line, x.uncached, x.translated)
  ((ask.take now).foldl (fun acc x => acc.bind fun s => s.askMiss cl w.hint (g.kernel, g.landing) x) (some s)).map fun s =>
    let b : LoadBlock := { word := word, rd := w.rd.toNat, bytes := n, signed := signed, lanes := xs.map (·.acc)
                           need := miss.map (·.line), got := got, later := ask.drop now }
    (if miss.isEmpty then s else s.count 0xA068 1 1).loadProgress gk g b

/-- The number of lines a load would ask for. -/
def State.newLines (s : State) (cl : Nat) (xs : List LaneXl) : Nat :=
  let c := s.cluster cl
  ((lineNeeds xs).filter fun x =>
    (x.uncached || !(c.l1.any (fun y => y.line = x.line) || c.pf.any fun y => y.line = x.line && y.data.isSome)) && !c.inFlight x.line).length

/-- A load of `n` bytes into one register, or a pair for 8 bytes (R66, R156 to R158). -/
def State.memLoad (s : State) (id : GroupId) (w : Fields) (op n : Nat) (signed : Bool) : State :=
  let word := w.word 6 op
  s.issue id 6 op w (memSig w (if n = 8 then .p else .r)) false (fun _ => none) (fun _ _ => none) fun s gk g kn =>
    let cl := gcluster gk
    if s.fenced gk g.issued true false then .hold s
    else if w.space then
      (match spadCheck g w n (s.cluster cl).spadSize with
       | some f => .fault s f
       | none => match s.meetScratch cl 0 (g.lanes.map fun l => (g.memOff w l, n)) with
         | (s, some f) => .fault s f
         | (s, none) =>
           let v := fun (l : Nat) =>
             let x := (s.cluster cl).spadRead (g.memOff w l) n
             if signed then wrap 32 (sext (8 * n) x) else x
           .done (s.setGroup gk (g.setActive w.rd.toNat (n = 8) v).next))
    else match alignCheck g w n with
      | some f => .fault s f
      | none => match s.translateLanes gk g kn w 0 with
        | (s, .fault f) => .fault s f
        | (s, .hold) => s.stallIn gk g word
        | (s, .ok xs) =>
          let k := s.newLines cl xs
          let c := s.cluster cl
          if k > 0 ∧ !c.missRoom k ∧ !(c.l1size = 0 && c.flying = 0) then .hold s
          else match s.startLoad gk g w word n signed xs with
            | some s => .done s
            | none => .hold s.retryMet

/-- MEM 01h to 06h. -/
def execMemLd8 (g : GroupId) (w : Fields) (s : State) : Answer := .next (s.memLoad g w 0x01 1 true)
def execMemLd8u (g : GroupId) (w : Fields) (s : State) : Answer := .next (s.memLoad g w 0x02 1 false)
def execMemLd16 (g : GroupId) (w : Fields) (s : State) : Answer := .next (s.memLoad g w 0x03 2 true)
def execMemLd16u (g : GroupId) (w : Fields) (s : State) : Answer := .next (s.memLoad g w 0x04 2 false)
def execMemLd32 (g : GroupId) (w : Fields) (s : State) : Answer := .next (s.memLoad g w 0x05 4 false)
def execMemLd64 (g : GroupId) (w : Fields) (s : State) : Answer := .next (s.memLoad g w 0x06 8 false)

/-! ### Stores -/

/-- The value a lane stores. -/
def Group.storeValue (g : Group) (w : Fields) (n l : Nat) : Nat := g.get l w.rd.toNat (n = 8) % 2 ^ (8 * n)

/-- Whether the buffer has an open or a free entry for every sector of a store (R160). -/
def Cluster.wbRoom (c : Cluster) (xs : List LaneXl) : Bool :=
  let secs := (xs.map fun x => x.acc.loc / 32).eraseDups.filter fun k => !c.wb.any fun e => e.sector = k
  decide (c.wb.length + secs.length ≤ 32)

/-- A store of `n` bytes (R159, R160): not ready while a fill of its line is in flight or the buffer has
no room. -/
def State.memStore (s : State) (id : GroupId) (w : Fields) (op n : Nat) : State :=
  s.issue id 6 op w (memSig w (if n = 8 then .p else .r)) false (fun _ => none) (fun _ _ => none) fun s gk g kn =>
    let cl := gcluster gk
    if s.fenced gk g.issued false true then .hold s
    else if w.space then
      (match spadCheck g w n (s.cluster cl).spadSize with
       | some f => .fault s f
       | none =>
         let s := g.lanes.foldl (fun s l => s.spadStore gk 2 (g.memOff w l) (toLE n (g.storeValue w n l))) s
         .done (s.modGroup gk fun g => g.next))
    else match alignCheck g w n with
      | some f => .fault s f
      | none => match s.translateLanes gk g kn w 1 with
        | (s, .fault f) => .fault s f
        | (s, .hold) => s.stallIn gk g (w.word 6 op)
        | (s, .ok xs) =>
          let c := s.cluster cl
          if xs.any (fun x => c.inFlight (lineOf x.acc.loc)) then .hold s
          else if !c.wbRoom xs then .hold (s.count 0xA068 2 1)
          else
            let c := xs.foldl (fun (c : Cluster) x =>
              let v := g.storeValue w n x.acc.lane
              (c.storeThrough x.acc.loc n v).wbPut x.acc.loc n v (gk, g.issued) w.hint x.uncached x.translated) c
            .done (((s.setCluster cl c).setGroup gk g.next).drainOver 64 cl)

/-- MEM 09h to 0Ch. -/
def execMemSt8 (g : GroupId) (w : Fields) (s : State) : Answer := .next (s.memStore g w 0x09 1)
def execMemSt16 (g : GroupId) (w : Fields) (s : State) : Answer := .next (s.memStore g w 0x0A 2)
def execMemSt32 (g : GroupId) (w : Fields) (s : State) : Answer := .next (s.memStore g w 0x0B 4)
def execMemSt64 (g : GroupId) (w : Fields) (s : State) : Answer := .next (s.memStore g w 0x0C 8)

/-! ### Prefetch (R163) -/

/-- MEM 10h: the lines of the active lanes, each once. A PF behind an acquire of its group that still waits
for earlier reads, or whose translation is on its way, is sent later; its group goes on (R208; log 145). -/
def execMemPf (id : GroupId) (w : Fields) (s : State) : Answer :=
  let sig := memSig w .zero
  .next (s.issue id 6 0x10 w { sig with legal := sig.legal && !w.space } false (fun _ => none) (fun _ _ => none) fun s gk g _ =>
    let vas := (g.lanes.map fun l => g.memAddr w l / 128 * 128).eraseDups
    let one := fun (va : Nat) => ({ group := gk, kernel := g.kernel, landing := g.landing, no := g.issued, hint := w.hint, va := va } : PfWait)
    .done ((vas.foldl (fun s va => s.tryPrefetch (gcluster gk) (one va)) s).modGroup gk fun g => g.next))

/-! ### Atomics: combining the lanes of one address (R221) -/

/-- The exact sum of adder-format operands rounded once, under FLUSH; one operand stays as it is.
(DEDUCED, log 117.) -/
def laneSum (f : Fmt) (flush : Bool) (vs : List Nat) : Nat × Flags :=
  match vs with
  | [v] => (v, 0)
  | _ =>
    let rs := vs.map (f.read flush)
    let (v, fl) := f.finish flush (sumNum (rs.map Prod.fst))
    (v, rs.foldl (fun a r => a ||| r.2) fl)

/-- Two operands combined by an operation other than ADD of floats, SWAP and CAS. -/
def lanePair (op fmt : Nat) (flush : Bool) (a b : Nat) : Nat × Flags :=
  match op, adderFmt fmt with
  | 1, some f => f.minMax flush false a b
  | 2, some f => f.minMax flush true a b
  | _, _ => ((adderStep op fmt a b 0).1, 0)

/-- Operands combined in ascending lane order: what the cluster sends, and the flags. -/
def laneCombine (op fmt : Nat) (flush : Bool) (vs : List Nat) : Nat × Flags :=
  match op, adderFmt fmt with
  | 0, some f => laneSum f flush vs
  | 6, _ => (vs.getLastD 0, 0)
  | _, _ => match vs with
    | [] => (0, 0)
    | v :: r => r.foldl (fun (a, fl) b => let (x, g) := lanePair op fmt flush a b; (x, fl ||| g)) (v, 0)

/-- What a fetching lane receives: the old value combined with the operands of the lower lanes. -/
def laneFetch (op fmt : Nat) (flush : Bool) (old : Nat) (lower : List Nat) : Nat × Flags :=
  if lower.isEmpty then (old, 0)
  else if op = 6 then (lower.getLastD 0, 0)
  else laneCombine op fmt flush (old :: lower)

/-- The lanes of one atomic: address group, lowest lane first. CAS lanes each stand alone. -/
def atomicBlocks (op : Nat) (xs : List LaneXl) : List AtomicBlock :=
  xs.foldl (fun l x =>
    let one : AtomicBlock := { lane := x.acc.lane, addr := x.acc.va.toNat, pa := x.acc.pa, loc := x.acc.loc, lanes := [x.acc.lane] }
    if op = 7 ∨ !l.any (fun b => b.loc = x.acc.loc) then l ++ [one]
    else l.map fun b => if b.loc = x.acc.loc then { b with lanes := b.lanes ++ [x.acc.lane] } else b) []

/-- The operation fields of a MEM atomic's word (R219). -/
structure AtomicOp where
  order : Nat
  fetch : Bool
  op : Nat
  fmt : Nat
  scope : Nat
  rd : Nat
def AtomicOp.ofWord (w : W64) : AtomicOp :=
  let x := w.toNat
  { order := field x 56 2, fetch := x.testBit 55, op := field x 52 3, fmt := field x 48 4, scope := field x 41 3, rd := field x 32 8 }
def AtomicOp.size (a : AtomicOp) : Nat := adderSize a.fmt
def AtomicOp.wide (a : AtomicOp) : Bool := a.size = 8
/-- A lane's operand, and the compare operand of CAS in the register or pair after it. -/
def AtomicOp.operand (a : AtomicOp) (g : Group) (l : Nat) : Nat := g.get l a.rd a.wide % 2 ^ (8 * a.size)
def AtomicOp.compare (a : AtomicOp) (g : Group) (l : Nat) : Nat := g.get l (a.rd + if a.wide then 2 else 1) a.wide % 2 ^ (8 * a.size)

/-- Write the results of an atomic whose operations have all been performed, perform its acquire and go
on. Each operation has dropped its line when it was performed (R162). -/
def State.finishAtomic (s : State) (gk : Nat) (g : Group) (word : W64) (bs : List AtomicBlock) : State :=
  let a := AtomicOp.ofWord word
  let flush := s.flushOf gk
  let g' := if !a.fetch then g else bs.foldl (fun x b =>
    (b.lanes.zipIdx).foldl (fun (x : Group) (l, i) =>
      let (v, fl) := laneFetch a.op a.fmt flush (b.result.getD 0) ((b.lanes.take i).map (a.operand g))
      (x.set l a.rd a.wide v).flag fl) x) g
  let g' := bs.foldl (fun (x : Group) b => x.flag (laneCombine a.op a.fmt flush (b.lanes.map (a.operand g))).2) g'
  let s := s.setGroup gk g'.next
  if a.order % 2 = 1 then s.acquire gk a.scope else s

/-- Take the result of one operation; the atomic ends with the last. -/
def State.atomicProgress (s : State) (gk : Nat) (g : Group) (word : W64) (bs : List AtomicBlock) : State :=
  if bs.all fun b => b.result.isSome then s.finishAtomic gk { g with wait := .ready } word bs
  else s.setGroup gk { g with wait := .atomics word bs }

/-- Send one operation of an atomic: performed at once in node memory, sent to its node through a
network window. None on RETRY; a fault where it is poisoned or answered with an error.
An operation that is performed invalidates its line in the cluster's L1 at once (R162).
(DEDUCED, log 106.) -/
def State.atomicSend (s : State) (gk : Nat) (g : Group) (a : AtomicOp) (flush : Bool) (b : AtomicBlock) :
    Option (State × Except FaultInfo AtomicBlock) :=
  let x := (laneCombine a.op a.fmt flush (b.lanes.map (a.operand g))).1
  let cmp := a.compare g b.lane
  let die := clusterDie (gcluster gk)
  let s := if b.lanes.length > 1 then (s.count 0xA072 1 1).count 0xA072 2 b.lanes.length else s
  match window b.pa with
  | .net off => if !s.windowReached die (window b.pa) then some (s, .error (poisonFault 4 2 b.pa b.addr)) else
    let data := toLE a.size x ++ (if a.op = 7 then toLE a.size cmp else [])
    some (s.windowAtomic die off a.op a.fmt a.fetch data (.atomic gk b.lane), .ok b)
  | _ => match s.keyAddr b.pa with
    | none => some (s, .error { code := 0x603, arg0 := b.addr })
    | some k => (s.adderAtomic (clusterHalf (gcluster gk)) k a.op a.fmt x cmp).map fun
      | (s, .old v) => (s.dropL1 (gcluster gk) (lineOf b.loc), .ok { b with result := some v })
      | (s, .poison) =>
        if a.fetch then
          (s, .error (poisonFault (if s.reachesLine die (lineOf k) then poisonSource b.pa else 4) 2 b.pa b.addr))
        else (s, .ok { b with result := some 0 })
      | (s, .error) => (s, .error { code := 0x603, arg0 := b.addr })

/-- The window code of ATOMIC_TARGET, for an address where no atomic is performed (R220, R224). -/
def atomicTarget (pa : Nat) : Option Nat :=
  match window pa with
  | .hbm _ _ | .aliasWindow _ | .tier2 _ _ | .net _ => none
  | .host _ _ => some 0
  | .companion _ => some 1
  | .regs _ => some 2
  | .reserved => some 3

/-- A MEM atomic (R219 to R221). A releasing one first waits for the group's earlier work and drains its
stores. -/
def State.memAtomic (s : State) (id : GroupId) (w : Fields) (order : BitVec 2) (fetch : Bool) (op : Nat) : State :=
  let code := 0x40 + 16 * order.toNat + 8 * b2n fetch + op
  let word := w.word 6 code
  let wd := adderSize w.ty = 8
  let o : Opnd := if wd then .p else .r
  let sig : Sig :=
    { legal := w.ri && w.ty < 8 && w.hint = 0 && !w.space && (if order = 0 then w.scope = 0 else w.scope ≤ 4)
      rd := o, rs1 := .p
      extra := if op = 7 then [(o, w.rd.toNat + if wd then 2 else 1)] else [] }
  s.issue id 6 code w sig false (fun _ => none) (fun _ _ => none) fun s gk g kn =>
    let cl := gcluster gk
    let a := AtomicOp.ofWord word
    match alignCheck g w a.size with
    | some f => .fault s f
    | none => match s.translateLanes gk g kn w 2 with
      | (s, .fault f) => .fault s f
      | (s, .hold) => s.stallIn gk g word
      | (s, .ok xs) =>
        match xs.find? (fun x => (atomicTarget x.acc.pa).isSome) with
        | some x => .fault s { code := 0x601, arg0 := x.acc.va.toNat, arg1 := (atomicTarget x.acc.pa).getD 3 }
        | none =>
          if !adderAllows op w.ty then .fault s { code := 0x602, arg0 := w.ty, arg1 := code }
          else
            let release := order.toNat ≥ 2
            match (if release then s.drainGroup gk else some s) with
            | none => .hold s.retryMet
            | some s =>
            if s.fenced gk g.issued true true || (release && s.releaseHeldBack gk g w.scope) then .hold s
            else
              let bs := atomicBlocks op xs
              let lines := (bs.map fun b => lineOf b.loc).eraseDups
              let s2 := lines.foldl (fun acc l => acc.bind fun s => s.drainLine cl l) (some s)
              let flush := s.flushOf gk
              let run := bs.foldl (fun acc b => acc.bind fun (s, done, bad) =>
                (s.atomicSend gk g a flush b).map fun
                  | (s, .ok b) => (s, done ++ [b], bad)
                  | (s, .error f) => (s, done, (match bad with
                      | some e => if f.code < FaultInfo.code e then some f else some e
                      | none => some f))) (s2.map fun s => (s.setGroup gk { g with wait := .atomics word bs }, ([] : List AtomicBlock), (none : Option FaultInfo)))
              match run with
              | none => .hold s.retryMet
              | some (s, _, some f) => .fault s f
              | some (s, done, none) => match s.group? gk with
                | none => .done s
                | some g' => if g'.halted then .done s else .done (s.atomicProgress gk g word done)

/-- MEM 40h to 7Fh: ADD, MIN, MAX, AND, OR, XOR, SWAP, CAS. -/
def execAtomAdd (g : GroupId) (w : Fields) (order : BitVec 2) (fetch : Bool) (s : State) : Answer := .next (s.memAtomic g w order fetch 0)
def execAtomMin (g : GroupId) (w : Fields) (order : BitVec 2) (fetch : Bool) (s : State) : Answer := .next (s.memAtomic g w order fetch 1)
def execAtomMax (g : GroupId) (w : Fields) (order : BitVec 2) (fetch : Bool) (s : State) : Answer := .next (s.memAtomic g w order fetch 2)
def execAtomAnd (g : GroupId) (w : Fields) (order : BitVec 2) (fetch : Bool) (s : State) : Answer := .next (s.memAtomic g w order fetch 3)
def execAtomOr (g : GroupId) (w : Fields) (order : BitVec 2) (fetch : Bool) (s : State) : Answer := .next (s.memAtomic g w order fetch 4)
def execAtomXor (g : GroupId) (w : Fields) (order : BitVec 2) (fetch : Bool) (s : State) : Answer := .next (s.memAtomic g w order fetch 5)
def execAtomSwap (g : GroupId) (w : Fields) (order : BitVec 2) (fetch : Bool) (s : State) : Answer := .next (s.memAtomic g w order fetch 6)
def execAtomCas (g : GroupId) (w : Fields) (order : BitVec 2) (fetch : Bool) (s : State) : Answer := .next (s.memAtomic g w order fetch 7)

end Sys2Proof.Machine
end

