-- ==== Sys2Proof/Machine/Ferries.lean ====
section
/-! DEFINITION. EXIT (R74) and the ferry instructions (R32 to R43, R312, R313, R458, R459). -/
namespace Sys2Proof.Machine

/-- CTL 07h: every other field is zero. A queue whose last producer leaves closes (R37). -/
def execCtlExit (g : GroupId) (w : Fields) (s : State) : Answer :=
  .next ((s.issueGroup g 7 0x07 w (ctlSig w false .zero .zero false) fun _ _ gr _ => .ok gr.exit.next).settleEnds g.cluster.val)

/-! ### Shared checks -/

/-- FY operands (R458): RRR, TYPE and MOD zero, the ferry in AUX. -/
def fySig (w : Fields) (rd rs1 : Opnd) : Sig := { legal := !w.ri && w.ty = 0 && w.mod = 0, rd := rd, rs1 := rs1 }

/-- LONG_FERRY for an instruction on a long ferry's end (R78, R399). -/
def fyFeature (w : Fields) (kn : Kernel) : Option Nat :=
  match kn.man.ferries[w.aux]? with
  | some f => if f.isLong && !kn.feature 1 then some 1 else none
  | none => none

/-- The ferry an instruction names, in the role asked for (R34, R38). -/
def Kernel.ferryFor (kn : Kernel) (i landing : Nat) (producer : Bool) : Option Ferry :=
  (kn.man.ferries[i]?).bind fun f => if (if producer then f.producer else f.consumer) = landing then some f else none

/-- The scope of a queue: the smallest that holds its producers' and its consumer's cluster (R35). -/
def scopeOf (a b : Nat) : Nat := if a = b then 1 else if clusterDie a = clusterDie b then 2 else 3
def Kernel.queueScope (kn : Kernel) (f : Ferry) (q : Nat) : Nat :=
  if f.isLong then 4
  else
    let cl := kn.queueCluster f q
    ((kn.landingClusters f.producer).zipIdx).foldl (fun m (c, lc) =>
      if (kn.producerQueues f lc).contains q then Nat.max m (scopeOf c cl) else m) 1

/-- The position of a producer cluster within its merge set (R33); zero on the other ferries.
(DEDUCED, log 103.) -/
def Kernel.srcOf (kn : Kernel) (f : Ferry) (lc : Nat) : Nat := if f.pattern = 1 ∧ ¬ f.isLong then lc % kn.mergeWays f else 0

/-- Whether every consumer group of a queue has exited (R38). -/
def State.consumersGone (s : State) (k : Nat) (kn : Kernel) (f : Ferry) (q : Nat) : Bool :=
  ((s.kernelGroups k).filter fun (gk, g) => g.landing = f.consumer && gcluster gk = kn.queueCluster f q).all fun (gk, _) => s.groupExited gk

/-- REMOTE_INCOMPLETE of a long ferry's end: ARG0 is the TAG (R302). -/
def Kernel.ferryLost (kn : Kernel) (f : Ferry) : FaultInfo :=
  { code := 0x606, arg0 := f.tag, arg1 := kn.man.netgroups.getD f.netgroup 0 }

/-! ### FYRESV -/

/-- The slot positions free in every queue a producer feeds. -/
def Kernel.freePositions (kn : Kernel) (fi : Nat) (f : Ferry) (qs : List Nat) : List Nat :=
  (List.range f.capacity).filter fun i => qs.all fun q => (kn.fq fi q).slots[i]? = some .free

/-- One of several free positions; which one is a free value (DESIGN CHOICE, log 41). -/
def State.chooseFree (s : State) (l : List Nat) : State × Option Nat :=
  match l with
  | [] => (s, none)
  | [i] => (s, some i)
  | l => (s.useFree, l[s.freeNat % l.length]?)

/-- FY 01h: a free slot becomes reserved to the group and its handle goes to RD of every lane. -/
def execFyResv (id : GroupId) (w : Fields) (s : State) : Answer :=
  .next (s.issue id 0xB 0x01 w (fySig w .p .zero) true (fyFeature w) (fun _ _ => none) fun s gk g kn =>
    let fi := w.aux
    match kn.ferryFor fi g.landing true with
    | none => .fault s { code := 0x201, arg0 := fi }
    | some f =>
      let qs := kn.producerQueues f g.lcluster
      let free := kn.freePositions fi f qs
      if qs.any fun q => g.closed.contains (ferryKey fi q) then .fault s { code := 0x204, arg0 := fi }
      else if qs.any fun q => (kn.fq fi q).gone || (!f.isOut && s.consumersGone g.kernel kn f q) then .fault s { code := 0x205, arg0 := fi }
      else if (qs.any fun q => decide (((kn.fq fi q).slots.filter fun x => x = .free).length ≤ f.cycleCredit))
          || (f.isOut && qs.any fun q => (kn.fq fi q).credits.getD 0 = 0) then s.stallIn gk g (w.word 0xB 0x01)
      else match s.chooseFree free with
        | (s, none) => s.stallIn gk g (w.word 0xB 0x01)
        | (s, some i) =>
          let s := qs.foldl (fun s q => s.modKernel g.kernel fun kn =>
            let x := kn.fq fi q
            kn.setFq fi q { x with slots := x.slots.set i (.reserved gk), credits := if f.isOut then x.credits.map (· - 1) else x.credits }) s
          let h := kn.slotUnit fi f i + 2 ^ 54 * kn.srcOf f g.lcluster
          .done (s.setGroup gk (g.setAll w.rd.toNat true h).next))

/-! ### FYPUSH -/

/-- Send a tile of an OUT end: TILE packets of at most 4,096 bytes, the last with LAST (R313).
(DEDUCED, log 105.) -/
def State.sendTile (s : State) (gk no k : Nat) (kn : Kernel) (fi : Nat) (f : Ferry) (q i h : Nat) : State :=
  let n := hExtent h .whole
  let data := (s.cluster (gcluster gk)).spadBytes (hBase h) n
  let x := kn.fq fi q
  let frags := (n + 4095) / 4096
  let packets := (List.range frags).map fun j =>
    let b := slice data (4096 * j) 4096
    (8, if j + 1 = frags then 0x40 else 0, f.tag, 2 ^ 11 * (h / 2 ^ 11), b.length, 0,
      q <<< 55 ||| (x.tiles % 65536) <<< 32 ||| (16 * j) <<< 16, b)
  let s := s.modKernel k fun kn => kn.setFq fi q { kn.fq fi q with tiles := x.tiles + 1, slots := x.slots.set i .free }
  s.startOp (s.ferryFlow kn f q (f.tag % 2 ^ 17)) (.tile k (ferryKey fi q) i (gk, no)) false packets

/-- FY 02h: once the group's earlier accesses are performed, the tile is committed to the tail of each
queue, or handed to the hub, with a release (R34, R35; DEDUCED, log 19). SRC of the committed handle is the
node's (R31).
(DEDUCED, log 102.)
(DEDUCED, log 104.) -/
def execFyPush (id : GroupId) (w : Fields) (s : State) : Answer :=
  .next (s.issue id 0xB 0x02 w (fySig w .zero .p) true (fyFeature w) (fun _ _ => none) fun s gk g kn =>
    let fi := w.aux
    let h := g.pair g.lead w.rs1.toNat
    match kn.ferryFor fi g.landing true with
    | none => .fault s { code := 0x201, arg0 := fi, arg1 := h }
    | some f =>
      let qs := kn.producerQueues f g.lcluster
      let pos := if hTop h ≠ 0 then none else kn.slotIndex fi f h
      let held := match pos with
        | some i => qs.all fun q => (kn.fq fi q).slots[i]? = some (.reserved gk)
        | none => false
      if !held then .fault s { code := 0x202, arg0 := fi, arg1 := h }
      else if hFormat h ≥ 13 ∨ hExtent h .whole > 256 * f.tileSize then .fault s { code := 0x203, arg0 := fi, arg1 := h }
      else if qs.any fun q => g.closed.contains (ferryKey fi q) then .fault s { code := 0x204, arg0 := fi }
      else
        let i := pos.getD 0
        match s.drainGroup gk with
        | none => .hold s
        | some s =>
          if s.releaseHeldBack gk g (if f.isOut then 4 else 1) then .hold s
          else
            let h := setField h 54 6 (kn.srcOf f g.lcluster)
            let s := if f.isOut then qs.foldl (fun s q => s.sendTile gk g.issued g.kernel kn fi f q i h) s
              else qs.foldl (fun s q => s.modKernel g.kernel fun kn =>
                let x := kn.fq fi q
                kn.setFq fi q { x with slots := x.slots.set i .committed, fifo := x.fifo ++ [BitVec.ofNat 64 h] }) s
            .done (s.modGroup gk fun g => g.next))

/-! ### FYPOP -/

/-- Whether a queue is closed (R37): every producer done, or END's count committed. -/
def State.queueClosed (s : State) (k : Nat) (kn : Kernel) (fi : Nat) (f : Ferry) (q : Nat) : Bool :=
  let x := kn.fq fi q
  if f.isIn then x.endCount = some (x.tiles % 65536) else s.producersDone k kn fi f q

/-- FY 03h: the oldest committed handle, END on a closed and empty queue, else the group stalls. It acquires
at the queue's scope. -/
def execFyPop (id : GroupId) (w : Fields) (s : State) : Answer :=
  .next (s.issue id 0xB 0x03 w (fySig w .p .zero) true (fyFeature w) (fun _ _ => none) fun s gk g kn =>
    let fi := w.aux
    match kn.ferryFor fi g.landing false with
    | none => .fault s { code := 0x201, arg0 := fi }
    | some f =>
      let q := g.lcluster
      let x := kn.fq fi q
      let take := fun (s : State) (h : Nat) => ((s.setGroup gk (g.setAll w.rd.toNat true h).next).acquire gk (kn.queueScope f q))
      if x.gone then .fault s (kn.ferryLost f)
      else match x.fifo with
        | h :: r =>
          let i := (kn.slotIndex fi f h.toNat).getD 0
          .done (take (s.modKernel g.kernel fun kn => kn.setFq fi q { x with fifo := r, slots := x.slots.set i (.held gk) }) h.toNat)
        | [] => if s.queueClosed g.kernel kn fi f q then .done (take s hEnd) else s.stallIn gk g (w.word 0xB 0x03))

/-- IN_END_TIMEOUT: an IN end that is not registered, or that no OUT end has joined, fails the FYPOPs
stalled on it (R42, R312). -/
def execInEndTimeout (k : Nat) (ferry : Fin 64) (s : State) : Answer :=
  .next (match s.kernel? k with
    | none => s
    | some kn => match kn.man.ferries[ferry.val]? with
      | none => s
      | some f =>
        if !f.isIn then s
        else (s.kernelGroups k).foldl (fun s (gk, g) =>
          match g.wait with
          | .stall word =>
            let x := kn.fq ferry.val g.lcluster
            if field word.toNat 60 4 = 0xB ∧ field word.toNat 52 8 = 3 ∧ field word.toNat 0 8 = ferry.val ∧ g.landing = f.consumer ∧ !x.matched
            then s.takeFault gk g word (kn.ferryLost f) else s
          | _ => s) s)

/-! ### FYFREE, FYCLOSE -/

/-- The last matrix instruction of a group still in the queue that reads a slot (R122). -/
def State.mxReader (s : State) (gk unit : Nat) : Option Nat :=
  ((s.cluster (gcluster gk)).mxq.filter fun e => e.group = gk % 64 && (match e.op with
    | .mma _ a b _ _ _ _ => hSlot a.toNat = unit || hSlot b.toNat = unit
    | .ldacc a _ _ => hSlot a.toNat = unit
    | .drain .. => false)).getLast?.map (·.no)

/-- FY 04h: the slot joins the free set, or waits for a matrix instruction that still reads it (R122). -/
def execFyFree (id : GroupId) (w : Fields) (s : State) : Answer :=
  .next (s.issue id 0xB 0x04 w (fySig w .zero .p) true (fyFeature w) (fun _ _ => none) fun s gk g kn =>
    let fi := w.aux
    let h := g.pair g.lead w.rs1.toNat
    match kn.ferryFor fi g.landing false with
    | none => .fault s { code := 0x201, arg0 := fi, arg1 := h }
    | some f =>
      let q := g.lcluster
      let x := kn.fq fi q
      match (if hTop h ≠ 0 then none else kn.slotIndex fi f h) with
      | none => .fault s { code := 0x202, arg0 := fi, arg1 := h }
      | some i =>
        if x.slots[i]? ≠ some (.held gk) then .fault s { code := 0x202, arg0 := fi, arg1 := h }
        else
          let s := match s.mxReader gk (hSlot h) with
            | some no => s.modKernel g.kernel fun kn => kn.setFq fi q { x with slots := x.slots.set i (.freeing gk no) }
            | none => s.freeSlot g.kernel fi q i (gk, g.issued)
          .done (s.modGroup gk fun g => g.next))

/-- FY 05h: the group's stream on each of its queues has ended; an OUT queue whose producers are all done
sends END. -/
def execFyClose (id : GroupId) (w : Fields) (s : State) : Answer :=
  .next (s.issue id 0xB 0x05 w (fySig w .zero .zero) true (fyFeature w) (fun _ _ => none) fun s gk g kn =>
    let fi := w.aux
    match kn.ferryFor fi g.landing true with
    | none => .fault s { code := 0x201, arg0 := fi }
    | some f =>
      let qs := kn.producerQueues f g.lcluster
      let s := qs.foldl (fun s q => s.modKernel g.kernel fun kn =>
        let x := kn.fq fi q
        kn.setFq fi q { x with closedBy := if x.closedBy.contains gk then x.closedBy else x.closedBy ++ [gk] }) s
      .done ((s.setGroup gk { g.next with closed := (g.closed ++ qs.map (ferryKey fi)).eraseDups }).settleEnds (gcluster gk)))

end Sys2Proof.Machine
end

