-- ==== Sys2Proof/Machine/Manifest.lean ====
section
/-! DEFINITION. Kernel images and manifests: their layout (R25, R45, R47) and the checks of R50 up to the
placement, each on its own, in the order of its table (R28, R30, R33, R41, R43, R46, R49, R170, R171,
R211, R310, R348). -/
namespace Sys2Proof.Machine

/-! ### Layout -/

/-- The launch descriptor (R47): the payload of a LAUNCH record. -/
structure Descriptor where
  image : Nat
  args : Nat
  completion : Nat
  place : Nat
  l1 : Nat
  flush : Bool
  freq : Nat
  kernelId : Nat
  /-- some Reserved bit is not zero -/
  reserved : Bool
  deriving DecidableEq, Repr

def descriptorOf (r : Nat) : Descriptor :=
  { image := field r 0 64, args := field r 64 64, completion := field r 128 64, place := field r 192 16, l1 := field r 208 3
    flush := r.testBit 212, freq := field r 213 2, kernelId := field r 224 32
    reserved := r.testBit 211 || decide (field r 215 9 ≠ 0) }

/-- The image header from its 64 bytes (R25). -/
def headerOf (b : Bytes) : ImageHeader :=
  { magic := le b 0 4, version := le b 4 2, hdrsize := le b 6 2, imgsize := le b 8 4, crc := le b 12 4
    codeOff := le b 16 4, codeSize := le b 20 4, constOff := le b 24 4, constSize := le b 28 4
    manOff := le b 32 4, manSize := le b 36 4 }

/-- Magic, version, header size and image size. -/
def ImageHeader.startOk (h : ImageHeader) : Bool :=
  h.magic = 0x474D494B && h.version = 1 && h.hdrsize = 0x40 && decide (64 ≤ h.imgsize) && decide (h.imgsize ≤ 0x10000000)
/-- The sections lie inside the image, on their boundaries; an absent constants section is not checked. -/
def ImageHeader.sectionsOk (h : ImageHeader) : Bool :=
  decide (h.codeOff + h.codeSize ≤ h.imgsize) && h.codeOff % 256 = 0
    && decide (h.manOff + h.manSize ≤ h.imgsize) && h.manOff % 8 = 0
    && (h.constSize = 0 || decide (h.constOff + h.constSize ≤ h.imgsize))
/-- The whole check of an image's bytes: IMAGE_INVALID where false. -/
def imageOk (b : Bytes) : Bool :=
  let h := headerOf b
  h.startOk && decide (h.imgsize ≤ b.length) && crc32c (slice b 16 (h.imgsize - 16)) = h.crc && h.sectionsOk

/-- The six counts of a manifest header, in the order of its record arrays, and each record's size. -/
def manifestCounts (m : Bytes) : List (Nat × Nat) :=
  let w := fromLE (slice m 0 16)
  [(field w 16 8, 32), (field w 24 8, 32), (field w 32 16, 16), (field w 48 8, 8), (field w 56 8, 8), (field w 64 8, 8)]
/-- The offset of a record array. -/
def arrayOff (m : Bytes) (i : Nat) : Nat := 64 + (((manifestCounts m).take i).map fun e => e.1 * e.2).sum
/-- The records of an array, as numbers. -/
def recordsOf (m : Bytes) (i : Nat) : List Nat :=
  match (manifestCounts m)[i]? with
  | some (n, w) => (List.range n).map fun j => fromLE (slice m (arrayOff m i + j * w) w)
  | none => []

/-- DEDUCED, log 94. -/
def landingOf (x : Nat) : Landing :=
  { clusters := field x 0 16, colocate := field x 16 8, groups := field x 24 8, regs := field x 32 8, vregs := field x 40 8
    accum := field x 48 8, phase0 := field x 56 8, entry := field x 64 32 }
def ferryOf (x : Nat) : Ferry :=
  { producer := field x 0 8, consumer := field x 8 8, capacity := field x 16 8, pattern := field x 24 2, tileSize := field x 32 16
    cycleCredit := field x 48 8, netgroup := field x 56 8, tag := field x 64 32 }
def berthOf (x : Nat) : Berth := { size := field x 0 16, landing := field x 16 8, zero := x.testBit 24 }
def mooringOf (x : Nat) : Mooring := { landing := field x 0 8, ways := field x 8 8 }

/-- A manifest (R45). -/
def manifestOf (m : Bytes) : Manifest :=
  let w := fromLE (slice m 0 64)
  { version := field w 0 16, l1size := field w 72 2, tallies := field w 80 16, features := field w 128 128
    landings := (recordsOf m 0).map landingOf, ferries := (recordsOf m 1).map ferryOf, berths := (recordsOf m 2).map berthOf
    moorings := (recordsOf m 3).map mooringOf, netgroups := (recordsOf m 4).map fun x => field x 0 12
    phases := (recordsOf m 5).map fun x => field x 0 8 }

/-- Whether every Reserved bit of header, manifest and records is zero (R7). -/
def reservedZero (img man : Bytes) : Bool :=
  let w := fromLE (slice man 0 64)
  fromLE (slice img 40 24) = 0 && field w 74 6 = 0 && field w 96 32 = 0 && field w 256 256 = 0
    && (recordsOf man 0).all (fun x => x >>> 96 = 0)
    && (recordsOf man 1).all (fun x => x >>> 96 = 0 && field x 26 6 = 0)
    && (recordsOf man 2).all (fun x => x >>> 25 = 0)
    && (recordsOf man 3).all (fun x => x >>> 16 = 0)
    && (recordsOf man 4).all (fun x => x >>> 12 = 0)
    && (recordsOf man 5).all (fun x => x >>> 8 = 0)

/-! ### MANIFEST_MALFORMED -/

/-- Whether a value lies in a range. -/
def within (lo hi x : Nat) : Bool := decide (lo ≤ x) && decide (x ≤ hi)

/-- One landing record: its ranges, its entry inside the code, its COLOCATE an earlier stand-alone landing
of as many clusters (R28). -/
def landingOk (ls : List Landing) (codeSize i : Nat) (l : Landing) : Bool :=
  within 1 512 l.clusters && within 1 64 l.groups && within 8 256 l.regs && l.regs % 8 = 0 && within 1 32 l.vregs
    && within 0 16 l.accum && l.entry % 256 = 0 && decide (l.entry < codeSize)
    && (l.colocate = 0xFF || (decide (l.colocate < i) && (match ls[l.colocate]? with
        | some x => x.colocate = 0xFF && x.clusters = l.clusters
        | none => false)))

/-- The cluster counts of a pattern (R33). -/
def patternOk (pattern p c : Nat) : Bool :=
  match pattern with
  | 0 => p = c
  | 1 => decide (0 < c) && p % c = 0 && within 2 64 (p / c)
  | 2 => p = 1
  | _ => false

/-- One ferry record (R33, R41, R43, R45). -/
def ferryOk (ls : List Landing) (groups : Nat) (f : Ferry) : Bool :=
  within 2 64 f.capacity && within 1 256 f.tileSize && decide (f.cycleCredit < f.capacity) && f.pattern ≠ 3
    && (f.isIn || decide (f.producer < ls.length)) && (f.isOut || decide (f.consumer < ls.length))
    && (if f.isLong then !(f.isIn && f.isOut) && f.pattern = 0 && decide (f.netgroup < groups)
        else f.netgroup = 0xFF && f.tag = 0
          && (match ls[f.producer]?, ls[f.consumer]? with
              | some p, some c => patternOk f.pattern p.clusters c.clusters
              | _, _ => false))

/-- Everything R50 names under MANIFEST_MALFORMED. -/
def manifestOk (d : Descriptor) (h : ImageHeader) (man : Bytes) (m : Manifest) : Bool :=
  m.version = 1 && within 1 16 m.landings.length && within 0 64 m.ferries.length && within 0 256 m.berths.length
    && within 0 16 m.moorings.length && within 0 16 m.netgroups.length && within 1 8 m.phases.length
    && within 0 16384 m.tallies && h.manSize = arrayOff man 6
    && (d.l1 = 0 || decide (4 ≤ d.l1)) && !within 512 0xFFFE d.place
    && (m.landings.zipIdx).all (fun (l, i) => landingOk m.landings h.codeSize i l)
    && m.ferries.all (fun f => ferryOk m.landings m.netgroups.length f)
    && m.berths.all (fun b => within 1 2048 b.size && decide (b.landing < m.landings.length))
    && m.moorings.all fun x => within 1 12 x.ways && decide (x.landing < m.landings.length)

/-! ### FERRY_CYCLE (R43, R44) -/

/-- Landings with no ferry without cycle credit coming from a landing still in question are settled. -/
def settleLandings (es : List (Nat × Nat)) (left : List Nat) : List Nat :=
  left.filter fun l => es.any fun e => e.2 = l && left.contains e.1
/-- Whether the ferries without cycle credit form a cycle. -/
def ferryCycle (m : Manifest) : Bool :=
  let es := (m.ferries.filter fun f => f.cycleCredit = 0 && !f.isLong).map fun f => (f.producer, f.consumer)
  let left := (List.range m.landings.length).foldl (fun l _ => settleLandings es l) (List.range m.landings.length)
  !left.isEmpty

/-! ### Demands of one cluster (R30, R46, R109, R129, R153) -/

/-- The stand-alone landing whose clusters a landing runs on. -/
def Manifest.base (m : Manifest) (i : Nat) : Nat :=
  match m.landings[i]? with
  | some l => if l.colocate = 0xFF then i else l.colocate
  | none => i
/-- The stand-alone landings. -/
def Manifest.bases (m : Manifest) : List Nat := (List.range m.landings.length).filter fun i => m.base i = i
/-- The landings on the clusters of a stand-alone one, itself first. -/
def Manifest.members (m : Manifest) (b : Nat) : List Nat := (List.range m.landings.length).filter fun i => m.base i = b
def Manifest.landing (m : Manifest) (i : Nat) : Landing :=
  m.landings.getD i { clusters := 0, colocate := 0, groups := 0, regs := 0, vregs := 0, accum := 0, phase0 := 0, entry := 0 }

/-- A group placed on a cluster: landing, index within it, scheduler, slot. -/
structure Placed where
  landing : Nat
  index : Nat
  sched : Nat
  slot : Nat
  deriving DecidableEq, Repr

/-- The scheduler with the fewest groups, the lowest on a tie (R30). -/
def emptiest (p : List Placed) : Nat :=
  let n := fun (i : Nat) => (p.filter fun x => x.sched = i).length
  [1, 2, 3].foldl (fun m i => if n i < n m then i else m) 0

/-- The groups of the landings on one cluster in the order of R30, with slots in that order (R56). -/
def Manifest.assign (m : Manifest) (b : Nat) : List Placed :=
  let all := (m.members b).flatMap fun i => (List.range (m.landing i).groups).map fun j => (i, j)
  all.foldl (fun (p : List Placed) (x : Nat × Nat) =>
    let sc := emptiest p
    p ++ [{ landing := x.1, index := x.2, sched := sc, slot := (p.filter fun y => y.sched = sc).length }]) []

def Manifest.maxGroups (m : Manifest) (b : Nat) : Nat :=
  (List.range 4).foldl (fun n i => Nat.max n ((m.assign b).filter fun x => x.sched = i).length) 0
def Manifest.maxRegs (m : Manifest) (b : Nat) : Nat :=
  (List.range 4).foldl (fun n i => Nat.max n ((((m.assign b).filter fun x => x.sched = i).map fun x => (m.landing x.landing).regs).sum)) 0
def Manifest.vregsOn (m : Manifest) (b : Nat) : Nat := ((m.members b).map fun i => (m.landing i).vregs * (m.landing i).groups).sum
def Manifest.accumOn (m : Manifest) (b : Nat) : Nat := ((m.members b).map fun i => (m.landing i).accum).sum

/-- A piece of scratchpad a cluster of a stand-alone landing holds: a berth or a ferry's slots, and its
size in 256-byte units. -/
inductive Piece where
  | berth (i units : Nat)
  | ferry (i units : Nat)
  deriving DecidableEq, Repr
def Piece.units : Piece → Nat
  | .berth _ n | .ferry _ n => n

/-- The pieces on the clusters of a stand-alone landing: its berths, and the queues of the ferries that
end there, OUT ends where they begin (R33, R42, R46). -/
def Manifest.pieces (m : Manifest) (b : Nat) : List Piece :=
  ((m.berths.zipIdx).filterMap fun (x, i) => if m.base x.landing = b then some (Piece.berth i x.size) else none)
    ++ (m.ferries.zipIdx).filterMap fun (f, i) =>
      let at_ := if f.isOut then f.producer else f.consumer
      if m.base at_ = b then some (Piece.ferry i (f.capacity * f.tileSize)) else none
/-- Scratchpad demand in 256-byte units. -/
def Manifest.scratchOn (m : Manifest) (b : Nat) : Nat := ((m.pieces b).map Piece.units).sum

/-- The L1 size in force in bytes (R153). -/
def l1Bytes (d : Descriptor) (m : Manifest) : Nat :=
  match (if d.l1 = 0 then m.l1size else d.l1 - 4) with
  | 0 => 0
  | 1 => 65536
  | 2 => 131072
  | _ => 262144

/-- The reason among 06h to 0Ah, in their order. -/
def demandReason (m : Manifest) (l1 : Nat) : Option Nat :=
  if m.bases.any fun b => decide (m.maxGroups b > 16) then some 0x06
  else if m.bases.any fun b => decide (m.maxRegs b > 1024) then some 0x07
  else if m.bases.any fun b => decide (m.vregsOn b > 512) then some 0x08
  else if m.bases.any fun b => decide (m.accumOn b > 16) then some 0x09
  else if m.bases.any fun b => decide (256 * m.scratchOn b > 524288 - l1) then some 0x0A
  else none

/-- PHASE_INVALID: an OPPOINT above 9, or a PHASE0 beyond the phases (R343). -/
def phasesOk (m : Manifest) : Bool :=
  m.phases.all (fun p => decide (p ≤ 9)) && m.landings.all fun l => decide (l.phase0 < m.phases.length)

/-! ### Placement (R49, R348) -/

/-- The fixed point a launch asks for: FREQMODE, or the partition's setting (R348). -/
def State.launchPoint (s : State) (p : Nat) (d : Descriptor) : Option Nat :=
  match (if d.freq = 0 then setting s 0x3020 (p + 1) else d.freq) with
  | 1 => some 5
  | 2 => some 6
  | 3 => some 7
  | _ => none

/-- Clusters of each partition, the first one and the clusters. -/
def State.partSize (s : State) : Nat := 512 / s.parts
def State.firstCluster (s : State) (p : Nat) : Nat := p * s.partSize

/-- Whether a half runs a kernel whose mode differs from the one asked for. -/
def State.modeClash (s : State) (h : Nat) (point : Option Nat) : Bool :=
  s.kernels.any fun e => e.2.fixedPoint ≠ point && e.2.allClusters.any fun c => clusterHalf c = h

/-- Whether a cluster is free for a launch: no kernel holds it, its die is up, no reset of it is going on
and its half's mode agrees (R29, R348).
(DEDUCED, log 99.) -/
def State.clusterFree (s : State) (point : Option Nat) (c : Nat) : Bool :=
  (s.cluster c).kernel.isNone && !(s.flushes.any fun b => match b with | .cluster x => decide (x.val = c) | _ => false) && (s.die (clusterDie c) = 1 || s.die (clusterDie c) = 2)
    && !s.modeClash (clusterHalf c) point

/-- Place the stand-alone landings in order: for each its clusters, or none where one cannot be placed. -/
def State.place (s : State) (p : Nat) (point : Option Nat) (place : Nat) (m : Manifest) : Option (List (Nat × List Nat)) :=
  let lo := s.firstCluster p
  let all := (List.range s.partSize).map fun i => lo + i
  m.bases.foldl (fun acc b => acc.bind fun (l : List (Nat × List Nat)) =>
    let taken := (l.map Prod.snd).flatten
    let free := fun (c : Nat) => s.clusterFree point c && !taken.contains c
    let n := (m.landing b).clusters
    if b = 0 ∧ place ≠ 0xFFFF then
      let run := (List.range n).map fun i => place + i
      if decide (lo ≤ place) && decide (place + n ≤ lo + s.partSize) && run.all free then some (l ++ [(b, run)]) else none
    else
      let run := (all.filter free).take n
      if run.length = n then some (l ++ [(b, run)]) else none) (some [])

/-- The clusters of every landing, from those of the stand-alone ones (R28). -/
def Manifest.clustersOf (m : Manifest) (l : List (Nat × List Nat)) : List (List Nat) :=
  (List.range m.landings.length).map fun i => ((l.find? fun e => e.1 = m.base i).map Prod.snd).getD []

/-- The bases at which a die has a free run of tallies (R211). -/
def TallySet.freeBases (t : TallySet) (n : Nat) : List Nat :=
  (List.range (16384 - n + 1)).filter fun b => t.runs.all fun r => decide (b + n ≤ r.1) || decide (r.1 + r.2.1 ≤ b)

/-- Ways a manifest moors in a half: the sum over its records whose landing has a cluster there (R170). -/
def Manifest.mooredIn (m : Manifest) (cs : List (List Nat)) (h : Nat) : Nat :=
  ((m.moorings.filter fun x => (cs.getD x.landing []).any fun c => clusterHalf c = h).map fun x => x.ways).sum

/-- Dies and halves that hold clusters of a kernel. -/
def diesOf (cs : List (List Nat)) : List Nat := (List.range 4).filter fun d => cs.any fun l => l.any fun c => clusterDie c = d
def halvesOf (cs : List (List Nat)) : List Nat := (List.range 8).filter fun h => cs.any fun l => l.any fun c => clusterHalf c = h

/-- Everything a launch that passes has settled. -/
structure Plan where
  header : ImageHeader
  man : Manifest
  clusters : List (List Nat)
  bases : List (Nat × List Nat)
  l1 : Nat
  point : Option Nat
  deriving DecidableEq, Repr

/-- The checks of R50 from 02h on, over an image that is valid: a plan, or the first failing reason. -/
def State.planLaunch (s : State) (p : Nat) (d : Descriptor) (img : Bytes) : Except Nat Plan :=
  let h := headerOf img
  let mb := slice img h.manOff h.manSize
  let m := manifestOf mb
  let l1 := l1Bytes d m
  let point := s.launchPoint p d
  if d.reserved || !reservedZero img mb then .error 0x02
  else if !manifestOk d h mb m then .error 0x03
  else if m.features &&& s.features p ≠ m.features then .error 0x04
  else if ferryCycle m then .error 0x05
  else match demandReason m l1 with
    | some r => .error r
    | none =>
      if !phasesOk m then .error 0x0B
      else if (m.bases.map fun b => (m.landing b).clusters).sum > s.partSize then .error 0x0C
      else match s.place p point d.place m with
        | none => .error 0x0D
        | some bs =>
          let cs := m.clustersOf bs
          if (diesOf cs).any fun t => ((s.tally t).freeBases m.tallies).isEmpty then .error 0x0E
          else if (halvesOf cs).any fun t => decide ((s.agent t).moored.length + m.mooredIn cs t > 12) then .error 0x0F
          else if m.netgroups.any fun g => decide (field (s.groupEntry g) 0 3 ≠ 1) || decide (field (s.groupEntry g) 8 3 ≠ p) then .error 0x10
          else .ok { header := h, man := m, clusters := cs, bases := bs, l1 := l1, point := point }

end Sys2Proof.Machine
end

