-- ==== Sys2Proof/Machine/Launch.lean ====
section
/-! DEFINITION. Launch queues' records and launches (R25 to R30, R47 to R51, R153, R154, R164, R170, R173,
R211, R251, R305, R312, R325 to R330, R348) and invalidations' completion (R255). -/
namespace Sys2Proof.Machine

/-! ### Reading a record (R325 to R327, R366) -/

/-- What a read of the ring at QHEAD brings. -/
inductive RingRead where
  | record (r : Nat)
  /-- failed, poisoned, or the ring lies where it may not -/
  | failed
  /-- the line's home answered RETRY -/
  | busy
  deriving DecidableEq, Repr

/-- Whether a queue fetches: enabled, a record below its target, not waiting; and the node runs (R412). -/
def State.fetches (s : State) (k : Nat) : Bool :=
  let q := s.queue k
  q.enable && q.qhead ≠ q.target && !q.waiting && s.boot.stage = 0x0A && !s.boot.clearing && decide (k / 64 < s.parts)

/-- Read the record at QHEAD: from node memory, or from the host through the partition's own port.
(DESIGN CHOICE, log 107.) -/
def State.ringRead (s : State) (k : Nat) (host : HostRecord) : State × RingRead :=
  let p := k / 64
  let a := (s.queue k).qbase.toNat + 64 * (s.queue k).qhead
  match window a with
  | .host port _ =>
    (s, if port = s.partPort p && s.portOpen port then (match host with
        | .record r => .record r.toNat
        | .failed => .failed) else .failed)
  | _ =>
    if !s.rangeHeld p a 64 then (s, .failed)
    else match s.hubReadRange 10 a 64 with
      | none => (s, .busy)
      | some (s, b, poison, tomb) => (s, if poison || tomb then .failed else .record (fromLE b))

def recPhase (r : Nat) : Bool := r.testBit 256
def recIrq (r : Nat) : Bool := r.testBit 257
def recScope (r : Nat) : Nat := field r 264 2
def recOpcode (r : Nat) : Nat := field r 272 8
def recSeq (r : Nat) : Nat := field r 288 32
def recFlush (r : Nat) : Nat := field r 448 64
/-- Whether a record passes the check of R327. -/
def Queue.matches (q : Queue) (r : Nat) : Bool := recPhase r = q.phase && recSeq r = q.qseq.toNat

/-- A failed read clears ENABLE and sets FETCH_ERR; nothing is taken. -/
def State.fetchFails (s : State) (k : Nat) : State := s.modQueue k fun q => { q with enable := false, fetchErr := true }

/-- Take the record at QHEAD: the next index and SEQ, the phase flipped at the wrap. -/
def Queue.take (q : Queue) : Queue :=
  let h := (q.qhead + 1) % q.size
  { q with qhead := h, qseq := q.qseq + 1, phase := if h = 0 then !q.phase else q.phase, rereads := 0 }
/-- The record is taken: the turn passes on, and no launch of the partition is under way (R48, R327). -/
def State.takeRecord (s : State) (k : Nat) : State :=
  let s := { s with host := { s.host with
    lastQueue := sset (k / 64) (k % 64) s.host.lastQueue
    launchWait := sdel (k / 64) s.host.launchWait } }
  (s.modQueue k Queue.take).count 0x6050 4 1

/-- Whether a partition takes its next record from a queue: the one whose launch is under way, else the first
after the last one taken, in turn by index, of those with a record to fetch; one whose record has not
matched holds up no other (R48, R327; DEDUCED, log 155). -/
def State.turn (s : State) (k : Nat) : Bool :=
  let p := k / 64
  let w := sgetD s.host.launchWait p 64
  if w < 64 ∧ s.fetches (64 * p + w) = true then w = k % 64
  else
    let from' := sgetD s.host.lastQueue p 63 + 1
    ((List.range 64).map fun i => (from' + i) % 64).find? (fun j =>
      s.fetches (64 * p + j) && (j = k % 64 || (s.queue (64 * p + j)).rereads = 0)) == some (k % 64)

/-- The launch at a queue's QHEAD is under way: what it needs is not there yet, and no other of the partition
goes before it (R48). -/
def State.launchHeld (s : State) (k : Nat) : State :=
  { s with host := { s.host with launchWait := sset (k / 64) (k % 64) s.host.launchWait } }
/-- The record with a SEQ has finished. -/
def State.recordDone (s : State) (k seq : Nat) : State := s.modQueue k fun q => { q with qdone := BitVec.ofNat 32 seq }

/-- Serve the record at QHEAD in the queue's turn, where it matches and satisfies `p`; a failed read is the same
for every record. -/
def State.onRecord (s : State) (k : Nat) (host : HostRecord) (p : Nat → Bool) (f : State → Nat → State) : State :=
  if !s.fetches k || !s.turn k then s
  else match s.ringRead k host with
    | (_, .busy) => s
    | (s, .failed) => s.fetchFails k
    | (s', .record r) => if (s.queue k).matches r && p r then f s' r else s

/-- RECORD_REREAD: the record is read again; after eight re-reads without a match the queue waits for the
next doorbell (R327; DEDUCED, log 43). -/
def execRecordReread (q : QueueId) (host : HostRecord) (s : State) : Answer :=
  let k := 64 * q.part.val + q.queue.val
  .next (if !s.fetches k then s
    else match s.ringRead k host with
      | (_, .busy) => s
      | (s, .failed) => s.fetchFails k
      | (s, .record r) =>
        let s := s.count 0x6050 3 1
        if (s.queue k).matches r then s
        else s.modQueue k fun q => { q with rereads := q.rereads + 1, waiting := decide (q.rereads + 1 ≥ 8) })

/-- A NOP record is consumed and advances QDONE (R326). -/
def execCommandNop (q : QueueId) (host : HostRecord) (s : State) : Answer :=
  let k := 64 * q.part.val + q.queue.val
  .next (s.onRecord k host (fun r => recOpcode r = 2) fun s r => (s.takeRecord k).recordDone k (recSeq r))

/-- A record with an undefined OPCODE is consumed, advances QDONE and is counted (R326). -/
def execUndefinedRecord (q : QueueId) (host : HostRecord) (s : State) : Answer :=
  let k := 64 * q.part.val + q.queue.val
  .next (s.onRecord k host (fun r => recOpcode r ≠ 1 && recOpcode r ≠ 2) fun s r =>
    ((s.takeRecord k).recordDone k (recSeq r)).count 0x6050 7 1)

/-! ### The completion record (R328 to R330) -/

/-- The kernel status word (R52). -/
def Kernel.statusWord (kn : Kernel) : Nat :=
  (if kn.refused then 1 else if kn.phase = .running ∨ kn.reason = 0 then 0 else 2) ||| kn.reason <<< 16
    ||| kn.flags.toNat <<< 32 ||| b2n kn.residue <<< 36

/-- The status word after a failed PEER flush (R330). -/
def flushFailed (status : Nat) : Nat := if status % 65536 = 0 then status ||| 2 ||| 0x0901 <<< 16 else status

/-- Bytes 0 to 55 of the completion record. -/
def Kernel.record (kn : Kernel) (status : Nat) : Nat :=
  status ||| kn.cscope <<< 64 ||| kn.kernelId.toNat <<< 96 ||| kn.seq.toNat <<< 128 ||| (64 * kn.part + kn.queue) <<< 160
    ||| kn.bubbleField <<< 192

/-- Settle the BUBBLES field: COUNT is a free value once any bubble was inserted (DESIGN CHOICE, log 8). -/
def State.settleBubbles (s : State) (kn : Kernel) : State × Kernel :=
  let top := b2n kn.clockLost <<< 63
  if kn.bubbled then (s.useFree, { kn with bubbleField := top ||| s.freeNat % 2 ^ 63 }) else (s, { kn with bubbleField := top })

/-- Write part of the completion record: to host memory through the port, or to node memory. The Bool says
whether it was written; none where the line's home answers RETRY. -/
def State.recordWrite (s : State) (kn : Kernel) (off : Nat) (b : Bytes) : Option (State × Bool) :=
  match window kn.completionPa with
  | .host port o => some (s.hostWrite kn.part port (o + off) b kn.completionXl, s.portOpen port)
  | _ => (s.hubWriteRange 10 (kn.completionPa + off) b).map fun s => (s, true)

/-- The completion record could not be written (R329). -/
def State.completionLost (s : State) (k seq : Nat) : State :=
  ((s.modQueue k fun q => { q with cplLost := true }).recordDone k seq).count 0x6050 5 1

/-- Write DONE, advance QDONE and raise the queue's interrupt when asked (R328, R330). -/
def State.writeDone (s : State) (kn : Kernel) : Option State :=
  let k := 64 * kn.part + kn.queue
  (s.recordWrite kn 56 (toLE 8 (kn.seq.toNat + 2 ^ 63))).map fun (s, ok) =>
    if !ok then s.completionLost k kn.seq.toNat
    else
      let s := s.recordDone k kn.seq.toNat
      if kn.irq then s.raise k else s

/-- The flush read of a PEER completion: sent where FLUSHADDR lies in the window of the partition's port. -/
def Kernel.flushes (kn : Kernel) : Bool := kn.cscope = 2 && !kn.noFlush
def State.sendFlush (s : State) (id : Nat) (kn : Kernel) : State :=
  match window kn.flushAddr.toNat with
  | .host port o => s.hostRead kn.part port o 4 (.flush id) false
  | _ => s
/-- Whether the flush can be sent. -/
def State.flushSendable (s : State) (kn : Kernel) : Bool :=
  match window kn.flushAddr.toNat with
  | .host port _ => port = s.partPort kn.part && s.portOpen port
  | _ => false

/-- What a completion has come to. -/
inductive Finish where
  /-- the record is written or lost -/
  | done (s : State)
  /-- bytes 0 to 55 are written and the PEER flush is outstanding -/
  | flushing (s : State)
  /-- the record's line is busy -/
  | later

/-- Finish a launch's record (R328 to R330): bytes 0 to 55, the PEER flush, DONE. -/
def State.finishRecord (s : State) (id : Nat) (kn : Kernel) : Finish :=
  let k := 64 * kn.part + kn.queue
  let status := kn.statusWord
  match s.recordWrite kn 0 (toLE 56 (kn.record status)) with
  | none => .later
  | some (s, false) => .done (s.completionLost k kn.seq.toNat)
  | some (s, true) =>
    if kn.flushes then
      if s.flushSendable kn then .flushing (s.sendFlush id kn)
      else match s.recordWrite kn 0 (toLE 56 (kn.record (flushFailed status))) with
        | none => .later
        | some (s, _) => (match s.writeDone kn with
          | none => .later
          | some s => .done s)
    else match s.writeDone kn with
      | none => .later
      | some s => .done s

/-! ### The image (R25, R47) -/

/-- What a read of the image brings. -/
inductive ImageRead where
  | bytes (b : Bytes)
  | bad
  | later
  deriving DecidableEq, Repr

/-- Read one page of the image: translated for a load in the queue's context; node memory, or what the
window it lies in returns, given by the command (DESIGN CHOICE, log 44). An image that cannot be read (its
translation fails, it is poisoned or a tombstone, its window is down or holds no memory) counts as invalid
(DEDUCED, log 133). -/
def State.imagePage (s : State) (p ctx va n : Nat) (given : Bytes) : State × ImageRead :=
  match s.translateAs (s.firstCluster p) p ctx (fun _ => true) va 0 (launchWaiter (s.firstCluster p), none) with
  | (s, .wait) | (s, .busy) => (s, .later)
  | (s, .fault _) => (s, .bad)
  | (s, .ok pa _ _) =>
    match window pa with
    | .hbm _ _ | .aliasWindow _ | .tier2 _ _ =>
      (match s.hubReadRange 10 pa n with
       | none => (s, .later)
       | some (s, b, poison, tomb) => (s, if poison || tomb then .bad else .bytes b))
    | .regs _ | .reserved => (s, .bad)
    | .host port _ => (s, if s.portOpen port && s.windowReached 6 (window pa) && given.length = n then .bytes given else .bad)
    | w => (s, if s.windowReached 6 w && given.length = n then .bytes given else .bad)

/-- Read `n` bytes of the image from its start, page by page. -/
def State.imageBytes (s : State) (p ctx va n : Nat) (given : Bytes) : State × ImageRead :=
  (List.range ((n + 4095) / 4096)).foldl (fun (acc : State × ImageRead) i =>
    match acc with
    | (s, .bytes b) =>
      let k := if n - 4096 * i < 4096 then n - 4096 * i else 4096
      (match s.imagePage p ctx (va + 4096 * i) k (slice given (4096 * i) k) with
       | (s, .bytes x) => (s, .bytes (b ++ x))
       | r => r)
    | r => r) (s, .bytes [])

/-- Read and check the image: its header first, then as many bytes as it says. -/
def State.readImage (s : State) (p ctx va : Nat) (given : Bytes) : State × ImageRead :=
  if va % 4096 ≠ 0 then (s, .bad)
  else match s.imageBytes p ctx va 64 given with
    | (s, .bytes h) =>
      if !(headerOf h).startOk then (s, .bad)
      else (match s.imageBytes p ctx va (headerOf h).imgsize given with
        | (s, .bytes b) => (s, if imageOk b then .bytes b else .bad)
        | r => r)
    | r => r

/-! ### What an accepted launch sets up (R51) -/

/-- Copy a setting that takes effect at a launch into force. -/
def State.latch (s : State) (idx sub : Nat) : State :=
  { s with dict := { s.dict with force := sput s.dict.force (odKey idx sub) (setting s idx sub) (dictDefault idx sub) } }

/-- Lay the pieces of a cluster's scratchpad out: their order and the room left between them are free
values, each on a 256-byte boundary, none overlapping (DESIGN CHOICE, log 45). The answer gives each piece its first
unit. -/
def layPieces : Nat → List Piece → (at_ slack n : Nat) → List (Piece × Nat) × Nat
  | 0, _, _, _, n => ([], n)
  | fuel + 1, ps, a, slack, n =>
    match ps[Config.freeNat n % ps.length]? with
    | none => ([], n)
    | some x =>
      let gap := Config.freeNat (n + 1) % (slack + 1)
      let (r, n) := layPieces fuel (ps.eraseIdx (Config.freeNat n % ps.length)) (a + gap + x.units) (slack - gap) (n + 2)
      ((x, a + gap) :: r, n)

/-- Lay out the clusters of every stand-alone landing. -/
def State.layout (s : State) (pl : Plan) : State × List (Piece × Nat) :=
  pl.man.bases.foldl (fun (acc : State × List (Piece × Nat)) b =>
    let ps := pl.man.pieces b
    let slack := (524288 - pl.l1) / 256 - pl.man.scratchOn b
    let (r, n) := layPieces ps.length ps 0 slack acc.1.free
    ({ acc.1 with free := n }, acc.2 ++ r)) (s, [])

/-- The byte offset of a berth or a ferry in a layout. -/
def berthAt (l : List (Piece × Nat)) (i : Nat) : Nat :=
  ((l.find? fun e => match e.1 with
    | .berth j _ => j = i
    | _ => false).map fun e => 256 * e.2).getD 0
def ferryAt (l : List (Piece × Nat)) (i : Nat) : Nat :=
  ((l.find? fun e => match e.1 with
    | .ferry j _ => j = i
    | _ => false).map fun e => 256 * e.2).getD 0

/-- Take a run of tallies on each die that hosts a landing, at zero; which of the free runs is a free
value (R211; DESIGN CHOICE, log 45). -/
def State.takeTallies (s : State) (id : Nat) (pl : Plan) : State × Sparse Nat :=
  (diesOf pl.clusters).foldl (fun (acc : State × Sparse Nat) d =>
    let n := pl.man.tallies
    if n = 0 then (acc.1, sset d 0 acc.2)
    else
      let t := acc.1.tally d
      let bs := t.freeBases n
      let b := bs.getD (acc.1.freeNat % bs.length) 0
      let vals := t.vals.filter fun e => decide (e.1 < b) || decide (b + n ≤ e.1)
      (acc.1.useFree.setTally d { t with vals := vals, runs := t.runs ++ [(b, n, id)] }, sset d b acc.2)) (s, [])

/-- Moor ways for each mooring record: the highest unmoored ways of every half that holds a cluster of its
landing (R170). -/
def State.moorWays (s : State) (id : Nat) (pl : Plan) : State :=
  pl.man.moorings.foldl (fun s x =>
    (halvesOf [pl.clusters.getD x.landing []]).foldl (fun s h =>
      s.modAgent h fun a =>
        let free := ((List.range 16).reverse.filter fun w => !(a.moored.any fun m => m.1 = w)).take x.ways
        { a with moored := a.moored ++ free.map fun w => (w, id, x.landing) }) s) s

/-- A queue of a ferry at its start. -/
def startQueue (f : Ferry) : FerryQueue :=
  { slots := List.replicate f.capacity .free, peer := if f.isOut then f.tag % 2 ^ 17 else 0 }

/-- The queues of a kernel's ferries. -/
def startQueues (pl : Plan) : Sparse FerryQueue :=
  (pl.man.ferries.zipIdx).foldl (fun (m : Sparse FerryQueue) (x : Ferry × Nat) =>
    let n := (pl.clusters.getD (if x.1.isOut then x.1.producer else x.1.consumer) []).length
    (List.range n).foldl (fun m q => sset (ferryKey x.2 q) (startQueue x.1) m) m) []

/-- A group at its start (R59, R129). -/
def startGroup (id : Nat) (kn : Kernel) (pl : Plan) (lc : Nat) (x : Placed) : Group :=
  let l := pl.man.landing x.landing
  let base := ((pl.man.members (pl.man.base x.landing)).filter fun i => decide (i < x.landing)).map fun i => (pl.man.landing i).accum
  { kernel := id, landing := x.landing, lcluster := lc, index := x.index, regCount := l.regs, vregCount := l.vregs
    accumCount := l.accum, accumBase := base.sum, pc := BitVec.ofNat 64 (kn.image.toNat + pl.header.codeOff + l.entry), phase := l.phase0 }

/-- Start one cluster: the split, the scrub, ZERO berths, empty caches and engines, its groups (R51, R111,
R145, R153, R154, R164, R251). A scratchpad byte that was L1 space under the cluster's last kernel keeps what
the scratchpad last held there (DEDUCED, log 139). -/
def State.startCluster (s : State) (id : Nat) (kn : Kernel) (pl : Plan) (b lc c : Nat) : State :=
  let k := 64 * kn.part + kn.queue
  let scrub := setting s 0xA063 1
  let s := s.invalidateL1 c
  let s := s.modCluster c fun x =>
    let x := { x with
      spad := if scrub = 2 ∨ (scrub = 1 ∧ x.lastQueue ≠ some k ∧ x.lastQueue.isSome) then [] else x.spad
      utlb := if x.lastCtx = some (64 * kn.part + kn.ctx) then x.utlb else []
      kernel := some id, l1size := pl.l1, mxq := [], slip := [], slipPace := 0, tiles := [], lastClass := none, vxq := [], slots := [], xfers := [], pfWait := []
      lastQueue := some k, lastCtx := some (64 * kn.part + kn.ctx) }
    (pl.man.berths.zipIdx).foldl (fun x (e : Berth × Nat) =>
      if e.1.zero && pl.man.base e.1.landing = b then x.spadZero (kn.berthOff.getD e.2 0) (256 * e.1.size) else x) x
  (pl.man.assign b).foldl (fun s p => s.setGroup (64 * c + 16 * p.sched + p.slot) (startGroup id kn pl lc p)) s

/-- Register the IN ends and send CONNECT for the OUT ends (R312). -/
def State.startFerries (s : State) (id : Nat) (kn : Kernel) : State :=
  (kn.man.ferries.zipIdx).foldl (fun (s : State) (x : Ferry × Nat) =>
    let f := x.1
    let g := kn.man.netgroups.getD f.netgroup 0
    if f.isIn then
      if s.net.inEnds.any fun e => e.group = g && e.tag = f.tag then s
      else { s with net := { s.net with
        inEnds := s.net.inEnds ++ [{ kernel := id, ferry := x.2, group := g, tag := f.tag }]
        goneTags := s.net.goneTags.filter fun e => e ≠ (g, f.tag) } }
    else if f.isOut then
      (List.range (kn.queueCount f)).foldl (fun s q =>
        s.ferrySend id x.2 q (f.tag % 2 ^ 17) 0x0A ((kn.queueCount f) <<< 32 ||| f.capacity) none) s
    else s) s

/-- Bind the network groups of the manifest that are not bound (R305). -/
def State.bindGroups (s : State) (pl : Plan) (kernelId : Nat) : State × List Nat :=
  let mine := pl.man.netgroups.eraseDups.filter fun g => !grpBound (s.groupEntry g)
  (s.bind mine kernelId, mine)

/-- Accept a launch: everything of R51, then its groups start. -/
def State.accept (s : State) (kn : Kernel) (pl : Plan) : State :=
  let id := s.nextKernel
  let p := kn.part
  let s := { s with nextKernel := id + 1 }
  let s := [(0xA061, p + 1), (0xA061, 9), (0xA063, 1), (0x3020, p + 1)].foldl (fun s (e : Nat × Nat) => s.latch e.1 e.2) s
  let (s, lay) := s.layout pl
  let (s, tb) := s.takeTallies id pl
  let (s, bound) := s.bindGroups pl kn.kernelId.toNat
  let kn := { kn with
    fixedPoint := pl.point, header := pl.header, man := pl.man, clusters := pl.clusters
    berthOff := (List.range pl.man.berths.length).map fun i => berthAt lay i
    ferryOff := (List.range pl.man.ferries.length).map fun i => ferryAt lay i
    ferries := startQueues pl, tallyBase := tb, boundGroups := bound }
  let s := (halvesOf pl.clusters).foldl (fun s h => s.dropRemote h) s
  let s := (s.moorWays id pl).setKernel id kn
  let s := pl.bases.foldl (fun s (e : Nat × List Nat) =>
    (e.2.zipIdx).foldl (fun s (c : Nat × Nat) => s.startCluster id kn pl e.1 c.2 c.1) s) s
  let s := ((s.startFerries id kn).count 0xA011 1 1).count 0xA031 5 (b2n kn.flush)
  (s.modKernel id fun k => { k with bubbled := (halvesOf pl.clusters).any fun h => s.bubbleOf h > 0 }).powerSettle

/-! ### The launch -/

/-- Whether a LAUNCH record's header holds a reserved value (R326). -/
def State.headerReserved (s : State) (p r : Nat) : Bool :=
  field r 320 128 ≠ 0 || field r 280 8 ≠ 0 || field r 266 6 ≠ 0 || field r 258 6 ≠ 0 || recScope r = 3
    || (recFlush r ≠ 0 && recScope r ≠ 2) || (recScope r = 2 && !s.feature p 66)

/-- Whether COMPLETION's place suits its scope (R329); a reserved scope allows both places (DEDUCED, log 46). -/
def State.completionPlace (s : State) (p pa : Nat) (scope : Nat) (reserved : Bool) : Bool :=
  let host := match window pa with
    | .host port _ => port = s.partPort p
    | _ => false
  let node := s.rangeHeld p pa 64
  if reserved then host || node else if scope = 1 then node else host

/-- What is known of a launch before its image is read. -/
def launchKernel (p q r ctx pa : Nat) (xl : Bool) (d : Descriptor) : Kernel :=
  { part := p, queue := q, seq := BitVec.ofNat 32 (recSeq r), cscope := recScope r, irq := recIrq r
    flushAddr := BitVec.ofNat 64 (recFlush r), kernelId := BitVec.ofNat 32 d.kernelId, args := BitVec.ofNat 64 d.args
    image := BitVec.ofNat 64 d.image, completionPa := pa, completionXl := xl, ctx := ctx, flush := d.flush, fixedPoint := none
    header := headerOf [], man := manifestOf [], clusters := [], berthOff := [], ferryOff := [], ferries := []
    tallyBase := [], boundGroups := [] }

/-- Refuse a launch: count it and finish its record (R50). None where the record's line is busy. -/
def State.refuse (s : State) (kn : Kernel) (reason : Nat) (flush : Bool) : Option State :=
  let kn := { kn with refused := true, reason := reason, phase := .flushing, noFlush := !flush }
  let id := s.nextKernel
  let s := ((s.count 0xA011 2 1).setCounter 0xA011 3 reason).setCounter 0xA011 4 kn.kernelId.toNat
  match s.finishRecord id kn with
  | .later => none
  | .done s => some s
  | .flushing s => some ({ s with nextKernel := id + 1 }.setKernel id kn)

/-- LAUNCH: the record at QHEAD is taken, checked, and its kernel placed whole or refused (R47 to R51, R326,
R329). It waits, with nothing taken and no other launch of the partition before it, while a line or a host
translation it needs is on its way (R48). -/
def State.launch (s0 s : State) (k r : Nat) (given : Bytes) : State :=
  let p := k / 64
  let d := descriptorOf (r % 2 ^ 256)
  let ctx := (s.queue k).ctx
  match s.translateAs (s.firstCluster p) p ctx (fun _ => true) d.completion 1 (launchWaiter (s.firstCluster p), none) with
  | (s, .wait) => s.launchHeld k
  | (_, .busy) => s0.launchHeld k
  | (s, .fault _) => (s.takeRecord k).completionLost k (recSeq r)
  | (s, .ok pa _ xl) =>
    let bad := s.headerReserved p r
    if d.completion % 64 ≠ 0 ∨ !s.completionPlace p pa (recScope r) (recScope r = 3 || (recScope r = 2 && !s.feature p 66)) then
      (s.takeRecord k).completionLost k (recSeq r)
    else
      let kn := launchKernel p (k % 64) r ctx pa xl d
      if bad then ((s.takeRecord k).refuse kn 0x02 false).getD (s0.launchHeld k)
      else match s.readImage p ctx d.image given with
        | (s, .later) => s.launchHeld k
        | (s, .bad) => ((s.takeRecord k).refuse kn 0x01 true).getD (s0.launchHeld k)
        | (s, .bytes img) => match s.planLaunch p d img with
          | .error e => ((s.takeRecord k).refuse kn e true).getD (s0.launchHeld k)
          | .ok pl => (s.takeRecord k).accept kn pl

def execLaunch (q : QueueId) (host : HostRecord) (image : Bytes) (s : State) : Answer :=
  let k := 64 * q.part.val + q.queue.val
  .next (s.onRecord k host (fun r => recOpcode r = 1) fun s' r => s.launch s' k r image)

/-! ### Invalidations (R255) -/

/-- Whether reads of a partition's clusters are still to be performed: fills and prefetches in flight, and
reads at a host port or over the network. -/
def State.readsOpen (s : State) (p : Nat) : Bool :=
  s.clusters.any (fun e => s.clusterPart e.1 = p && (!e.2.fills.isEmpty || e.2.pf.any fun f => f.data.isNone)) ||
  s.host.reads.any (fun r => match r.user with
    | .load cl _ | .xfer cl _ _ => s.clusterPart cl = p
    | _ => false) ||
  s.net.ops.any fun o => match o.user with
    | .load cl _ _ | .xferRead cl _ _ => s.clusterPart cl = p
    | .atomic gk _ => s.clusterPart (gcluster gk) = p
    | _ => false

/-- INVALIDATION_COMPLETE: the oldest queued invalidation of a partition completes. Accesses translated
before it are performed first: the write buffers of the partition's clusters drain, and while reads of
theirs are outstanding it does not complete (DEDUCED, log 156). -/
def execInvalidationComplete (p : Fin 8) (s : State) : Answer :=
  .next (match (s.xl p.val).invQueue with
    | [] => s
    | (op, ctx, page, n) :: rest =>
      if s.readsOpen p.val then s
      else match ((s.clusters.map Prod.fst).filter fun c => s.clusterPart c = p.val).foldl (fun (acc : Option State) c => acc.bind fun s => s.drainAll c) (some s) with
      | none => s
      | some s =>
        let s := s.dropTranslations p.val op ctx page n
        (s.modXl p.val fun x => { x with invQueue := rest, invDone := x.invDone + 1 }).count 0xA081 3 1)

end Sys2Proof.Machine
end

