-- ==== Sys2Proof/Machine/Completion.lean ====
section
/-! DEFINITION. The end of a kernel (R39, R40, R211, R222, R305, R313, R328 to R330): its conditions, its
completion record, and the release of everything it held. -/
namespace Sys2Proof.Machine

/-- Release a half's moored ways of a kernel: their lines stay, without the keep mark (R170). -/
def CohAgent.unmoor (a : CohAgent) (id : Nat) : CohAgent :=
  let mine := (a.moored.filter fun m => m.2.1 = id).map fun m => m.1
  { a with
    moored := a.moored.filter fun m => m.2.1 ≠ id
    copies := a.copies.map fun c => if mine.contains c.way then { c with keep := false } else c }

/-- What a kernel's long ferries leave behind: an aborted OUT end sends ABANDON, an IN end that was
registered is gone for its peer (R313).
(DEDUCED, log 96.) -/
def State.endFerries (s : State) (id : Nat) (kn : Kernel) : State :=
  let s := if kn.reason = 0 ∧ ¬ kn.silent then s
    else (kn.man.ferries.zipIdx).foldl (fun (s : State) (x : Ferry × Nat) =>
      if x.1.isOut then s.ferrySend id x.2 0 (x.1.tag % 2 ^ 17) 0x0C 0 none else s) s
  let mine := (s.net.inEnds.filter fun e => e.kernel = id).map fun e => (e.group, e.tag)
  { s with net := { s.net with inEnds := s.net.inEnds.filter fun e => e.kernel ≠ id, goneTags := s.net.goneTags ++ mine } }

/-- Free everything a kernel holds, once its completion is visible (R40); its sticky flags are counted
(R100). -/
def State.freeKernel (s : State) (id : Nat) (kn : Kernel) : State :=
  let s := if kn.silent then s else (setBits kn.flags.toNat 4).foldl (fun s i => s.count 0xA031 (i + 1) 1) s
  let s := s.endFerries id kn
  let s := s.unbind kn.boundGroups
  let s := kn.allClusters.foldl (fun s c => s.modCluster c fun x => { x with kernel := none, slots := [], pfWait := [] }) s
  let s := (List.range 8).foldl (fun s h => s.modAgent h fun a => a.unmoor id) s
  { s with
    groups := s.groups.filter fun e => e.2.kernel ≠ id
    kernels := sdel id s.kernels
    tallies := s.tallies.map fun (e : Nat × TallySet) => (e.1, { e.2 with runs := e.2.runs.filter fun r => r.2.2 ≠ id }) }.powerSettle

/-- Drain the write buffers of a kernel's clusters (R161, R222): none where a line's home answers RETRY. -/
def State.drainKernel (s : State) (kn : Kernel) : Option State :=
  kn.allClusters.foldl (fun (acc : Option State) c => acc.bind fun s => s.drainAll c) (some s)

/-- Whether a kernel has ended: every group has exited, or it was aborted. -/
def State.kernelEnded (s : State) (id : Nat) (kn : Kernel) : Bool :=
  match kn.phase with
  | .running => (s.kernelGroups id).all fun e => s.groupExited e.1
  | .aborted => true
  | .flushing => false

/-- Stop a kernel whose network writes have failed at the transport (R222). -/
def State.failRemote (s : State) (id : Nat) (kn : Kernel) : State :=
  match kn.phase, kn.remoteFail with
  | .running, some (a, g) => s.remoteIncomplete id (hubOfDie (clusterDie (kn.allClusters.headD 0))) a g
  | _, _ => s

/-- The kernel as it ends: the sticky flags of its groups, and FERRY_RESIDUE where tiles are still queued
(R40, R52). -/
def State.closing (s : State) (id : Nat) (kn : Kernel) : Kernel :=
  if kn.phase = .running then
    { kn with flags := kn.flags ||| s.kernelFlags id, residue := kn.ferries.any fun e => !e.2.fifo.isEmpty }
  else kn

/-- KERNEL_COMPLETION (R222): when a kernel has ended and its writes are drained and acknowledged, its
completion record is written and what it held is freed. -/
def execKernelCompletion (k : Nat) (s : State) : Answer :=
  .next (match s.kernel? k with
    | none => s
    | some kn =>
      if kn.refused || !s.kernelEnded k kn then s
      else match s.drainKernel kn with
        | none => s
        | some s' =>
          if s'.kernelOpsOut k then s'
          else
            let s := kn.allClusters.foldl (fun s c => s.settleEnds c) s'
            let s := s.failRemote k ((s.kernel? k).getD kn)
            let (s, kn) := s.settleBubbles (s.closing k ((s.kernel? k).getD kn))
            if kn.silent then s.freeKernel k kn
            else match s.finishRecord k kn with
              | .later => s'
              | .done s => s.freeKernel k kn
              | .flushing s => s.setKernel k { kn with phase := .flushing })

/-- The flush read of a kernel's completion has ended. A failed one changes the status word, and bytes 0 to
55 are written again; then DONE (R330). None where the record's line is busy. -/
def State.flushEnds (s : State) (k : Nat) (kn : Kernel) (ok : Bool) : Option State :=
  let again := if ok then some (s, true) else s.recordWrite kn 0 (toLE 56 (kn.record (flushFailed kn.statusWord)))
  again.bind fun (s, written) =>
    if !written then some ((s.completionLost (64 * kn.part + kn.queue) kn.seq.toNat).freeKernel k kn)
    else (s.writeDone kn).map fun s => s.freeKernel k kn

/-- The flush read of a kernel, and the state without it. -/
def State.takeFlush (s : State) (k : Nat) : Option State :=
  let mine := fun (r : HostRead) => r.user = .flush k
  (s.host.reads.find? mine).map fun r =>
    ({ s with host := { s.host with reads := s.host.reads.filter fun r => !mine r } }).nextRead r.port

/-- PEER_FLUSH_READ_DONE. -/
def execPeerFlushReadDone (k : Nat) (ok : Bool) (s : State) : Answer :=
  .next (match s.kernel? k with
    | none => s
    | some kn =>
      if kn.phase ≠ .flushing then s
      else ((s.takeFlush k).bind fun s => s.flushEnds k kn ok).getD s)

end Sys2Proof.Machine
end

