-- ==== Sys2Proof/Machine/HostRows.lean ====
section
/-! DEFINITION. Commands of the PCIe ports: BAR4 and AtomicOps (R324, R415), configuration space (R320 to
R322; its layout is the model's, PRESUMED, log 12), host-window reads (R331), host resets and FLR (R333, R334), root
ports (R340), ATS and PRI (R259 to R261). -/
namespace Sys2Proof.Machine

def State.port (s : State) (p : Nat) : HostPort := sgetD s.host.ports p {}
def State.modPort (s : State) (p : Nat) (f : HostPort → HostPort) : State :=
  { s with host := { s.host with ports := sput s.host.ports p (f (s.port p)) {} } }
/-- A request a function does not support: the error completion, and in its AER capability Unsupported Request
Error (R319; PRESUMED, log 12). -/
def State.unsupported (s : State) (fn : Fn) : State :=
  let i := capAer / 4 + 1
  let s := s.send (.pcieUnsupported fn)
  if s.fnPresent fn then
    s.modFn fn.port.val fn.vf.val fun f => { f with cfg := sput f.cfg i (BitVec.ofNat 32 (f.word i ||| 2 ^ 20)) (cfgReset i) }
  else s

/-! ### BAR4 (R324) -/

/-- The node address of a BAR4 request that is allowed. -/
def State.bar4Target (s : State) (fn : Fn) (off n : Nat) : Option Nat :=
  let f := s.fn fn.port.val fn.vf.val
  let a := f.b4base.toNat + off
  let ok := if fn.vf.val = 0 then (List.range s.parts).any (fun p => s.rangeHeld p a n) || (s.keyAddr a).isSome && (s.keyAddr (a + n - 1)).isSome
    else s.fnServes fn (fn.vf.val - 1) && s.rangeHeld (fn.vf.val - 1) a n
  if s.fnLive fn && s.boot.stage = 0x0A && 0 < n && decide (off + n ≤ 2 ^ f.bar4) && ok then some a else none

/-- BAR4_READ: an RDN; a poisoned sector makes the TLP poisoned, a tombstone the interface's error
(R176; DEDUCED, log 48). -/
def execBar4Read (fn : Fn) (off : BitVec 48) (len : BitVec 13) (s : State) : Answer :=
  .next (match s.bar4Target fn off.toNat len.toNat with
    | none => s.unsupported fn
    | some a => match s.hubReadRange (10 + fn.port.val) a len.toNat with
      | none => s
      | some (s, b, poison, tomb) => if tomb then s.unsupported fn else s.send (.pcieCompletion fn b poison))

/-- BAR4_WRITE: a WRN; a write that is not allowed is discarded (it is posted). -/
def execBar4Write (fn : Fn) (off : BitVec 48) (data : Bytes) (s : State) : Answer :=
  .next (match s.bar4Target fn off.toNat data.length with
    | none => s
    | some a => (s.hubWriteRange (10 + fn.port.val) a data).getD s)

/-- An AtomicOp: one adder operation on i32 or i64, answered with the old value.
(DESIGN CHOICE, log 97.) -/
def State.pcieAtomic (s : State) (fn : Fn) (off : Nat) (size : AtomicSize) (op x cmp : Nat) : State :=
  let n := match size with
    | .b32 => 4
    | .b64 => 8
    | .b128 => 16
  match (if size = .b128 then none else s.bar4Target fn off n) with
  | none => s.unsupported fn
  | some a => match s.keyAddr a with
    | none => s.unsupported fn
    | some k => match s.adderAtomic (10 + fn.port.val) k op (if n = 8 then 4 else 5) (x % 2 ^ (8 * n)) (cmp % 2 ^ (8 * n)) with
      | none => s
      | some (s, .old v) => s.send (.pcieCompletion fn (toLE n v) false)
      | some (s, .poison) => s.useFree.send (.pcieCompletion fn (toLE n s.freeNat) true)
      | some (s, .error) => s.unsupported fn

def execAtomicopFetchadd (fn : Fn) (off : BitVec 48) (size : AtomicSize) (operand : BitVec 64) (s : State) : Answer :=
  .next (s.pcieAtomic fn off.toNat size 0 operand.toNat 0)
def execAtomicopSwap (fn : Fn) (off : BitVec 48) (size : AtomicSize) (operand : BitVec 64) (s : State) : Answer :=
  .next (s.pcieAtomic fn off.toNat size 6 operand.toNat 0)
def execAtomicopCas (fn : Fn) (off : BitVec 48) (size : AtomicSize) (operand compare : BitVec 64) (s : State) : Answer :=
  .next (s.pcieAtomic fn off.toNat size 7 operand.toNat compare.toNat)

/-! ### Host translations (R259 to R261) -/

/-- Outstanding page requests of a function. -/
def State.pagesOut (s : State) (port vf : Nat) : Nat :=
  (s.host.ats.filter fun x => x.port = port && x.vf = vf && x.pri && !x.queued && !x.failed).length
/-- Send a request's Page Request Message, or queue it while the allocation is used up. -/
def State.sendPage (s : State) (tag : Nat) : State :=
  match s.host.ats.find? (fun x => x.tag = tag) with
  | none => s
  | some x =>
    let room := decide (s.pagesOut x.port x.vf < (s.fn x.port x.vf).priAllocation)
    let page := fun (y : HostXlate) => if y.tag = tag then { y with pri := true, queued := !room } else y
    let s := { s with host := { s.host with ats := s.host.ats.map page } }
    if room then (s.count 0x6030 3 1).send (.pageRequest x.port x.vf tag x.va x.write (s.ctxPasid x.part x.ctx)) else s
/-- Room in the allocation lets queued page requests out, oldest first. -/
def State.sendQueued (s : State) (port vf : Nat) : State :=
  (s.host.ats.filter fun x => x.port = port && x.vf = vf && x.queued).foldl (fun s x =>
    if decide (s.pagesOut port vf < (s.fn port vf).priAllocation) then s.sendPage x.tag else s) s

/-- The cluster whose die TLB a waiting access uses. -/
def XlWaiter.cluster (w : XlWaiter) : Nat := if w.group ≥ 2 ^ 20 then w.group % 2 ^ 20 / 64 else gcluster w.group

/-- One waiting access ends with HOST_PAGE_FAULT, or CONTEXT_INVALID once its context is (R250); a prefetch is discarded and counted (R163). -/
def State.hostFault (s : State) (p ctx : Nat) (w : XlWaiter) : State :=
  let f := xlFault (if s.ctxValid p ctx then 0x508 else 0x509) w.access 7 ctx true w.leaf w.va
  match s.group? w.group with
  | none => if w.group ≥ 2 ^ 21 then s.dropPrefetches w.cluster (w.va / 4096) else s
  | some g => match w.xfer with
    | none => (match g.wait with
      | .stall word => if w.access = 3 then s.useFree.takeFault w.group { g with wait := .ready } s.freeWord f
          else s.takeFault w.group { g with wait := .ready } word f
      | _ => s)
    | some no => match (s.cluster (gcluster w.group)).xfers.find? (fun x => x.group = w.group % 64 && x.no = no) with
      | some x => (s.engineFault w.group x.pc x.word (some no) f).1
      | none => s

/-- A translation ends without permission: its accesses fault; a launch that waits for it learns when it
is tried again. -/
def State.failXlate (s : State) (x : HostXlate) : State :=
  let launches := x.waiters.filter fun w => decide (2 ^ 20 ≤ w.group ∧ w.group < 2 ^ 21)
  let rest := s.host.ats.filter fun y => y.tag ≠ x.tag
  let ats := if launches.isEmpty then rest else rest ++ [{ x with failed := true, waiters := launches }]
  x.waiters.foldl (fun s w => s.hostFault x.part x.ctx w) { s with host := { s.host with ats := ats } }

/-- The request with a tag of a function. -/
def State.xlateOf (s : State) (fn : Fn) (tag : Nat) (pri : Bool) : Option HostXlate :=
  s.host.ats.find? fun x => x.port = fn.port.val && x.vf = fn.vf.val && x.tag = tag && x.pri = pri && !x.failed && !x.queued

/-- Whether a completion grants what every access that waits for it needs (R247, R261). -/
def HostXlate.granted (x : HostXlate) (c : AtsCompletion) : Bool :=
  (if x.write then c.write else c.read) && x.waiters.all fun w => (!needsW w.access || c.write) && (!(needsR w.access || w.access = 3) || c.read)

/-- The bytes a completion's range spans, a page at least. -/
def rangeSize (c : AtsCompletion) : Nat := 2 ^ max 12 c.log2size.val
/-- The range's first host address. -/
def rangeBase (c : AtsCompletion) : Nat := c.addr.toNat / rangeSize c * rangeSize c

/-- ATS_TRANSLATION_COMPLETION: enough permission fills a host entry of at most 1 GiB in the die TLBs of
the waiting accesses; too little sends a page request. -/
def execAtsTranslationCompletion (fn : Fn) (tag : Nat) (c : AtsCompletion) (s : State) : Answer :=
  .next (match s.xlateOf fn tag false with
    | none => s
    | some x =>
      if !x.granted c then
        (if (s.fn x.port x.vf).priStopped then s.failXlate x else s.sendPage tag)
      else if rangeBase c + x.va.toNat % rangeSize c ≥ 2 ^ 45 then s.failXlate x
      else
        let lg := min 18 (c.log2size.val - 12)
        let vpn := x.va.toNat / 4096 % 2 ^ 45 / 2 ^ lg * 2 ^ lg
        let host := rangeBase c + (x.va.toNat % rangeSize c / (4096 * 2 ^ lg)) * (4096 * 2 ^ lg)
        let e : TlbEntry := { part := x.part, asid := s.ctxAsid x.part x.ctx, vpn := vpn, log2pages := lg, level := 0, pte := 0
                              host := some (host, c.read, c.write) }
        let dies := (x.waiters.map fun w => clusterDie w.cluster).eraseDups
        dies.foldl (fun s d => s.dtlbPut d e) { s with host := { s.host with ats := s.host.ats.filter fun y => y.tag ≠ x.tag } })

/-- PRG_RESPONSE_SUCCESS: the ATS request is repeated. -/
def execPrgResponseSuccess (fn : Fn) (tag : Nat) (s : State) : Answer :=
  .next (match s.xlateOf fn tag true with
    | none => s
    | some x =>
      let again := fun (y : HostXlate) => if y.tag = tag then { y with pri := false } else y
      let s := { s with host := { s.host with ats := s.host.ats.map again } }
      ((s.count 0x6030 2 1).send (.atsRequest x.port x.vf tag x.va x.write (s.ctxPasid x.part x.ctx))).sendQueued x.port x.vf)

/-- A page request has ended without its page. -/
def State.pageFails (s : State) (fn : Fn) (tag : Nat) (stop : Bool) : State :=
  match s.xlateOf fn tag true with
  | none => s
  | some x =>
    if stop then
      let s := (s.modFn x.port x.vf fun f => { f with priStopped := true }).failXlate x
      (s.host.ats.filter fun y => y.port = x.port && y.vf = x.vf && y.queued && !y.failed).foldl State.failXlate s
    else (s.failXlate x).sendQueued x.port x.vf
def execPrgResponseInvalidRequest (fn : Fn) (tag : Nat) (s : State) : Answer := .next (s.pageFails fn tag false)
/-- PRG_RESPONSE_FAILURE also stops PRI for the function: no page request is sent any more, and those that
wait for allocation fail (R261; DEDUCED, log 157). -/
def execPrgResponseFailure (fn : Fn) (tag : Nat) (s : State) : Answer := .next (s.pageFails fn tag true)
def execPriResponseTimeout (fn : Fn) (tag : Nat) (s : State) : Answer := .next (s.pageFails fn tag false)

/-- Drop host entries that meet `p` from every TLB.
(DEDUCED, log 128.) -/
def State.dropHostEntries (s : State) (p : TlbEntry → Bool) : State :=
  let keep := fun (l : List TlbEntry) => l.filter fun e => !(e.host.isSome && p e)
  { s with
    clusters := s.clusters.map fun (e : Nat × Cluster) => (e.1, { e.2 with utlb := keep e.2.utlb })
    dieXlate := s.dieXlate.map fun (e : Nat × DieXlate) => (e.1, { e.2 with tlb := keep e.2.tlb }) }

/-- The answers of a partition's host reads may still come: its outstanding translated reads, by tag. -/
def State.translatedReads (s : State) (port : Nat) (vf : Nat) : List Nat :=
  (s.host.reads.filter fun r => r.port = port && r.vf = vf && r.translated).map fun r => r.tag

/-- ATS_INVALIDATION_REQUEST (R260): the entries are dropped, accesses that used them are performed, and then the
completion is sent: at once where no translated read of the function is outstanding, else when the last
of them ends (DEDUCED, log 156). -/
def execAtsInvalidationRequest (fn : Fn) (itag : Fin 32) (va : BitVec 64) (log2size : Fin 64) (s : State) : Answer :=
  let parts := s.ownParts fn
  let n := if log2size.val < 12 then 1 else 2 ^ (log2size.val - 12)
  let page := va.toNat / 4096 % 2 ^ 45 / n * n
  .next (match ((s.clusters.map Prod.fst).filter fun c => parts.contains (s.clusterPart c)).foldl
      (fun (acc : Option State) c => acc.bind fun s => s.drainAll c) (some s) with
    | none => s
    | some s =>
      let s := (s.dropHostEntries fun e => parts.contains e.part && decide (e.vpn < page + n) && decide (page < e.vpn + 2 ^ e.log2pages)).count 0x6030 4 1
      let s := s.reask fun x => parts.contains x.part && decide (x.va.toNat / 4096 % 2 ^ 45 < page + n) && decide (page ≤ x.va.toNat / 4096 % 2 ^ 45)
      match s.translatedReads fn.port.val fn.vf.val with
      | [] => s.send (.atsInvalidationCompletion fn itag.val)
      | reads => { s with host := { s.host with atsInvals := s.host.atsInvals ++ [{ port := fn.port.val, vf := fn.vf.val, itag := itag.val, reads := reads }] } })

/-- A read of a port has ended: invalidations that waited for it alone complete (R260). -/
def State.invalEnds (s : State) (port tag : Nat) : State :=
  let left := s.host.atsInvals.map fun x => if x.port = port then { x with reads := x.reads.filter fun y => y ≠ tag } else x
  let s := { s with host := { s.host with atsInvals := left.filter fun x => !x.reads.isEmpty } }
  (left.filter fun x => x.reads.isEmpty).foldl (fun (s : State) x =>
    s.send (.atsInvalidationCompletion { port := Fin.ofNat 2 x.port, vf := Fin.ofNat 9 x.vf } x.itag)) s

/-! ### Host-window reads (R331) -/

/-- A host-window read ends: its user gets the bytes, or poison. None where a completion record's line is
busy. -/
def State.readEnds (s : State) (r : HostRead) (b : Bytes) (ok : Bool) : Option State :=
  let s' := { s with host := { s.host with reads := s.host.reads.filter fun x => x.tag ≠ r.tag } }
  let s' := (s'.nextRead r.port).invalEnds r.port r.tag
  match r.user with
  | .flush k => (match s.kernel? k with
    | some kn => s'.flushEnds k kn ok
    | none => some s')
  | u => some (s'.hostArrives b (!ok) u)

/-- The outstanding read of a port with a tag. -/
def State.readOf (s : State) (port tag : Nat) : Option HostRead := s.host.reads.find? fun r => r.port = port && r.tag = tag && r.sent

/-- HOST_WINDOW_READ_COMPLETION: error statuses poison the data. -/
def execHostWindowReadCompletion (port : Fin 2) (tag : Nat) (result : HostData) (s : State) : Answer :=
  .next (match s.readOf port.val tag with
    | none => s
    | some r => match result with
      | .ok b => (s.readEnds r (slice b 0 r.len) (b.length ≥ r.len)).getD s
      | .unsupportedRequest | .completerAbort => (s.readEnds r [] false).getD s)

/-- An error a root port's AER reports is an event with its status bits (R340; PRESUMED, log 158). -/
def State.rootError (s : State) (port status : Nat) : State :=
  s.event { cls := 6, code := 0x70, die := 6 + port, location := port, data := status }

/-- COMPLETION_TIMEOUT: a read unanswered in time returns poison; the requester's AER notes it. -/
def execCompletionTimeout (port : Fin 2) (tag : Nat) (s : State) : Answer :=
  let i := capAer / 4 + 1
  .next (match s.readOf port.val tag with
    | none => s
    | some r =>
      let noted := if s.rootRole port.val then s.rootError port.val (2 ^ 14)
        else s.modFn port.val r.vf fun f => { f with cfg := sput f.cfg i (BitVec.ofNat 32 (f.word i ||| 2 ^ 14)) (cfgReset i) }
      (noted.readEnds r [] false).getD s)

/-! ### Host reset and FLR (R333, R434) -/

/-- Reset one function: configuration space, BARs, MSI-X and B4BASE to their reset values, an attached
session orphaned, a mailbox request ended without response (R396). -/
def State.resetFn (s : State) (port vf : Nat) : State :=
  let f := s.fn port vf
  let s := s.setFn port vf { f with
    cfg := [], msix := [], b4base := 0, bar4 := (s.port port).bar4, priStopped := false
    sessionState := if f.sessionState = 1 then 2 else f.sessionState }
  s.setMailbox (fnKey port vf) { s.mailbox (fnKey port vf) with busy := false }

/-- The size BAR4 takes at a conventional reset of a port (R322). -/
def State.takeBar4 (s : State) (port : Nat) : State := s.modPort port fun x => { x with bar4 := setting s 0x6021 1 }

/-- What a host reset or FLR does for the functions `vfs` of a port, which serve the partitions `parts`. -/
def State.resetFns (s : State) (port : Nat) (vfs parts : List Nat) : State :=
  let orphaned := vfs.flatMap fun v => if (s.fn port v).sessionState = 1 then parts.filter fun p => s.partVf p = v else []
  let s := { s with host := { s.host with atsInvals := s.host.atsInvals.filter fun x => !(x.port = port && vfs.contains x.vf) } }
  let s := vfs.foldl (fun s v => s.resetFn port v) s
  let s := (parts.flatMap fun p => (List.range 64).map fun q => 64 * p + q).foldl (fun s k =>
    s.modQueue k fun q => { q with enable := false, stopped := true }) s
  let s := s.dropHostEntries fun e => parts.contains e.part
  let s := (s.host.ats.filter fun x => x.port = port && vfs.contains x.vf && !x.failed).foldl (fun s x => s.failXlate x) s
  orphaned.foldl (fun s p => s.raise (520 + p)) s

/-- The reads outstanding toward a port end with poison (R433). -/
def State.endReads (s : State) (port : Nat) : State :=
  (s.host.reads.filter fun r => r.port = port).foldl (fun s r => (s.readEnds r [] false).getD s) s

/-- The partitions bound to a port. -/
def State.portParts (s : State) (port : Nat) : List Nat := (List.range s.parts).filter fun p => s.partPort p = port

/-- A host reset of a port: loss of the link, a hot reset or a conventional reset.
(DEDUCED, log 49.) -/
def State.hostReset (s : State) (port : Nat) (linkLost : Bool) : State :=
  if s.rootRole port then
    if linkLost && s.linkUp port then
      ((s.modPort port fun x => { x with link := 0 }).endReads port).event
        { cls := 6, code := 0x70, die := 6 + port, location := port, data := Config.freeNat s.free }
    else s
  else if linkLost && !s.linkUp port then s
  else
    let s := { s with host := { s.host with atsInvals := s.host.atsInvals.filter fun x => x.port ≠ port } }
    let s := ((s.modPort port fun x => { x with link := if linkLost then 0 else 1 }).endReads port).takeBar4 port
    ((s.resetFns port (List.range 9) (s.portParts port)).count 0x6050 1 1).count 0x8032 2 1

def execHostReset (port : Fin 2) (linkLost : Bool) (s : State) : Answer := .next (s.hostReset port.val linkLost)

/-- FLR of a function; the PF's also resets the port's VFs, which its VF Enable carried.
(DEDUCED, log 100.) -/
def execFlr (fn : Fn) (s : State) : Answer :=
  .next (if !s.fnPresent fn || s.recovering then s
    else if fn.vf.val = 0 then s.resetFns fn.port.val (List.range 9) (s.portParts fn.port.val)
    else s.resetFns fn.port.val [fn.vf.val] ((s.portParts fn.port.val).filter fun p => s.partVf p = fn.vf.val))

/-- PCIE_LINK_UP: an endpoint's link trains up; pending MSI-X messages go out (R334, R336). -/
def execPcieLinkUp (port : Fin 2) (rate lanes : BitVec 8) (s : State) : Answer :=
  .next (if s.rootRole port.val || !(s.port port.val).released || s.linkUp port.val then s
    else (s.modPort port.val fun x => { x with link := 2, rate := rate.toNat, lanes := lanes.toNat }).deliverAll)

/-! ### Root ports (R340) -/

/-- INTSEND in the register window. -/
def intsendAddr : Nat := 0x100CA0010000

/-- ROOT_PORT_INBOUND_REQUEST: memory of a partition bound to the port, or a write of INTSEND; every other
request completes with Unsupported Request. -/
def execRootPortInboundRequest (port : Fin 2) (req : InboundReq) (s : State) : Answer :=
  let held := fun (a n : Nat) => 0 < n && (s.portParts port.val).any fun p => s.rangeHeld p a n
  .next (if !s.rootRole port.val || !s.linkUp port.val then s
    else match req with
      | .memRead a len =>
        if held a.toNat len.toNat then
          (match s.hubReadRange (10 + port.val) a.toNat len.toNat with
           | none => s
           | some (s, b, poison, tomb) => if tomb then (s.send (.rootUnsupported port.val)).rootError port.val (2 ^ 20) else s.send (.rootCompletion port.val b poison))
        else (s.send (.rootUnsupported port.val)).rootError port.val (2 ^ 20)
      | .memWrite a data =>
        if held a.toNat data.length then (s.hubWriteRange (10 + port.val) a.toNat data).getD s
        else if a.toNat = intsendAddr && data.length = 4 then s.intSend (fromLE data)
        else (s.send (.rootUnsupported port.val)).rootError port.val (2 ^ 20)
      | .other => (s.send (.rootUnsupported port.val)).rootError port.val (2 ^ 20))

/-- ROOT_PORT_RETRAIN: a root port that has no link tries to train, at its release and every 100 ms after a
link-down. -/
def execRootPortRetrain (port : Fin 2) (trained : Bool) (s : State) : Answer :=
  .next (if s.rootRole port.val && (s.port port.val).released && (s.port port.val).link ≠ 2 && trained then
      (s.modPort port.val fun x => { x with link := 2 }).deliverAll
    else s)

/-! ### Configuration space (R320, R322; PRESUMED, log 12) -/

/-- BAR4 size capability word: sizes 1 GiB to 4 TiB. -/
def rebarSizes : Nat := maskOf ((List.range 13).map fun i => 14 + i)

/-- A 64-bit BAR's two words: the fixed bits and what may be written, for a size of 2^n bytes. -/
def barLow (n flags : Nat) : Nat × Nat := (flags, if n ≥ 32 then 0 else 2 ^ 32 - 2 ^ n)
def barHigh (n : Nat) : Nat × Nat := (0, if n ≥ 32 then 2 ^ 32 - 2 ^ (n - 32) else 2 ^ 32 - 1)

/-- A configuration word the model knows: its fixed bits and the mask of the bits the host writes. None:
the word is PCIe's own, and reads a free value. -/
def State.cfgWord (s : State) (fn : Fn) (i : Nat) : Option (Nat × Nat) :=
  let f := s.fn fn.port.val fn.vf.val
  let pf := fn.vf.val = 0
  let device := if s.recovering then 0x4621 else if pf then 0x4620 else 0x4622
  let rev := Config.stepping.toNat
  let b4 := f.bar4
  let v4 := (s.fn fn.port.val 1).bar4
  if i = 0 then some (device <<< 16 ||| 0x1F62, 0)
  else if i = 1 then some (0x00100000, 0x0546)
  else if i = 2 then some (0x12000000 ||| (16 * (rev / 256 - 0x40) + rev % 256) % 256, 0)
  else if i = 4 then some (if pf then barLow 26 4 else (0, 0))
  else if i = 5 then some (if pf then barHigh 26 else (0, 0))
  else if i = 6 then some (if pf then barLow 22 4 else (0, 0))
  else if i = 7 then some (if pf then barHigh 22 else (0, 0))
  else if i = 8 then some (if pf then barLow b4 0xC else (0, 0))
  else if i = 9 then some (if pf then barHigh b4 else (0, 0))
  else if i = 0xB then some ((if s.recovering then 0x0002 else 0x0001) <<< 16 ||| 0x1F62, 0)
  else if i = 0xD then some (capPm, 0)
  else if i = capPm / 4 then some (0x00035001, 0)
  else if i = capPm / 4 + 1 then some (8, 3)
  else if i = capMsix / 4 then some (0x003F7011, 0xC0000000)
  else if i = capMsix / 4 + 1 then some ((if pf then 0x210000 else 0x50000) + 2, 0)
  else if i = capMsix / 4 + 2 then some ((if pf then 0x210800 else 0x50800) + 2, 0)
  else if i = capExp / 4 then some (0x00020010, 0)
  else if i = capExp / 4 + 1 then some (0x10008002, 0)
  else if i = capExp / 4 + 2 then some (0, 0x70EF)
  else if i = capSriov / 4 then some (if pf then 0x14010010 else 0x14000000, 0)
  else if pf ∧ i = capSriov / 4 + 2 then some (0, 0x1F)
  else if pf ∧ i = capSriov / 4 + 3 then some (0x00080008, 0)
  else if pf ∧ i = capSriov / 4 + 4 then some (0, 0xFFFF)
  else if pf ∧ i = capSriov / 4 + 6 then some (0x46220000, 0)
  else if pf ∧ i = capSriov / 4 + 9 then some (barLow 26 4)
  else if pf ∧ i = capSriov / 4 + 10 then some (barHigh 26)
  else if pf ∧ i = capSriov / 4 + 11 then some (barLow 19 4)
  else if pf ∧ i = capSriov / 4 + 12 then some (barHigh 19)
  else if pf ∧ i = capSriov / 4 + 13 then some (barLow v4 0xC)
  else if pf ∧ i = capSriov / 4 + 14 then some (barHigh v4)
  else if i = capAts / 4 then some (0x1501000F, 0)
  else if i = capAts / 4 + 1 then some (0, 0x801F0000)
  else if i = capPri / 4 then some (0x16010013, 0)
  else if i = capPri / 4 + 1 then some (0, 1)
  else if i = capPri / 4 + 3 then some (0, 2 ^ 32 - 1)
  else if i = capPasid / 4 then some ((if pf then 0x180 else capAer) <<< 20 ||| 0x1001B, 0)
  else if i = capPasid / 4 + 1 then some (0, 0x00070000)
  else if pf ∧ i = capRebar / 4 then some (0x19010015, 0)
  else if pf ∧ i = capRebar / 4 + 1 then some (rebarSizes, 0)
  else if pf ∧ i = capRebar / 4 + 2 then some (0x24 ||| (b4 - 20) <<< 8, 0)
  else if pf ∧ i = capVfRebar / 4 then some (0x1C010024, 0)
  else if pf ∧ i = capVfRebar / 4 + 1 then some (rebarSizes, 0)
  else if pf ∧ i = capVfRebar / 4 + 2 then some (0x24 ||| (v4 - 20) <<< 8, 0)
  else if i = capAer / 4 then some (0x00020001, 0)
  else if i = capAer / 4 + 1 ∨ i = capAer / 4 + 4 then some (0, 2 ^ 32 - 1)
  else if i = capAer / 4 + 2 ∨ i = capAer / 4 + 3 ∨ i = capAer / 4 + 5 then some (0, 2 ^ 32 - 1)
  else none

/-- The byte-enable mask of a configuration write. -/
def enableMask (e : Nat) : Nat := (List.range 4).foldl (fun m i => if e.testBit i then m ||| 255 <<< (8 * i) else m) 0

/-- A configuration word's value after a write: AER status bits are cleared by writing 1, and the power state
takes D0 and D3hot alone (R319). -/
def cfgNew (i old m v : Nat) : Nat :=
  let new := mergeMask old m v
  if i = capAer / 4 + 1 ∨ i = capAer / 4 + 4 then old &&& ((2 ^ 32 - 1) ^^^ (v &&& m))
  else if i = capPm / 4 + 1 ∧ (new % 4 = 1 ∨ new % 4 = 2) then old
  else new

/-- Take a BAR4 size written to a Resizable BAR control: 1 GiB to 4 TiB (R322). -/
def State.resizeBar4 (s : State) (port vf size : Nat) : State :=
  if 30 ≤ size ∧ size ≤ 42 then
    s.modFn port vf fun f => { f with bar4 := size, b4base := BitVec.ofNat 64 (f.b4base.toNat / 2 ^ size * 2 ^ size) }
  else s

/-- A write of a configuration word: its writable bits, and what follows: a new BAR4 size of the PF or of its
VFs, PRI enabled anew, page requests and messages that may now go out. -/
def State.cfgWrite (s : State) (fn : Fn) (i v mask : Nat) : State :=
  let p := fn.port.val
  let vf := fn.vf.val
  match s.cfgWord fn i with
  | none => s
  | some (_, rw) =>
    let old := (s.fn p vf).word i
    let new := cfgNew i old (mask &&& rw) v
    let s := s.modFn p vf fun f => { f with
      cfg := sput f.cfg i (BitVec.ofNat 32 new) (cfgReset i)
      priStopped := f.priStopped && !(i = capPri / 4 + 1 && !old.testBit 0 && new.testBit 0) }
    let size := field v 8 6 + 20
    let sized := vf = 0 ∧ field mask 8 6 ≠ 0
    let s := if i = capRebar / 4 + 2 ∧ sized then s.resizeBar4 p 0 size
      else if i = capVfRebar / 4 + 2 ∧ sized then ((List.range 8).map (· + 1)).foldl (fun s v => s.resizeBar4 p v size) s
      else s
    (s.sendQueued p vf).deliverAll

/-- CONFIGURATION_REQUEST: answered from the function's configuration space, at every boot stage (R415). -/
def execConfigurationRequest (fn : Fn) (off : BitVec 12) (access : CfgAccess) (s : State) : Answer :=
  let i := off.toNat / 4
  .next (if !s.fnPresent fn then s.unsupported fn
    else match access with
      | .read => (match s.cfgWord fn i with
        | some (ro, rw) => s.send (.cfgCompletion fn (BitVec.ofNat 32 (ro ||| ((s.fn fn.port.val fn.vf.val).word i &&& rw))))
        | none => s.useFree.send (.cfgCompletion fn (BitVec.ofNat 32 s.freeNat)))
      | .write v e => (s.cfgWrite fn i v.toNat (enableMask e.toNat)).send (.cfgCompletion fn 0))

end Sys2Proof.Machine
end

