-- ==== Sys2Proof/Machine/CohRows.lean ====
section
/-! DEFINITION. The coherence messages taken one by one (R233 to R238): requests at their home, snoops at
the agents, responses, data and completions, RETRY with its escalation (R382), the companion's rights
(R285), dead agents (R240 to R242) and the directory probe's reading (R243). -/
namespace Sys2Proof.Machine

/-- A coherence message on its way: class 0 REQ, 1 SNP, 2 RSP, 3 DAT with the codes of R233, and the header's
masks, state and ARG (R273). A transaction is known by its line, so the model gives it no TXID (log 149). -/
def State.cohSend (s : State) (cls code src dst line : Nat) (sect dirty poison state arg : Nat := 0) : State :=
  s.send (.cohMessage cls code src dst line sect dirty poison state arg)

/-- The key line a message's address names, where memory backs it (R227). -/
def State.cohLine (s : State) (addr : BitVec 48) : Option Nat := (s.keyAddr addr.toNat).map lineOf

/-- The REQ code of a request (R233). -/
def CohReq.code : CohReq → Nat
  | .rds => 1 | .rdu => 2 | .upg => 3 | .wbk => 4 | .evc => 5 | .rdn => 6 | .wrn => 7 | .dead => 8 | .addop => 9 | .backInval => 0
/-- Whether a request ends with data at its requester. -/
def CohReq.reads : CohReq → Bool
  | .rds | .rdu | .upg | .rdn => true
  | _ => false

/-! ### The companion's rights (R281, R285) -/

/-- Whether a window word covers an address: BASE and SIZE in GiB. -/
def windowCovers (w : W64) (addr : Nat) : Bool :=
  decide (field w.toNat 30 18 ≤ addr / 2 ^ 30) && decide (addr / 2 ^ 30 < field w.toNat 30 18 + field w.toNat 12 18)

/-- Whether the companion may send a request for an address: a granted window with the right, and the
capability in force: for cached accesses CACHING and the SNP channel, for an ADDOP also its operation and
format (R281, R285; DEDUCED, log 153). -/
def State.companionMay (s : State) (req : CohReq) (arg addr : Nat) : Bool :=
  let l := s.link 18
  let cap := match l.caps with
    | some (c, _) => fun (b : Nat) => c.toNat.testBit b
    | none => fun _ => false
  let right := fun (b : Nat) => l.granted.any fun w => windowCovers w addr && w.toNat.testBit b
  match req with
  | .rdn => cap 20 && right 58
  | .wrn => cap 20 && right 59
  | .addop => cap 16 && cap (field arg 25 4) && decide (field arg 25 4 < 8) && cap (8 + field arg 21 4) && decide (field arg 21 4 < 8) && right 60
  | .rds => cap 21 && cap 25 && right 61 && right 58
  | .rdu | .upg | .wbk => cap 21 && cap 25 && right 61 && right 59
  | .evc => cap 21 && cap 25 && right 61
  | _ => false

/-- Whether an agent sends a kind of request at all (R226, R233, R236): hubs keep no copies, DEAD comes
from Kysar dies. -/
def sendsReq (agent : Nat) : CohReq → Bool
  | .rds | .rdu | .upg | .wbk | .evc => agent < 10 || agent = 12
  | .dead => agent < 8
  | .backInval => false
  | _ => true

/-! ### The home (R234, R236) -/

/-- What the home does once every snoop is answered, and the CMP or CMPE it sends. -/
def State.homeAnswer (s : State) (line : Nat) : State :=
  match s.txn? line with
  | none => s
  | some t =>
    let home := s.home line
    let done := fun (s : State) (e : Option (BitVec 8)) =>
      let s := match s.txn? line with
        | some t => s.setTxn { t with cmpSent := true, cmpGot := false, error := e }
        | none => s
      match e with
      | some status => s.cohSend 2 5 home t.agent line (arg := status.toNat)
      | none => s.cohSend 2 2 home t.agent line (state := ((s.txn? line).map fun t => t.grant.code).getD 0)
    let clear := fun (s : State) => s.modAgent home fun h => { h with dir := h.dir.filter fun x => x.line ≠ line }
    if t.error.isSome then done s t.error
    else match t.req with
    | .rds | .rdu | .upg | .rdn =>
      let s' := s.homeComplete home t
      let fromMem : BitVec 4 := t.mask &&& ~~~ t.dataSect
      done (if fromMem = 0 then s' else s'.cohSend 3 1 home t.agent line (sect := fromMem.toNat)
        (poison := ((((s'.txn? line).map fun t => t.poisonSect).getD 0) &&& fromMem).toNat)) none
    | .wbk | .evc | .backInval => done s none
    | .wrn => done ((clear (s.collect home t)).writeLineBytes line t.bytes.toNat t.wdata.toNat
        |> fun s => match t.tally with
          | some r =>
            let d := if r.toNat / 65536 = 15 then agentDie t.agent else r.toNat / 65536
            if d < 4 then s.tallyInc d (r.toNat % 65536) (popcount t.bytes.toNat 128) else s
          | none => s) none
    | .dead => done (s.homeDead home line) none
    | .addop =>
      let op := t.arg.toNat / 2 ^ 25
      let fmt := field t.arg.toNat 21 4
      let n := field t.arg.toNat 13 7 + 1
      let k := line + t.bytes.toNat
      let s := clear (s.collect home t)
      let (s, r) := if n = adderSize fmt then s.adderApply k op fmt (field t.wdata.toNat 0 (8 * n)) (field t.compare.toNat 0 (8 * n))
        else s.reduceApply k op fmt (toLE n t.wdata.toNat)
      match r with
      | .error => done s (some 5)
      | .poison => done s (some 1)
      | .old v =>
        let o := k % 128
        let s := if t.arg.toNat.testBit 20 then
            (s.setTxn { t with
              dataSect := BitVec.ofNat 4 (1 <<< (o / 32))
              data := BitVec.ofNat 1024 (v <<< (8 * o)) }).cohSend 3 1 home t.agent line (sect := 1 <<< (o / 32))
          else s
        done s none

/-- Accept a request: the line is busy from here, an entry's place is made where one is needed, and the
snoops go out; with none to wait for, the home answers. A write-back waits for its WBD. -/
def State.startTxn (s : State) (t : Txn) : State :=
  let home := s.home t.line
  let s := (s.dirRoom home t.req t.agent t.line).acceptTxn home t
  match s.txn? t.line with
  | none => s
  | some t =>
    let t := if t.error.isSome then { t with snoops := [] } else t
    let asks := fun (code : Nat) => if code = 1 ∨ code = 2 ∨ code = 5 then t.mask.toNat else 0
    let s := t.snoops.foldl (fun (s : State) e => s.cohSend 1 e.2 home e.1 t.line (sect := asks e.2)) (s.setTxn t)
    let s := if t.error.isSome ∧ t.req.reads = true then (s.readTomb home t.line).getD s else s
    let s := if t.req = .evc then s.homeEvc home t.agent t.line else s
    if t.snoops.isEmpty ∧ t.req ≠ .wbk then s.homeAnswer t.line else s

/-- A request reaches its home: discarded from an agent dead to it; CMPE status 01h where no link leads there
(R14, R279); RETRY while the line is busy, its next turn is another's or the home has no room; else accepted
(R234, R241, R382). The requester keeps a way for the fill first, and sends nothing while it has none
(R238). -/
def State.takeRequest (s : State) (t : Txn) : State :=
  let home := s.home t.line
  if (s.agent home).deadTo.contains t.agent then s
  else if !s.reaches (agentDie t.agent) (agentDie home) then s.cohSend 2 5 home t.agent t.line (arg := 1)
  else
    let s := s.reclaimNow home t.line
    if s.serves home t.req t.agent t.line then
      match s.reserveWay t {} with
      | some (s, t) => s.startTxn t
      | none => s
    else (s.giveRetry home t).cohSend 2 4 home t.agent t.line

/-- The home's tag holds a tombstone that another agent reads (R176; the status is the model's, DEDUCED,
log 52). -/
def State.tombError (s : State) (req : CohReq) (agent line : Nat) : Option (BitVec 8) :=
  match (s.agent (s.home line)).cached? line with
  | some c => if c.tomb && agent ≠ s.home line && (req = .rds || req = .rdn) then some 4 else none
  | none => none

/-- A companion's request beyond its rights: CMPE status 03h and a count, nothing else (R285). -/
def State.notGranted (s : State) (src addr : Nat) : State := (s.count 0x7021 3 1).cohSend 2 5 src 12 addr (arg := 3)

/-- A request an agent sends for an address: nothing where no memory backs it or the agent never sends
it; for a companion beyond its rights, CMPE status 03h. -/
def State.cohRequest (s : State) (req : CohReq) (a : Fin 13) (addr : BitVec 48) (f : Txn → Txn) : State :=
  if !sendsReq a.val req then s
  else if a.val = 12 ∧ !s.dieUp 8 then s
  else match s.cohLine addr with
  | none => if a.val = 12 then s.notGranted 11 addr.toNat else s
  | some line =>
    let t := f { line := line, req := req, agent := a.val, mask := 0, snoops := [], responses := [], error := s.tombError req a.val line }
    if a.val = 12 ∧ !s.companionMay req t.arg.toNat addr.toNat then s.notGranted (s.home line) line
    else s.takeRequest t

/-- Whether a request of this kind from an agent has met RETRY and is still to be served. -/
def State.retried (s : State) (req : CohReq) (agent line : Nat) : Bool :=
  (s.agent (s.home line)).retries.any fun e => e.1.line = line && e.1.agent = agent && e.1.req = req

def execCohRds (a : Fin 13) (addr : BitVec 48) (mask : BitVec 4) (s : State) : Answer :=
  .next (s.cohRequest .rds a addr fun t => { t with mask := mask })
def execCohRdu (a : Fin 13) (addr : BitVec 48) (mask : BitVec 4) (s : State) : Answer :=
  .next (s.cohRequest .rdu a addr fun t => { t with mask := mask })
def execCohUpg (a : Fin 13) (addr : BitVec 48) (s : State) : Answer := .next (s.cohRequest .upg a addr id)
def execCohRdn (a : Fin 13) (addr : BitVec 48) (mask : BitVec 4) (s : State) : Answer :=
  .next (s.cohRequest .rdn a addr fun t => { t with mask := mask })
/-- WRN: tombstones of the line go, the bytes are merged over the dirty sectors collected. -/
def execCohWrn (a : Fin 13) (addr : BitVec 48) (bytes : BitVec 128) (data : BitVec 1024) (tally : Option (BitVec 20)) (s : State) : Answer :=
  let s' := match s.cohLine addr with
    | some line => if a.val = 12 then s else s.clearTombs line
    | none => s
  .next (s'.cohRequest .wrn a addr fun t => { t with bytes := bytes, wdata := data, tally := tally })
def execCohDead (a : Fin 13) (addr : BitVec 48) (s : State) : Answer := .next (s.cohRequest .dead a addr id)
/-- ADDOP: an operation, format, length or address that R186 does not allow completes with CMPE status
05h.
(DEDUCED, log 51.) -/
def execCohAddop (a : Fin 13) (addr : BitVec 48) (arg : BitVec 29) (operand : BitVec 1024) (compare : BitVec 64) (s : State) : Answer :=
  let op := arg.toNat / 2 ^ 25
  let fmt := field arg.toNat 21 4
  let n := field arg.toNat 13 7 + 1
  let k := addr.toNat
  let good := if n = adderSize fmt then atomicOk k op fmt else reduceOk k op fmt n
  .next (s.cohRequest .addop a addr fun t =>
    { t with arg := arg, wdata := operand, compare := compare, bytes := BitVec.ofNat 128 (k % 128), error := if good then none else some 5 })

/-- WBK: a holder of M or O keeps the line in its write-back buffer until the home's CMP (R237). -/
def execCohWbk (a : Fin 13) (addr : BitVec 48) (s : State) : Answer :=
  .next (match s.cohLine addr with
    | none => s
    | some line =>
      let ag := s.agent a.val
      match ag.copies.find? (fun c => c.line = line && (c.st = .M || c.st = .O)) with
      | some c =>
        if s.home line = a.val then s.evict a.val c
        else (s.setAgent a.val { ag.drop line with wbBuf := c :: ag.wbBuf }).cohRequest .wbk a addr id
      | none => if s.retried .wbk a.val line then s.cohRequest .wbk a addr id else s)

/-- EVC: a holder of E or F drops its copy and tells the home (R229). -/
def execCohEvc (a : Fin 13) (addr : BitVec 48) (s : State) : Answer :=
  .next (match s.cohLine addr with
    | none => s
    | some line =>
      match (s.agent a.val).copies.find? (fun c => c.line = line && (c.st = .E || c.st = .F)) with
      | some c =>
        if s.home line = a.val then s.evict a.val c
        else (s.modAgent a.val fun x => x.drop line).cohRequest .evc a addr id
      | none => if s.retried .evc a.val line then s.cohRequest .evc a addr id else s)

/-- WBD: the owner's dirty sectors reach the home, which writes them where it records the sender as owner
and discards them else, and sends CMP. -/
def execCohWbd (a : Fin 13) (addr : BitVec 48) (s : State) : Answer :=
  .next (match s.cohLine addr with
    | none => s
    | some line => match s.txn? line with
      | none => s
      | some t =>
        if t.req ≠ .wbk ∨ t.agent ≠ a.val ∨ t.cmpSent = true then s
        else
          let s := match (s.agent a.val).wbBuf.find? (fun c => c.line = line) with
            | some c => s.homeWbk (s.home line) a.val c
            | none => s
          s.homeAnswer line)

/-! ### The snooped agent and its response (R235) -/

/-- A snoop reaches its agent: DATA goes to the requester, or to the home for a write or an adder
operation, and SRSP to the home. -/
def State.takeSnoop (s : State) (code : Nat) (a : Fin 13) (addr : BitVec 48) : State :=
  match s.cohLine addr with
  | none => s
  | some line => match s.txn? line with
    | none => s
    | some t =>
      if !t.snoops.contains (a.val, code) then s
      else
        let c := ((s.agent a.val).copy? line).map fun c => (c.poison.toNat, c.dirty.toNat)
        let s := s.performSnoop a.val line
        let home := s.home line
        match (s.txn? line).bind fun t => t.responses.find? fun e => e.1 = a.val with
        | none => s
        | some (_, st, sect, dirty) =>
          let (p, _) := c.getD (0, 0)
          let s := if sect ≠ 0 then
              s.cohSend 3 1 a.val (if t.req.reads then t.agent else home) line (sect := sect.toNat) (dirty := dirty.toNat) (poison := p &&& sect.toNat)
            else s
          s.cohSend 2 1 a.val home line (state := st.code) (arg := b2n (sect ≠ 0) <<< 28 ||| b2n (dirty ≠ 0) <<< 27)

def execCohSnps (a : Fin 13) (addr : BitVec 48) (s : State) : Answer := .next (s.takeSnoop 1 a addr)
def execCohSnpu (a : Fin 13) (addr : BitVec 48) (s : State) : Answer := .next (s.takeSnoop 2 a addr)
def execCohSnpi (a : Fin 13) (addr : BitVec 48) (s : State) : Answer := .next (s.takeSnoop 3 a addr)
def execCohSnpd (a : Fin 13) (addr : BitVec 48) (s : State) : Answer := .next (s.takeSnoop 4 a addr)
def execCohSnpc (a : Fin 13) (addr : BitVec 48) (s : State) : Answer := .next (s.takeSnoop 5 a addr)

/-- SRSP: the home's entry follows; after the last one the home answers the request. -/
def execCohSrsp (a : Fin 13) (addr : BitVec 48) (s : State) : Answer :=
  .next (match s.cohLine addr with
    | none => s
    | some line => match s.txn? line with
      | none => s
      | some t =>
        if !t.responses.any (fun e => e.1 = a.val) then s
        else
          let s := s.takeResponse (s.home line) a.val line
          match s.txn? line with
          | some t => if t.answered then s.homeAnswer line else s
          | none => s)

/-! ### The requester (R234) -/

/-- Whether a requester has CMP and every DATA it expects. -/
def Txn.complete (t : Txn) : Bool := t.cmpGot && (!(t.req.reads || t.req = .addop) || t.dataSect &&& ~~~ t.received = 0)

/-- A requester that has everything fills its copy, in the way it has kept, and sends CMPACK. -/
def State.requesterDone (s : State) (t : Txn) : State :=
  if !t.complete then s
  else
    (if t.req.fills && t.error.isNone then s.installFill t {} else s).cohSend 2 3 t.agent (s.home t.line) t.line

/-- A core's, hub's or companion's access leaves the sectors it named in the home half (R166, R236). -/
def State.homeShare (s : State) (t : Txn) : State :=
  if t.agent < 8 then s
  else match t.req with
    | .rdn | .rds => s.homeAllocate t.line t.mask t.data.toNat t.poisonSect.toNat
    | .wrn =>
      let (d, p) := s.dramLine t.line
      s.homeAllocate t.line (sectorsTouched t.bytes.toNat) d p
    | _ => s

/-- CMP reaches the requester; a written-back line leaves its buffer (R237). -/
def execCohCmp (addr : BitVec 48) (s : State) : Answer :=
  .next (match s.cohLine addr with
    | none => s
    | some line => match s.txn? line with
      | none => s
      | some t =>
        if t.cmpSent = false ∨ t.cmpGot = true ∨ t.error.isSome then s
        else
          let t := { t with cmpGot := true }
          let s' := s.setTxn t
          let s' := if t.req = .wbk then s'.modAgent t.agent fun x => { x with wbBuf := x.wbBuf.filter fun c => c.line ≠ line } else s'
          s'.requesterDone t)

/-- DATA reaches the requester. -/
def execCohData (addr : BitVec 48) (s : State) : Answer :=
  .next (match s.cohLine addr with
    | none => s
    | some line => match s.txn? line with
      | none => s
      | some t =>
        if !(t.req.reads || t.req = .addop) ∨ t.dataSect &&& ~~~ t.received = 0 then s
        else
          let t := { t with received := t.dataSect }
          (s.setTxn t).requesterDone t)

/-- CMPE reaches the requester: its request ends without a grant. Status 01h also ends a request whose
route has gone (R279). -/
def execCohCmpe (addr : BitVec 48) (status : BitVec 8) (s : State) : Answer :=
  .next (match s.cohLine addr with
    | none => s
    | some line => match s.txn? line with
      | none => s
      | some t =>
        if t.cmpSent = true ∧ t.cmpGot = false ∧ t.error = some status then
          let t := { t with cmpGot := true }
          (s.setTxn t).requesterDone t
        else if status = 1 ∧ !s.reaches (agentDie t.agent) (agentDie (s.home line)) then s.dropTxn line
        else s)

/-- CMPACK: the line is no longer busy and the entry stands (R234). -/
def execCohCmpack (addr : BitVec 48) (s : State) : Answer :=
  .next (match s.cohLine addr with
    | none => s
    | some line => match s.txn? line with
      | none => s
      | some t =>
        if !t.complete then s
        else
          let home := s.home line
          let s := if t.error.isSome then (s.dropTxn line).count 0x7101 1 1 else s.finishTxn home t
          (if t.error.isNone then s.homeShare t else s).drainRecords)

/-- RETRY: the requester sends its request again (R234, R382). -/
def execCohRetry (a : Fin 13) (addr : BitVec 48) (s : State) : Answer :=
  .next (match s.cohLine addr with
    | none => s
    | some line =>
      match (s.agent (s.home line)).retries.find? (fun e => e.1.line = line && e.1.agent = a.val) with
      | some e => s.takeRequest e.1
      | none => s)

/-! ### Dead agents (R240 to R242) -/

/-- An agent becomes dead to a home: its transactions in progress and its turned-away requests end by R241,
the scan starts, and an agent whose die lives on drops its copies of the home's lines without write-back
(R242). -/
def execAgentDeath (home : Fin 12) (a : Fin 13) (s : State) : Answer :=
  let h := home.val
  .next (
    if h = 8 ∨ h = 9 ∨ h = a.val ∨ s.die (agentDie a.val) = 0 ∨ (s.agent h).deadTo.contains a.val ∨ s.reaches (agentDie h) (agentDie a.val) then s
    else
      let s := s.modAgent h fun x => { x with
        deadTo := a.val :: x.deadTo
        reclaim := x.reclaim ++ [(a.val, 0)]
        retries := x.retries.filter fun e => e.1.agent ≠ a.val }
      let s := s.settleTxns h a.val
      let s := s.txns.foldl (fun (s : State) t =>
        if s.home t.line = h ∧ t.answered = true ∧ t.cmpSent = false ∧ t.req ≠ .wbk then s.homeAnswer t.line else s) s
      if s.die (agentDie a.val) = 3 then s
      else s.modAgent a.val fun x => { x with
        copies := x.copies.filter (fun c => s.home c.line ≠ h || c.remote)
        wbBuf := x.wbBuf.filter fun c => s.home c.line ≠ h })

/-- The scan of a home's directory goes on to the next entry that names the dead agent whose scan runs, and
ends with an event after the last (R240, R380; the entries passed over take no command, DEDUCED, log 54). -/
def execDirectoryScan (home : Fin 12) (s : State) : Answer :=
  let h := s.agent home.val
  .next (match h.reclaim with
    | [] => s
    | (d, n) :: rest =>
      match h.dir.find? (fun e => e.resp = some d || e.sharers.toNat.testBit d) with
      | some e => s.reclaimLine home.val d e
      | none => (s.setAgent home.val { h with reclaim := rest }).event
          { cls := 5, code := 0x24, die := agentDie home.val, location := d, data := n })

/-! ### Reading the directory (R243, R244) -/

/-- The directory probe result of an address. -/
def State.probe (s : State) (addr : Nat) : Nat :=
  match s.keyAddr addr with
  | none => 0
  | some k =>
    let line := lineOf k
    let home := s.home line
    let h := s.agent home
    let own := if home ≥ 8 then 0 else match h.copies.find? (fun c => c.line = line && c.st != .I) with
      | some c => c.st.code
      | none => 0
    let busy := b2n (s.txn? line).isSome
    (match h.entry? line with
     | some e => 1 <<< 63 ||| e.st.code <<< 60 ||| (e.resp.getD 15) <<< 56 ||| e.sharers.toNat
     | none => 15 <<< 56) ||| own <<< 53 ||| busy <<< 52

/-- The state of an agent, OD 7103h: 0 absent, 1 active, 2 reclaiming, 3 dead. -/
def State.agentState (s : State) (a : Nat) : Nat :=
  let homes := (List.range 12).filter fun h => (s.agent h).deadTo.contains a
  if a = 12 ∧ (s.die 8 = 0 ∨ !(match (s.link 18).caps with | some (c, _) => c.toNat.testBit 21 | none => false)) then 0
  else if homes.any (fun h => (s.agent h).reclaim.any fun r => r.1 = a) then 2
  else if homes ≠ [] ∨ s.die (agentDie a) = 3 then 3
  else 1

end Sys2Proof.Machine
end

