-- ==== Sys2Proof/Machine/Links.lean ====
section
/-! DEFINITION. The Grentirus links: flits, credits, replay and retrain (R270 to R279), request timers
(R280), capabilities (R281, R285), training and lane sparing (R269, R282, R364), the ford (R283), and the
non-coherent messages (R274, R275). -/
namespace Sys2Proof.Machine

/-! ### A link and its two directions -/

def Link.dir (l : Link) (rev : Bool) : LinkEnd := if rev then l.rev else l.fwd
def Link.setDir (l : Link) (rev : Bool) (e : LinkEnd) : Link := if rev then { l with rev := e } else { l with fwd := e }
def State.modLink (s : State) (i : Nat) (f : Link → Link) : State := s.setLink i (f (s.link i))
def State.linkEnd (s : State) (d : LinkDir) : LinkEnd := (s.link d.link.val).dir d.rev
/-- PRESUMED, log 58. -/
def State.setEnd (s : State) (d : LinkDir) (e : LinkEnd) : State := s.modLink d.link.val fun l => l.setDir d.rev e
def dirBack (d : LinkDir) : LinkDir := { d with rev := !d.rev }

/-- The die that sends in a direction, and the one that receives (R12). -/
def dirSender (d : LinkDir) : Nat :=
  let e := linkEnds.getD d.link.val (0, 0)
  if d.rev then e.2 else e.1
def dirReceiver (d : LinkDir) : Nat := dirSender (dirBack d)
/-- The direction in which a die sends on its direct link to another. -/
def dirOf (a b : Nat) : Option LinkDir :=
  (directLink a b).map fun l => { link := Fin.ofNat 19 l, rev := decide ((linkEnds.getD l (0, 0)).1 ≠ a) }
/-- The lanes of a link and its spares, per direction (R12), and its replay buffer's depth (R277). -/
def linkLanes (i : Nat) : Nat := if i < 6 then 128 else 32
def linkSpares (i : Nat) : Nat := if i < 6 then 4 else 2
def replayDepth (i : Nat) : Nat := if i < 6 then 1024 else 256

/-- The logical lane and place of a flit's bytes: byte i travels on lane i mod L, each lane's bytes in order
(R268). -/
def laneBytes (i lane : Nat) : List Nat := (List.range (256 / linkLanes i)).map fun j => lane + linkLanes i * j

/-- Flits flow: the link is ACTIVE and reports up (R269). -/
def Link.active (l : Link) : Bool := l.state == .up || l.state == .upSpares
/-- Link state as OD 7000h reads it (R287). -/
def Link.code (l : Link) : Nat :=
  match l.state with
  | .reset => 0
  | .detect | .lock | .deskew | .caps | .credit => if l.trained then 4 else 1
  | .up => 2
  | .upSpares => 3
  | .retraining => 4
  | .down => 5

/-- Spare lanes in use, both directions (OD 7001h): one for each failed lane that is not itself a spare. -/
def State.sparesInUse (s : State) (i : Nat) : Nat :=
  let n := fun (e : LinkEnd) => (e.failedLanes.filter fun p => decide (p < linkLanes i)).length
  n (s.link i).fwd + n (s.link i).rev

/-! ### Down and retrain (R14, R279, R282) -/

/-- Dies after a link is lost: one without any link left is down, the ends of the others run on reduced
resources; the companion depends on GL18 alone (R14, R413; DEDUCED, log 57). -/
def State.dieLoss (s : State) (i : Nat) : State :=
  let e := linkEnds.getD i (0, 0)
  [e.1, e.2].foldl (fun (s : State) d =>
    let links := (List.range 19).filter fun j => let x := linkEnds.getD j (0, 0); x.1 = d || x.2 = d
    let dead := links.all fun j => s.linkDown j
    if s.die d = 0 then s
    else if dead then { s with dieState := sset d 3 s.dieState }
    else if s.die d = 1 then { s with dieState := sset d 2 s.dieState }
    else s) s

/-- The fields of a message's header slot (R273). -/
def msgHeader (h : BitVec 128) : MsgHeader :=
  let x := h.toNat
  { addr := field x 80 48, opcode := field x 72 8, src := field x 64 8, dst := field x 56 8, txid := field x 44 12,
    sect := field x 40 4, dirty := field x 36 4, poison := field x 32 4, state := field x 29 3, arg := field x 0 29 }

/-- A request whose route crosses a down link completes with CMPE status 01h (R14, R279). -/
def State.failRequest (s : State) (r : PkgRequest) : State := s.send (.cohMessage 2 5 r.dst r.src r.addr (arg := 1))

/-- Every request whose route crosses a link so completes; what was to leave by it is gone (R279). -/
def State.failRequests (s : State) (i : Nat) : State :=
  let hit := fun (r : PkgRequest) => (routeLinks r.fromDie r.toDie).contains i
  let lost := s.pkgRequests.filter fun r => hit r && !r.expired
  let s := { s with
    pkgRequests := s.pkgRequests.filter fun r => !hit r
    forwards := s.forwards.filter fun f => f.link.val ≠ i }
  lost.foldl State.failRequest s

/-- A link is declared down: an event, the dies' states, and every request across it ends (R14, R279). -/
def State.declareDown (s : State) (i : Nat) : State :=
  let s := s.modLink i fun l => { l with
    state := .down
    fwd := { l.fwd with replay := [], assembling := none, sending := none }
    rev := { l.rev with replay := [], assembling := none, sending := none } }
  let s := s.event { cls := 5, code := 0x22, die := (linkEnds.getD i (0, 0)).1, location := i }
  let s := if s.boot.stage < 0x0A then { s with boot := { s.boot with degraded := s.boot.degraded ||| 1 } } else s
  (s.dieLoss i).failRequests i

/-- The ACK that the sender of a direction puts into its flits: the SEQ of the last data flit it received in
order (R270). -/
def State.ackOf (s : State) (d : LinkDir) : Nat := ((s.linkEnd (dirBack d)).expSeq + 4095) % 4096

/-- A retrain starts: both ends keep replay buffers, expected SEQs and credits; an end that starts it sends
RETRAIN in its direction (R271, R279). -/
def State.startRetrain (s : State) (i : Nat) (by' : Option LinkDir) : State :=
  if !(s.link i).active then s
  else
    let s := match by' with
      | some d => s.send (.controlFlit i d.rev (s.ackOf d) 5)
      | none => s
    (s.modLink i fun l => { l with
      state := .retraining
      fwd := { l.fwd with locked := false, credited := false }
      rev := { l.rev with locked := false, credited := false } }).count 0x7003 (i + 1) 1

/-! ### Replay (R277, R278) -/

/-- Flits an ACK covers leave the sender's replay buffer. -/
def LinkEnd.takeAck (e : LinkEnd) (ack : Nat) : LinkEnd :=
  { e with replay := e.replay.filter fun f => decide ((ack + 4096 - f.1) % 4096 ≥ 2048) }

/-- An ACK that a flit on the other direction brings. -/
def State.ackTaken (s : State) (d : LinkDir) (ack : Nat) : State := s.setEnd d ((s.linkEnd d).takeAck ack)

/-- The sender resends from a SEQ on: one replay. The sixteenth within 4 µs starts a retrain: `old` of those
counted lie further back (R279; log 56). An uncorrectable error in the buffer retrains too (R365). -/
def State.replayFrom (s : State) (d : LinkDir) (seq old : Nat) : State :=
  let (s, bad) := s.meetArrays .replay (dirSender d) 2 fun x => x = 2 * d.link.val + b2n d.rev
  let e := s.linkEnd d
  let n := (e.replay.filter fun f => decide ((f.1 + 4096 - seq) % 4096 < 2048)).length
  let c := e.replayCount - old + 1
  let s := (s.setEnd d { e with replayCount := c }).send (.replayed d.link.val d.rev n)
  let s := s.count 0x7002 (d.link.val + 1) 1
  if c ≥ 16 ∨ bad ≠ [] then s.startRetrain d.link.val (some d) else s

/-- The receiver of a direction acknowledges what it has received in order. -/
def State.linkAck (s : State) (d : LinkDir) : State :=
  let e := s.linkEnd d
  (s.setEnd d { e with sinceAck := 0 }).send (.nullFlit d.link.val (!d.rev) ((e.expSeq + 4095) % 4096))

/-- An error episode: NAK with the expected SEQ in bits 19:8, once (R271, R278). -/
def State.linkError (s : State) (d : LinkDir) : State :=
  let e := s.linkEnd d
  if e.nakSent then s
  else (s.setEnd d { e with nakSent := true }).send
    (.controlFlit d.link.val (!d.rev) ((e.expSeq + 4095) % 4096) (BitVec.ofNat 128 (e.expSeq <<< 8 ||| 1)))

/-! ### Messages within flits (R272 to R274) -/

/-- Slots that follow a message's header (R274). What tells the lengths of the non-coherent classes apart is
free (log 151). -/
def slotsAfter (vc : Nat) (h : BitVec 128) : Nat :=
  let m := msgHeader h
  let sect := popcount m.sect 4
  match vc with
  | 0 => if m.opcode = 7 then 1 + 2 * sect
         else if m.opcode = 9 then
           let n := (field m.arg 13 7 + 1 + 15) / 16
           if m.arg / 2 ^ 25 = 7 then 2 * n else n
         else 0
  | 1 | 2 => 0
  | 3 => 2 * sect
  | 4 => [0, 1, 2, 4, 6, 8].getD (Config.classLength 4 h % 6) 0
  | 7 => 1
  | c => Config.classLength c h % 2

/-- What is gathered from a flit's slots: the message in progress, those finished (oldest first), the
channels of its START bits still to be used, the credits left to the sender and whether they ran short,
and whether R272 holds. -/
structure SlotScan where
  asm : Option Assembly
  done : List (Nat × Message) := []
  vcs : List (Fin 8)
  credits : List Nat := []
  short : Bool := false
  ok : Bool := true

/-- The message an assembly has become. -/
def Assembly.message (a : Assembly) : Nat × Message :=
  (a.vc, { header := a.slots.headD 0, slots := a.slots.drop 1 })

/-- Finish the message in progress. -/
def SlotScan.finish (x : SlotScan) : SlotScan :=
  match x.asm with
  | some a => { x with asm := none, done := x.done ++ [a.message] }
  | none => x

/-- Credits for slots of a channel, all at once (R276). -/
def SlotScan.charge (x : SlotScan) (vc n : Nat) : SlotScan :=
  { x with short := x.short || decide (x.credits.getD vc 0 < n), credits := x.credits.set vc (x.credits.getD vc 0 - n) }

/-- A slot that begins a message. -/
def SlotScan.start (x : SlotScan) (v : BitVec 128) : SlotScan :=
  match x.vcs with
  | [] => { x with ok := false }
  | c :: rest =>
    let n := slotsAfter c.val v
    let y := { x with asm := some { vc := c.val, slots := [v], more := n, enclosing := c.val = 7 }, vcs := rest }.charge c.val (1 + n)
    if n = 0 then y.finish else y

/-- Take one slot: a START inside a message, or a slot that is neither of a message nor zero, breaks R272. -/
def SlotScan.slot (x : SlotScan) (start : Bool) (v : BitVec 128) : SlotScan :=
  match x.asm with
  | none => if start then x.start v else if v = 0 then x else { x with ok := false }
  | some a =>
    if start then { x with ok := false }
    else
      let inner := if a.enclosing then 2 * popcount (msgHeader v).sect 4 else 0
      let more := if a.enclosing then inner else a.more - 1
      let y := { x with asm := some { a with slots := a.slots ++ [v], more := more, enclosing := false } }.charge a.vc inner
      if more = 0 then y.finish else y

/-- The bytes of a flit. -/
def flitBytes (f : BitVec 2048) (n : Nat) : Bytes := (List.range n).map fun i => BitVec.ofNat 8 (f.toNat >>> (8 * i))
/-- Whether a flit's CRC is good (R270). -/
def flitGood (f : BitVec 2048) : Bool := field f.toNat 1984 64 = crc64 (flitBytes f 248)
/-- The header's KIND and ACK. -/
def flitKind (f : BitVec 2048) : Nat := field f.toNat 38 2
def flitAck (f : BitVec 2048) : Nat := field f.toNat 40 12

/-- A flit's slots taken in order. -/
def scanFlit (asm : Option Assembly) (vcs : List (Fin 8)) (credits : List Nat) (f : BitVec 2048) : SlotScan :=
  (List.range 15).foldl (fun x i => x.slot (f.toNat.testBit (12 + i)) (BitVec.ofNat 128 (f.toNat >>> (64 + 128 * i)))) { asm := asm, vcs := vcs, credits := credits }

/-! ### Sending a message (R13, R273, R280, R283) -/

/-- The die a message's SRC or DST names on a channel: an agent's die, or the die index itself. -/
def messageDie (vc x : Nat) : Nat := if vc < 4 ∨ vc = 7 then agentDie x else x

/-- The die after `here` on the route between two dies (R13); a die off the route sends straight on. -/
def nextDie (src here dst : Nat) : Nat := (((fullRoute src dst).dropWhile (· ≠ here)).drop 1).headD dst

/-- The die through which a message to another Kysar die is forded: the sender's direct link is engaged, and
of the two other Kysar dies that whose link from the sender holds more FRD credits, on a tie the
lower-numbered (R283). -/
def State.fordVia (s : State) (src dst : Nat) : Option Nat :=
  let engaged := match dirOf src dst with
    | some d => decide (d.link.val < 6) && (s.linkEnd d).forded && setting s 0x7010 2 ≠ 0
    | none => false
  let held : Nat → Nat := fun v => match dirOf src v with
    | some d => (s.linkEnd d).credits.getD 7 0
    | none => 0
  if !engaged then none
  else match (List.range 4).filter (fun v => v ≠ src && v ≠ dst) with
    | [a, b] => some (if held a < held b then b else a)
    | _ => none

/-- A requester's timer starts as it sends a REQ or NCR message. A TXID is not sent while a request of the
same sender carries it, nor for 4 ms after that one expired; whether the 4 ms are over is free. A request
whose route crosses a down link ends at once (R14, R273, R280). -/
def State.openRequest (s : State) (vc : Nat) (m : Message) : Option State :=
  let h := msgHeader m.header
  let r : PkgRequest := { src := h.src, ncr := decide (vc = 4), txid := h.txid, fromDie := messageDie vc h.src, toDie := messageDie vc h.dst, dst := h.dst, addr := h.addr }
  let same := fun (x : PkgRequest) => x.src = r.src && x.ncr = r.ncr && x.txid = r.txid
  let open' := fun (s : State) => if (routeLinks r.fromDie r.toDie).any s.linkDown then s.failRequest r
    else { s with pkgRequests := s.pkgRequests ++ [r] }
  match s.pkgRequests.find? same with
  | none => some (open' s)
  | some x => if x.expired && s.freeNat % 2 = 1 then some (open' { s with pkgRequests := s.pkgRequests.filter fun x => !same x, free := s.free + 1 }) else none

/-- Slots of a channel freed by the receiver of a direction (R276). -/
def LinkEnd.owe (e : LinkEnd) (vc n : Nat) : LinkEnd := { e with owed := e.owed.set vc (e.owed.getD vc 0 + n) }
def State.owe (s : State) (d : LinkDir) (vc n : Nat) : State := s.setEnd d ((s.linkEnd d).owe vc n)

/-- A message leaves a die on a direction. One that came from another die is the next of those held for this
direction and channel, and its slots are freed; one of the die itself opens a request, and RSP and DAT to
the far die of an engaged ford go as FRD through the chosen die. None where the sender does not send
it. -/
def State.sendMessage (s : State) (d : LinkDir) (m : Nat × Message) : Option State :=
  let h := msgHeader m.2.header
  let from' := dirSender d
  if m.1 = 7 then
    match m.2.slots with
    | inner :: _ =>
      let x := msgHeader inner
      if agentDie x.src = from' && s.fordVia from' (agentDie x.dst) = some (dirReceiver d) then some (s.count 0x7010 3 1) else none
    | [] => none
  else if messageDie m.1 h.src ≠ from' then
    let waits := fun (f : Forward) => f.link = d.link && f.rev = d.rev && f.vc = m.1
    match s.forwards.find? waits with
    | some f => if f.msg = m.2 then
        some ({ s with forwards := s.forwards.eraseP waits }.owe { link := f.fromLink, rev := f.fromRev } f.fromVc f.slots) else none
    | none => none
  else if m.1 = 0 ∨ m.1 = 4 then s.openRequest m.1 m.2
  else if (m.1 = 2 ∨ m.1 = 3) ∧ (s.fordVia from' (messageDie m.1 h.dst)).isSome then none
  else some s

/-! ### Receiving a message (R13, R280) -/

/-- A message is delivered. CMP, CMPE, RETRY and NCP end their request's timer; a response to an expired
request is discarded and counted. -/
def State.noteMessage (s : State) (vc die : Nat) (m : Message) : State :=
  let h := msgHeader m.header
  let hit := fun (x : PkgRequest) => x.src = h.dst && x.ncr = decide (vc = 5) && x.txid = h.txid
  let ends : Bool := vc = 5 || vc = 2 && (h.opcode = 2 || h.opcode = 4 || h.opcode = 5)
  if ends ∨ vc = 3 then
    match s.pkgRequests.find? hit with
    | some r =>
      if r.expired then s.count 0x7005 2 1
      else (if ends then { s with pkgRequests := s.pkgRequests.filter fun x => !hit x } else s).send (.message vc die h m.slots)
    | none => s.send (.message vc die h m.slots)
  else s.send (.message vc die h m.slots)

/-- The RSP or DAT message an FRD message encloses, and its channel (R274, R283). -/
def forded (m : Message) : Nat × Message :=
  match m.slots with
  | h :: rest => (if (msgHeader h).sect = 0 then 2 else 3, { header := h, slots := rest })
  | [] => (7, m)

/-- A message received in full: delivered at its destination, else held for its next link in the order of
its channel, with no copy kept (R13). -/
def State.arriveMessage (s : State) (d : LinkDir) (m : Nat × Message) : State :=
  let n := 1 + m.2.slots.length
  let (vc, msg) := if m.1 = 7 then forded m.2 else m
  let h := msgHeader msg.header
  let here := dirReceiver d
  let dst := messageDie vc h.dst
  if dst = here then (s.owe d m.1 n).noteMessage vc here msg
  else match dirOf here (nextDie (messageDie vc h.src) here dst) with
    | some o =>
      if s.linkDown o.link.val then s.owe d m.1 n
      else { s with forwards := s.forwards ++ [{ link := o.link, rev := o.rev, vc := vc, msg := msg, fromLink := d.link, fromRev := d.rev, fromVc := m.1, slots := n }] }
    | none => s.owe d m.1 n

/-! ### Data flits -/

/-- A data flit as its sender sends it. A new one takes the next SEQ, room in the replay buffer, credits for
the whole of each message it begins and the credits it returns; a resent one is that of the buffer but
for its ACK and CRC. None for a flit its sender would not send. Every 4,096 new flits a LANECHECK goes
out (R271, R276, R277).
(DESIGN CHOICE, log 108.) -/
def State.sendFlit (s : State) (d : LinkDir) (f : BitVec 2048) (vcs : List (Fin 8)) : Option State :=
  let e := s.linkEnd d
  let seq := field f.toNat 52 12
  let body := fun (g : BitVec 2048) => (g.toNat % 2 ^ 40, field g.toNat 52 1932)
  if seq ≠ e.nextSeq then (if e.replay.any fun x => x.1 = seq && body x.2 = body f then some s else none)
  else
    let checks : Bool := e.sinceCheck = 4095
    let e' := { e with nextSeq := (seq + 1) % 4096, replay := e.replay ++ [(seq, f)], sinceCheck := if checks then 0 else e.sinceCheck + 1 }
    let x := scanFlit e.sending vcs e.credits f
    let vc := field f.toNat 35 3
    let n := field f.toNat 27 8
    let b := s.linkEnd (dirBack d)
    let s := if checks then s.send (.controlFlit d.link.val d.rev (s.ackOf d) 4) else s
    if !flitGood f || !x.ok then some (s.setEnd d e')
    else if x.short || decide (b.owed.getD vc 0 < n) then none
    else
      let s := s.setEnd d { e' with sending := x.asm, credits := x.credits }
      let s := s.modLink d.link.val fun l => l.setDir (!d.rev) { b with owed := b.owed.set vc (b.owed.getD vc 0 - n) }
      x.done.foldl (fun (acc : Option State) m => acc.bind fun s => s.sendMessage d m) (some s)

/-- A data flit as it arrives (R272, R278): accepted in order, discarded as a duplicate, or the start of an
error episode. Messages it completes are taken in order, and the credits and ACK it carries go to the
other direction's sender. -/
def State.receiveFlit (s : State) (d : LinkDir) (f : BitVec 2048) (vcs : List (Fin 8)) : State :=
  let e := s.linkEnd d
  let seq := field f.toNat 52 12
  let x := scanFlit e.assembling vcs [] f
  let back := (e.expSeq + 4096 - seq) % 4096
  if !flitGood f || !(x.ok || seq ≠ e.expSeq) then s.linkError d
  else if seq = e.expSeq then
    let s := s.setEnd d { e with expSeq := (seq + 1) % 4096, nakSent := false, assembling := x.asm, sinceAck := e.sinceAck + 1 }
    let b := (s.linkEnd (dirBack d)).takeAck (flitAck f)
    let vc := field f.toNat 35 3
    let n := b.credits.getD vc 0 + field f.toNat 27 8
    let s := s.setEnd (dirBack d) { b with credits := b.credits.set vc (if n < 4095 then n else 4095) }
    let s := x.done.foldl (fun (s : State) m => s.arriveMessage d m) s
    if e.sinceAck + 1 ≥ 64 then s.linkAck d else s
  else if 1 ≤ back ∧ back ≤ 2048 then (s.ackTaken (dirBack d) (flitAck f)).count 0x7004 (d.link.val + 1) 1
  else s.linkError d

/-- A data flit on a direction, with the bits its way changed. While the replay buffer is full the sender
sends null flits (R277). -/
def State.takeFlit (s : State) (d : LinkDir) (f noise : BitVec 2048) (vcs : List (Fin 8)) : State :=
  let e := s.linkEnd d
  if field f.toNat 52 12 = e.nextSeq ∧ replayDepth d.link.val ≤ e.replay.length then s.send (.nullFlit d.link.val d.rev (s.ackOf d))
  else match s.sendFlit d f vcs with
    | some s => s.receiveFlit d (f ^^^ noise) vcs
    | none => s

def execDataFlit (d : LinkDir) (flit : WireFlit) (vcs : List (Fin 8)) (s : State) : Answer :=
  .next (if (s.link d.link.val).active && flitKind flit.bits = 0 then s.takeFlit d flit.bits flit.noise vcs else s)

/-- NULL_FLIT: its ACK covers flits of the other direction; a CRC failure is an error like any other. -/
def execNullFlit (d : LinkDir) (flit : BitVec 2048) (s : State) : Answer :=
  .next (if !(s.link d.link.val).active || flitKind flit ≠ 1 then s
    else if flitGood flit then s.ackTaken (dirBack d) (flitAck flit) else s.linkError d)

/-- The control word of a control flit (R271). -/
def controlWord (f : BitVec 2048) : Nat := field f.toNat 64 128

/-- A control flit with a code arrives on a direction: its ACK is used, then its own effect; one that fails
its CRC is an error (R271, R278). -/
def State.takeControl (s : State) (d : LinkDir) (flit : BitVec 2048) (code : Nat) (f : State → State) : State :=
  if !(s.link d.link.val).active || flitKind flit ≠ 2 || controlWord flit % 256 ≠ code then s
  else if flitGood flit then f (s.ackTaken (dirBack d) (flitAck flit))
  else s.linkError d

/-- NAK, come back for a direction: flits before the named SEQ have arrived; the others are sent again. -/
def execLinkNak (d : LinkDir) (flit : NakFlit) (s : State) : Answer :=
  let seq := field (controlWord flit.bits) 8 12
  .next (s.takeControl (dirBack d) flit.bits 1 fun s => (s.ackTaken d ((seq + 4095) % 4096)).replayFrom d seq flit.old)

/-- REPLAY_TIMEOUT: an unacknowledged flit without progress for 1 µs. -/
def execReplayTimeout (due : ReplayDue) (s : State) : Answer :=
  .next (match (s.link due.dir.link.val).active, (s.linkEnd due.dir).replay with
    | true, (seq, _) :: _ => s.replayFrom due.dir seq due.old
    | _, _ => s)

/-- LINK_ACK_TIMER: an ACK within 500 ns of a data flit, and the credits a receiver owes are to be returned,
in data flits with empty slots where it has no message to send (R276, R277; DEDUCED, log 152). -/
def execLinkAckTimer (d : LinkDir) (s : State) : Answer :=
  .next (if !(s.link d.link.val).active then s
    else
      let s := if 0 < (s.linkEnd d).sinceAck then s.linkAck d else s
      (List.range 8).foldl (fun (s : State) vc =>
        let n := (s.linkEnd d).owed.getD vc 0
        if n = 0 then s else s.send (.creditReturn d.link.val (!d.rev) vc (if n < 255 then n else 255))) s)

/-- NAK_ACK_TIMEOUT: a NAKed flit that has not come within 4 µs. -/
def execNakAckTimeout (d : LinkDir) (s : State) : Answer :=
  .next (if (s.linkEnd d).nakSent then s.startRetrain d.link.val (some (dirBack d)) else s)

/-- RETRAIN arrives. -/
def execLinkRetrain (flit : ControlFlit) (s : State) : Answer :=
  .next (s.takeControl flit.dir flit.bits 5 fun s => s.startRetrain flit.dir.link.val none)

/-- RETRAIN_LIMIT_EXPIRY: a retrain that is not ACTIVE within 100 µs fails. -/
def execRetrainLimitExpiry (link : Fin 19) (s : State) : Answer :=
  .next (if (s.link link.val).code = 4 then s.declareDown link.val else s)

/-! ### Training (R269, R276, R281, R282) -/

/-- More lanes of a direction have failed than it has spares. -/
def State.lanesLost (s : State) (i : Nat) : Bool :=
  decide (linkSpares i < (s.link i).fwd.failedLanes.length) || decide (linkSpares i < (s.link i).rev.failedLanes.length)

/-- A link in reset begins its first training at boot stage 05h: GL10, GL11, GL14 and GL17 first, the others
once each of these is up or down (R413). GL18 waits for the stage's own command, which tells of a
companion. -/
def State.mayTrain (s : State) (i : Nat) : Bool :=
  s.boot.stage = 5 && !s.pins.nodeReset && decide (i < 18) &&
    (i = 10 || i = 11 || i = 14 || i = 17 || [10, 11, 14, 17].all fun j => (s.link j).active || s.linkDown j)

/-- DETECT: receiver termination sensed on every physical lane. -/
def execLinkDetect (link : Fin 19) (sensed : Bool) (s : State) : Answer :=
  let l := s.link link.val
  .next (if sensed && (l.state == .detect || l.state == .retraining || (l.state == .reset && s.mayTrain link.val)) then s.setLink link.val { l with state := .lock } else s)

/-- LOCK: lanes with more than 16 bit errors fail; both directions locked lead to DESKEW, too few lanes to
a link down (R269, R282). -/
def execLinkLock (d : LinkDir) (errors : List (BitVec 8 × BitVec 16)) (s : State) : Answer :=
  let i := d.link.val
  .next (if (s.link i).state == .lock then
      let e := s.linkEnd d
      let bad := fun (p : Nat) => e.failedLanes.contains p || errors.any fun x => x.1.toNat = p && decide (16 < x.2.toNat)
      let s := s.setEnd d { e with locked := true, failedLanes := (List.range (linkLanes i + linkSpares i)).filter bad }
      if s.lanesLost i then s.declareDown i
      else if (s.linkEnd (dirBack d)).locked then s.modLink i fun l => { l with state := .deskew } else s
    else s)

/-- DESKEW: to CAPS, which a retrain skips. -/
def execLinkDeskew (link : Fin 19) (aligned : Bool) (s : State) : Answer :=
  let l := s.link link.val
  .next (if aligned && l.state == .deskew then s.setLink link.val { l with state := if l.trained then .credit else .caps } else s)

/-- The intersection of two ends' CAP0 (R281); none where the link may not run. SNP is kept only between a
caching agent and a home. -/
def capIntersect (a b : Nat) : Option Nat :=
  let both := field a 0 32 &&& field b 0 32
  let roles := (a.testBit 21 && b.testBit 22) || (b.testBit 21 && a.testBit 22)
  let vcm := if roles then field both 24 8 else field both 24 8 &&& 0xFD
  let min := fun (x y : Nat) => if x < y then x else y
  if field a 60 4 ≠ field b 60 4 ∨ vcm &&& 0x3D ≠ 0x3D then none
  else some (field a 60 4 <<< 60 ||| (min (field a 56 4) (field b 56 4)) <<< 56 ||| field b 48 8 <<< 48
    ||| (min (field a 40 8) (field b 40 8)) <<< 40 ||| (min (field a 36 4) (field b 36 4)) <<< 36
    ||| vcm <<< 24 ||| both % 2 ^ 23)

/-- A requested window word is granted where an allowed window of OD 7020h/03 to /0A covers it, with the
rights ANDed, and never over registers but block 8 (R285). -/
def State.grantWindow (s : State) (w : W64) : Option W64 :=
  let x := w.toNat
  let lo := field x 30 18
  let hi := lo + field x 12 18
  let regs := decide (lo < 0x110000000000 / 2 ^ 30) && decide (0x100000000000 / 2 ^ 30 < hi)
  let block8 := decide (0x101000000000 / 2 ^ 30 ≤ lo) && decide (hi ≤ 0x101200000000 / 2 ^ 30)
  if field x 62 2 ≠ 1 ∨ field x 12 18 = 0 ∨ (regs && !block8) then none
  else ((List.range 8).findSome? fun i =>
    let a := inForce s 0x7020 (3 + i)
    if a ≠ 0 ∧ field a 62 2 = 0 ∧ field a 30 18 ≤ lo ∧ hi ≤ field a 30 18 + field a 12 18 then
      some (BitVec.ofNat 64 (x - field x 58 4 <<< 58 + (field x 58 4 &&& field a 58 4) <<< 58)) else none)

/-- What HB1 masks of the companion's CAP0 by policy: CACHING and ADDISSUE (R285). -/
def State.companionMask (s : State) (c : Nat) : Nat :=
  let c := if inForce s 0x7020 1 = 1 then c else setField c 21 1 0
  if inForce s 0x7020 2 = 1 then c else setField c 16 1 0

/-- The intersection formed, and on GL18 the windows of both sides. A link whose capabilities fail stays in
reset with its far die down (R281, R285, R286). -/
def State.formCaps (s : State) (i : Nat) (a b : CapWords) : State :=
  let l := s.link i
  let b0 := if i = 18 then s.companionMask b.cap0.toNat else b.cap0.toNat
  match (if a.windows.length ≤ 8 ∧ b.windows.length ≤ 8 then capIntersect a.cap0.toNat b0 else none) with
  | none => { s.setLink i { l with state := .reset } with dieState := sset (linkEnds.getD i (0, 0)).2 3 s.dieState }
  | some c =>
    s.setLink i { l with
      state := .credit
      caps := some (BitVec.ofNat 64 c, b.cap1)
      offered := if i = 18 then b.windows.filter (fun w => field w.toNat 62 2 = 0 && decide (field w.toNat 30 18 + field w.toNat 12 18 ≤ 4096)) else []
      granted := if i = 18 then b.windows.filterMap s.grantWindow else [] }

/-- CAPS: capability words exchanged. -/
def execLinkCaps (link : Fin 19) (a : CapWords) (b : CapWords) (s : State) : Answer :=
  .next (if (s.link link.val).state == .caps then s.formCaps link.val a b else s)

/-- The least initial credits of a channel (R276). -/
def leastCredits (i vc : Nat) : Nat :=
  match vc with
  | 0 | 1 | 2 => 32
  | 3 => 72
  | 4 | 5 => 18
  | 6 => 9
  | _ => if i < 6 then 36 else 0

/-- ACTIVE: the link reports up, on spares where it uses some; after a retrain both senders resend what is
unacknowledged and an event tells of it (R279, R282, R380). -/
def State.linkActive (s : State) (i : Nat) : State :=
  let l := s.link i
  let spared := s.sparesInUse i ≠ 0
  let again := l.trained
  let replays := l.fwd.replayCount + l.rev.replayCount
  let clean := fun (e : LinkEnd) => { e with replayCount := 0, nakSent := false }
  let s := s.setLink i { l with state := if spared then .upSpares else .up, trained := true, fwd := clean l.fwd, rev := clean l.rev }
  let e := linkEnds.getD i (0, 0)
  let s := if spared then [e.1, e.2].foldl (fun (s : State) d => if s.die d = 1 then { s with dieState := sset d 2 s.dieState } else s) s else s
  if again then
    let s := s.event { cls := 2, code := 0x20, die := e.1, location := i, data := replays }
    (s.send (.replayed i false l.fwd.replay.length)).send (.replayed i true l.rev.replay.length)
  else s

/-- CREDIT_INIT: a receiver's initial credits; both directions make the link ACTIVE. A retrain keeps the
counts. Counts below the least of R276 are no CREDIT-INIT. -/
def execCreditInit (d : LinkDir) (counts : Vector (BitVec 12) 8) (s : State) : Answer :=
  let i := d.link.val
  let c := counts.toList.map (·.toNat)
  .next (if (s.link i).state == .credit && (List.range 8).all (fun v => decide (leastCredits i v ≤ c.getD v 0)) then
      let e := s.linkEnd d
      let s := s.setEnd d { e with credited := true, credits := if (s.link i).trained then e.credits else c }
      if (s.linkEnd (dirBack d)).credited then s.linkActive i else s
    else s)

/-- TRAINING_STATE_TIMEOUT: the attempt fails; the eighth at bring-up declares the link down, a retrain goes
back to DETECT until its own limit (R269, R413). -/
def execTrainingStateTimeout (link : Fin 19) (s : State) : Answer :=
  let i := link.val
  let l := s.link i
  let training := match l.state with
    | .detect | .lock | .deskew | .caps | .credit | .retraining => true
    | _ => false
  let l' := { l with fwd := { l.fwd with locked := false, credited := false }, rev := { l.rev with locked := false, credited := false } }
  .next (if !training then s
    else if l.trained then s.setLink i { l' with state := .detect }
    else if l.attempts + 1 ≥ 8 then s.declareDown i
    else s.setLink i { l' with state := .detect, attempts := l.attempts + 1 })

/-! ### Lane errors (R271, R282, R364) -/

/-- The physical lane of a logical lane: its own unless that failed, else the good spares in ascending
logical order. -/
def physicalLane (i : Nat) (failed : List Nat) (lane : Nat) : Nat :=
  if !failed.contains lane then lane
  else
    let spares := (List.range (linkSpares i)).map (fun k => linkLanes i + k) |>.filter fun p => !failed.contains p
    spares.getD ((List.range lane).filter fun p => failed.contains p).length lane

/-- Bit errors on a logical lane in a LANECHECK flit: slots 1 to 14 hold 5Ah and A5h in turn (R268, R271). -/
def laneErrors (i : Nat) (f : BitVec 2048) (lane : Nat) : Nat :=
  (laneBytes i lane).foldl (fun (n : Nat) k =>
    if 24 ≤ k ∧ k < 248 then n + popcount (field f.toNat (8 * k) 8 ^^^ (if k % 2 = 0 then 0x5A else 0xA5)) 8 else n) 0

/-- LANECHECK: errors are counted per logical lane; more than 8 at three in a row, or 1,024 in all, retire the
physical lane, and the link retrains at once without it. Its ACK is used where its CRC is good, and a CRC
failure is an error like any other. -/
def execLaneCheck (d : LinkDir) (flit : BitVec 2048) (s : State) : Answer :=
  let i := d.link.val
  .next (if !(s.link i).active || flitKind flit ≠ 2 || controlWord flit % 256 ≠ 4 then s
    else
      let s := if flitGood flit then s.ackTaken (dirBack d) (flitAck flit) else s.linkError d
      let e := s.linkEnd d
      let errs := laneErrors i flit
      let lanes := List.range (linkLanes i)
      let totals := lanes.foldl (fun m p => if errs p = 0 then m else sput m p (sgetD m p 0 + errs p) 0) e.laneErrors
      let streaks := lanes.foldl (fun m p => sput m p (if 8 < errs p then sgetD m p 0 + 1 else 0) 0) e.laneStreak
      let high := lanes.filter fun p => decide (3 ≤ sgetD streaks p 0) || decide (1024 ≤ sgetD totals p 0)
      let bad := high.map fun p => (physicalLane i e.failedLanes p, sgetD totals p 0)
      let gone := fun (m : Sparse Nat) => high.foldl (fun m p => sdel p m) m
      let failed := (List.range (linkLanes i + linkSpares i)).filter fun p => e.failedLanes.contains p || bad.any fun x => x.1 = p
      let s := s.setEnd d { e with laneErrors := gone totals, laneStreak := gone streaks, failedLanes := failed }
      let s := bad.foldl (fun (s : State) x => s.event { cls := 4, code := 0x21, die := (dirReceiver d), location := 256 * i + x.1, data := x.2 }) s
      if bad = [] then s
      else if s.lanesLost i then s.declareDown i
      else s.startRetrain i (some (dirBack d)))

/-! ### Request timers (R280) -/

/-- REQUEST_TIMEOUT: 2 ms with every link of the route up; the requester completes the request with poison. -/
def execRequestTimeout (source : RequestSource) (txid : BitVec 12) (s : State) : Answer :=
  let hit := fun (r : PkgRequest) => r.ncr = source.ncr && r.src = source.src.val && r.txid = txid.toNat && !r.expired
  .next (match s.pkgRequests.find? hit with
    | none => s
    | some r =>
      let route := routeLinks r.fromDie r.toDie
      if !route.all (fun l => (s.link l).active) then s
      else
        let s := { s with pkgRequests := modFirst hit (fun r => { r with expired := true }) s.pkgRequests }
        ((s.count 0x7005 1 1).send (.requestPoisoned source.ncr r.src r.txid)).event { cls := 3, code := 0x23, die := r.fromDie, location := route.headD 0, data := r.txid })

/-! ### The ford (R283) -/

def fordLink (d : LinkDir) : Bool := d.link.val < 6

/-- FORD_ENGAGE: the threshold was passed; OD 7010h/02 turns the ford off. -/
def execFordEngage (d : LinkDir) (s : State) : Answer :=
  .next (if fordLink d && (s.link d.link.val).active && setting s 0x7010 2 ≠ 0 then
      s.setEnd d { s.linkEnd d with forded := true } else s)
def execFordDisengage (d : LinkDir) (s : State) : Answer := .next (s.setEnd d { s.linkEnd d with forded := false })

/-- FRD: a message whose sender's direct link is forded goes through the chosen die, in FRD slots, and from
there to its destination in that link's RSP or DAT channel; it is never forded again. -/
def execLinkFrd (d : LinkDir) (dst : Fin 4) (msg : Message) (s : State) : Answer :=
  let via := dirReceiver d
  let vc := if (msgHeader msg.header).sect = 0 then 2 else 3
  let n := 1 + msg.slots.length
  .next (match dirOf via dst.val with
    | none => s
    | some o =>
      let e := s.linkEnd d
      let x := s.linkEnd o
      if (s.link d.link.val).active && (s.link o.link.val).active && s.fordVia (dirSender d) dst.val = some via &&
          decide (n + 1 ≤ e.credits.getD 7 0) && decide (n ≤ x.credits.getD vc 0) then
        let s := s.setEnd d ({ e with credits := e.credits.set 7 (e.credits.getD 7 0 - (n + 1)) }.owe 7 (n + 1))
        let s := s.setEnd o ({ x with credits := x.credits.set vc (x.credits.getD vc 0 - n) }.owe vc n)
        (s.count 0x7010 3 1).noteMessage vc dst.val msg
      else s)

/-! ### Non-coherent messages (R274, R275, R285) -/

/-- The partition a die lies in, where it lies in one (R53).
(DEDUCED, log 127.) -/
def State.diePart (s : State) (d : Nat) : Option Nat :=
  if s.parts = 1 then some 0
  else if d < 4 ∧ s.parts ≤ 4 then some (2 * d / (8 / s.parts))
  else if (d = 4 ∨ d = 5) ∧ s.parts = 2 then some (d - 4)
  else none

/-- Whether a die may reach a register: the companion only what lies in block 8 and in a granted window
with the right, bit 58 for a read and bit 59 for a write (R285). -/
def State.registerAllowed (s : State) (src addr right : Nat) : Bool :=
  src ≠ 8 || (decide (0x101000000000 ≤ addr) && decide (addr < 0x101200000000) &&
    (s.link 18).granted.any fun w => windowCovers w addr && w.toNat.testBit right)

/-- A register access of a die: refused to the companion beyond its rights, CMPE status 03h; CMPE status 01h
where no link leads to the register's die (R14, R279); else the access. -/
def State.ncrAccess (s : State) (src addr right : Nat) (f : State → State) : State :=
  if !s.registerAllowed src addr right then (s.count 0x7021 3 1).send (.cohMessage 2 5 11 12 addr (arg := 3))
  else if !s.windowReached src (window addr) then s.send (.cohMessage 2 5 src src addr (arg := 1))
  else f s

def execNcrRegisterRead (src : Fin 9) (addr : BitVec 48) (width : BitVec 4) (s : State) : Answer :=
  .next (s.ncrAccess src.val addr.toNat 58 fun s =>
    let (s, v) := s.readAt .node addr.toNat width.toNat
    s.send (.registerRead (BitVec.ofNat 64 v)))

def execNcrRegisterWrite (src : Fin 9) (addr : BitVec 48) (width : BitVec 4) (value : BitVec 64) (s : State) : Answer :=
  .next (s.ncrAccess src.val addr.toNat 59 fun s => s.writeAt .node (s.diePart src.val) addr.toNat width.toNat value.toNat)

/-- A ferry slot's bytes, and a queue's commit: the slot of the handle becomes committed at the tail of the
queue (R34, R274). -/
def execNcrScratchpadWrite (cl : Fin 512) (off : BitVec 19) (data : Bytes) (commit : Option FerryCommit) (s : State) : Answer :=
  let c := s.cluster cl.val
  .next (
    if data.length > 128 ∨ data.length % 32 ≠ 0 ∨ off.toNat + data.length > c.spadSize then s
    else
      let s := s.setCluster cl.val (c.spadWrite off.toNat data)
      match commit with
      | none => s
      | some m => s.modKernel m.kernel fun kn =>
        (match kn.man.ferries[m.ferry.val]? with
         | none => kn
         | some f =>
           let x := kn.fq m.ferry.val m.queue.val
           (match kn.slotIndex m.ferry.val f m.handle.toNat with
            | none => kn
            | some i => (match x.slots[i]? with
              | some (.reserved _) => if kn.queueCluster f m.queue.val = cl.val then
                  kn.setFq m.ferry.val m.queue.val { x with slots := x.slots.set i .committed, fifo := x.fifo ++ [m.handle] } else kn
              | _ => kn))))

/-- An interrupt message sets its source's pending bit (R336). -/
def execNcrInterrupt (_src : Fin 9) (source : Fin 1024) (s : State) : Answer := .next (s.raise source.val)

/-- NCP: the request it answers is complete; late ones are discarded (R280). -/
def execNcp (die : Fin 9) (txid : BitVec 12) (data : BitVec 64) (s : State) : Answer :=
  let hit := fun (x : PkgRequest) => x.src = die.val && x.ncr && x.txid = txid.toNat
  .next (match s.pkgRequests.find? hit with
    | none => s
    | some r =>
      if r.expired then s.count 0x7005 2 1
      else { s with pkgRequests := s.pkgRequests.filter fun x => !hit x }.send (.registerRead data))

end Sys2Proof.Machine
end

