-- ==== Sys2Proof/Machine/Net.lean ====
section
/-! DEFINITION. The crossing transport's packets as they arrive (R294 to R302, R305, R309, R312, R313, R317),
its timers (R296, R298, R300), and the Ethernet ports (R288 to R292). -/
namespace Sys2Proof.Machine

/-! ### Sub-ports (R288, R291, R292) -/

def subKey (sp : SubPort) : Nat := 4 * sp.port.val + sp.sub.val
/-- Whether a sub-port has its link. -/
def SubPortState.linked (x : SubPortState) : Bool :=
  match x.state with
  | .held | .up | .narrowed => true
  | _ => false
/-- Port state as OD 5002h reads it (R318): of a port's sub-ports, the one that is furthest up (DEDUCED, log 59). -/
def State.portCode (s : State) (p : Nat) : Nat :=
  (List.range 4).foldl (fun m j =>
    let c := match (s.subport (4 * p + j)).state with
      | .down => 0 | .training => 1 | .held => 2 | .up => 3 | .narrowed => 4
    if c > m then c else m) 0

/-- A sub-port loses its link and leaves every spray set; some of its transmit queue has gone out and is
recovered by retransmission (R292). -/
def State.portDown (s : State) (k : Nat) : State :=
  if (s.subport k).linked then (s.modSubport k fun x => { x with state := .down, lost := true }).drainPort k else s
/-- PORT_LINK_LOSS: what was still queued moves to other ports, or waits. -/
def State.linkLost (s : State) (k : Nat) : State := if (s.subport k).linked then (s.portDown k).moveQueue k else s
def execPortLinkLoss (sp : SubPort) (s : State) : Answer := .next (s.linkLost (subKey sp))

/-- PORT_LINK_UP: up but held. A regained link is an event. A sub-port without lanes, or whose lane is
retired and narrowed away, has no link; none has without the 156.25 MHz reference. -/
def execPortLinkUp (sp : SubPort) (s : State) : Answer :=
  let k := subKey sp
  let x := s.subport k
  let lanes := if x.narrowed then x.lanes else (s.modeLanes k).filter fun l => !s.net.retiredLanes.contains l
  .next (if x.linked || lanes.isEmpty || !s.net.reference || (s.modeLanes k).isEmpty then s
    else
      let s := s.setSubport k { x with state := .held, lost := false, lanes := lanes, address := BitVec.ofNat 128 (setting s 0x5010 (k / 24 + 1)) }
      if x.lost then s.event { cls := 2, code := 0x31, die := 6 + k / 24, location := k / 4 } else s)

/-- PORT_HOLD_EXPIRY: the sub-port enters the spray sets, and waiting packets go. -/
def execPortHoldExpiry (sp : SubPort) (s : State) : Answer :=
  let k := subKey sp
  .next (if (s.subport k).state == .held then
      (s.modSubport k fun x => { x with state := if x.narrowed then .narrowed else .up }).pumpAll
    else s)

/-- The lanes a sub-port keeps when one of its lanes is retired (R291). -/
def keptLanes (lanes : List Nat) (lane : Nat) : List Nat :=
  if lanes.length = 4 then (if lane % 4 < 2 then lanes.drop 2 else lanes.take 2) else lanes.filter fun l => l ≠ lane

/-- NETWORK_LANE_RETIRE: cause 0 codewords, 1 symbol errors. The port narrows and trains again, or goes down
with its last lane. -/
def execNetworkLaneRetire (lane : Fin 48) (cause : Fin 2) (s : State) : Answer :=
  .next (if s.net.retiredLanes.contains lane.val then s
    else
      let s := { s with net := { s.net with retiredLanes := s.net.retiredLanes ++ [lane.val] } }
      let s := s.event { cls := 4, code := 0x30, die := 6 + lane.val / 24, location := lane.val, data := cause.val + 1 }
      (List.range 4).foldl (fun (s : State) j =>
        let k := lane.val / 4 * 4 + j
        let x := s.subport k
        let has := if x.lanes.isEmpty then s.modeLanes k else x.lanes
        if !has.contains lane.val then s
        else
          let kept := keptLanes has lane.val
          ((s.setSubport k { x with lanes := kept, narrowed := true, state := if kept.isEmpty then .down else .training }).drainPort k).moveQueue k) s)

/-- Take a sub-port's LLDP neighbour (R290, R292): a change from one neighbour to another is counted.
(DEDUCED, log 126.) -/
def execLldpFrame (sp : SubPort) (chassis : Bytes) (portId : Bytes) (s : State) : Answer :=
  let k := subKey sp
  let x := s.subport k
  .next (if !x.linked then s
    else
      let s' := s.setSubport k { x with neighbour := some (chassis, portId) }
      if x.neighbour.isSome ∧ x.neighbour ≠ some (chassis, portId) then s'.count 0x5003 (sp.port.val + 1) 1 else s')

/-- A decimal digit, or two, in ASCII. -/
def decimal (n : Nat) : Bytes := if n < 10 then [BitVec.ofNat 8 (0x30 + n)] else [BitVec.ofNat 8 (0x30 + n / 10), BitVec.ofNat 8 (0x30 + n % 10)]
/-- A port's name: P3 for the one sub-port of a port that runs as one, else P3.1 (R288, R290). -/
def State.portName (s : State) (sp : SubPort) : Bytes :=
  0x50 :: decimal sp.port.val ++ (if inForce s 0x5001 (sp.port.val + 1) = 0 then [] else 0x2E :: decimal sp.sub.val)

/-- LLDP_TRANSMIT: chassis ID, port ID and a TTL of 4 s (R290). -/
def execLldpTransmit (sp : SubPort) (s : State) : Answer :=
  .next (if (s.subport (subKey sp)).linked then s.send (.lldp sp.port.val sp.sub.val Config.serialNumber (s.portName sp) 4) else s)

/-- A hub's node address as a sub-port of it answers to. -/
def State.answersTo (s : State) (sp : SubPort) (a : BitVec 128) : Bool :=
  (s.subport (subKey sp)).linked && a ≠ 0 && (s.subport (subKey sp)).address = a

def execNeighborSolicitation (sp : SubPort) (target : BitVec 128) (_sender : BitVec 128) (s : State) : Answer :=
  .next (if s.answersTo sp target then s.send (.neighbourAdvertisement sp.port.val sp.sub.val target) else s)

def execRouterAdvertisement (sp : SubPort) (mac : BitVec 48) (s : State) : Answer :=
  .next (if (s.subport (subKey sp)).linked then s.modSubport (subKey sp) fun x => { x with nextHop := some mac } else s)

/-- ECHO_REQUEST: a held port carries none (R292). -/
def execEchoRequest (sp : SubPort) (dst : BitVec 128) (src : BitVec 128) (data : Bytes) (s : State) : Answer :=
  .next (if s.answersTo sp dst && (s.subport (subKey sp)).state != .held then s.send (.echoReply sp.port.val sp.sub.val dst src data) else s)

def execPauseFrame (_sp : SubPort) (s : State) : Answer := .next (s.count 0x5020 0xC 1)

/-- PEER_CAPPED clears 1 ms after the last CAPE packet (R317). -/
def execPeerCappedExpiry (grp : Fin 4096) (s : State) : Answer :=
  .next (if (s.groupEntry grp.val).testBit 14 then s.modGroupEntry grp.val fun e => setField e 14 1 0 else s)

/-- Every network port loses its link with the reference (R425), and may train again when it returns. -/
def execNetworkReferenceLoss (s : State) : Answer :=
  let s := (List.range 48).foldl (fun (s : State) k => s.portDown k) { s with net := { s.net with reference := false } }
  .next (s.strandedPorts.foldl (fun (s : State) k => s.moveQueue k) s)
def execNetworkReferenceReturn (s : State) : Answer :=
  .next (if s.net.reference then s
    else (List.range 48).foldl (fun (s : State) k =>
      if (s.subport k).lost then s.modSubport k fun x => { x with state := .training } else s) { s with net := { s.net with reference := true } })

/-! ### Arrival of a packet (R290, R294, R309, R317) -/

/-- The header's values are ones of R294 and R295, its Reserved fields zero, and its payload has LEN bytes
(a GET's LEN is what it asks for). -/
def nctWellFormed (h : Nat) (payload : Bytes) : Bool :=
  let op := nctOp h
  let kindOk := match nctKind h with
    | 0 => op = 1 || op = 2 || op = 4 || (6 ≤ op && op ≤ 0xC)
    | 1 => op = 3 || op = 5 || op = 0x11
    | 2 => op = 0x10
    | 3 => op = 0x20
    | _ => false
  field h 380 4 = 1 && kindOk && field h 360 3 = 0 && field h 352 8 = 0 && field h 288 16 = 0 && field h 224 3 = 0
    && field h 96 16 = 0 && decide (nctLen h ≤ 4096)
    && (if op = 2 then payload.isEmpty else decide (payload.length = nctLen h))

/-- Whether a packet is let in: management with sailing 0, else by its group entry (R309).
(DEDUCED, log 123.) -/
def State.sailingAccepts (s : State) (h : Nat) : Bool :=
  let e := s.groupEntry (nctGroup h)
  let k := nctKind h
  (nctSailing h = 0 && k = 3) || (grpSailing e = nctSailing h && (grpState e = 1 || (grpState e = 2 && (k = 1 || k = 2))))

/-- Count a packet no entry accepts: late for each partition whose previous sailing it names, else of an
unknown sailing (R309). A previous sailing of zero names none.
(DEDUCED, log 121.) -/
def State.countDiscard (s : State) (sailing : Nat) : State :=
  let ps := (List.range 8).filter fun p => sailing ≠ 0 && s.counter 0x5042 (p + 1) = sailing
  if ps = [] then s.count 0x5020 6 1 else ps.foldl (fun s p => s.count 0x5041 (p + 1) 1) s

/-- CAPE of an accepted packet of a group (R317, R395). -/
def State.noteCape (s : State) (h : Nat) : State :=
  if (nctFlags h).testBit 4 && nctKind h ≠ 3 then
    s.modGroupEntry (nctGroup h) fun e => setField (setField e 14 1 1) 271 17 (nctSrc h)
  else s

/-- The flow a packet belongs to at the hub of the port it arrived on. -/
def packetFlow (port h : Nat) : Nat := flowKey (port / 6) (nctGroup h) (nctSrc h)

/-- The packet met congestion on its way. -/
def congested (pkt : NctIn) : Bool := pkt.ecn = 3

/-- Whether a frame has the form of R290: of what the rule gives a sent frame, the hop limit may have fallen on
the way and ECN may be marked; a management client picks its own source port (R395; DEDUCED, log 160). -/
def State.frameOk (s : State) (pkt : NctIn) : Bool :=
  let h := pkt.header.toNat
  let k := nctKind h
  pkt.wellFormed && pkt.hopLimit ≠ 0 && decide (pkt.hopLimit.toNat ≤ 64)
    && decide (pkt.flowLabel.toNat = (nctPsn h ^^^ field h 304 16) % 2 ^ 20)
    && decide (pkt.dscp.toNat = setting s 0x5010 (if k ≤ 1 then 4 else 5)) && (decide (1 < k) || decide (2 ≤ pkt.ecn.toNat))
    && decide (pkt.udpDst.toNat = setting s 0x5010 3) && (k = 3 || decide (pkt.udpPort.toNat = 0xC000 + nctPsn h % 0x4000))

/-- Whether the sub-port a packet arrives on carries it: one that is up, or for management of sailing 0 one
that is held (R292). -/
def State.arrivesAt (s : State) (port : Fin 12) (pkt : NctIn) : Bool :=
  match (s.subport (4 * port.val + pkt.sub.val)).state with
  | .up | .narrowed => true
  | .held => nctKind pkt.header.toNat = 3 && nctSailing pkt.header.toNat = 0
  | .down | .training => false

/-- A packet of kind and operation `op` arrives: frames that fail R290 or R294 are discarded and counted, a
packet of another operation is not this command's, others are admitted by sailing.
(DESIGN CHOICE, log 122.) -/
def State.admitPacket (s : State) (port : Fin 12) (pkt : NctIn) (op : Nat) (f : State → Nat → Nat → State) : State :=
  let h := pkt.header.toNat
  if !s.arrivesAt port pkt then s
  else
    let s := s.count 0x5020 2 1
    if !s.frameOk pkt || !nctWellFormed h pkt.payload then s.count 0x5020 7 1
    else if nctOp h ≠ op then s
    else if !s.sailingAccepts h then s.countDiscard (nctSailing h)
    else f (s.noteCape h) (packetFlow port.val h) h

/-! ### PSNs (R296, R297, R300) -/

/-- What becomes of a request or response in the window. -/
inductive Handled where
  /-- performed: it counts as received -/
  | done (s : State)
  /-- neither performed nor acknowledged -/
  | hold (s : State)
  /-- not performed, answered with ERROR (R302) -/
  | error (s : State) (status : Nat)

/-- Move the cumulative PSN past what is recorded. -/
def settleCum : Nat → BitVec 32 → List (BitVec 32) → BitVec 32 × List (BitVec 32)
  | 0, c, l => (c, l)
  | fuel + 1, c, l => if l.contains (c + 1) then settleCum fuel (c + 1) (l.filter fun p => p ≠ c + 1) else (c, l)

/-- Record a PSN as received; an ACK goes at the sixteenth packet, and at once for one out of order. -/
def State.recordPsn (s : State) (fk : Nat) (psn : BitVec 32) : State :=
  let f := s.flow fk
  let (c, l) := settleCum (f.recorded.length + 1) f.cum (f.recorded ++ [psn])
  let s := s.setFlow fk { f with cum := c, recorded := l, sinceAck := f.sinceAck + 1, receiving := true }
  if f.sinceAck + 1 ≥ 16 ∨ psn ≠ f.cum + 1 then s.sendAck fk else s

/-- Whether a hub can hold the receive state a packet needs (R300). -/
def State.flowRoom (s : State) (fk : Nat) (gap : Bool) : Bool :=
  let mine := s.net.flows.filter fun e => flowHub e.1 = flowHub fk && e.2.receiving
  ((s.flow fk).receiving || decide (mine.length < 262144))
    && (!gap || !(s.flow fk).recorded.isEmpty || decide ((mine.filter fun e => !e.2.recorded.isEmpty).length < 4096))

/-- The next ACK of a flow covers a packet that met congestion (R296). -/
def State.noteCe (s : State) (fk : Nat) (ce : Bool) : State := if ce then s.modFlow fk fun f => { f with sawCe := true } else s

/-- Handle an accepted request or response by its PSN; `again` is what a duplicate does beside being
counted and acknowledged. -/
def State.byPsn (s : State) (fk h : Nat) (ce : Bool) (again : State → State) (perform : State → Handled) : State :=
  let psn : BitVec 32 := BitVec.ofNat 32 (nctPsn h)
  let f := s.flow fk
  let d := (psn - f.cum).toNat
  if d = 0 ∨ d ≥ 2 ^ 31 ∨ f.recorded.contains psn then ((again (s.count 0x5020 4 1)).noteCe fk ce).sendAck fk
  else if d > 4096 then s.count 0x5020 7 1
  else if !s.flowRoom fk (d ≠ 1) then s.count 0x5020 8 1
  else
    match perform s with
    | .done s => (s.noteCe fk ce).recordPsn fk psn
    | .hold s => s
    | .error s status => ((s.respond fk 0x11 ((nctPsn h) <<< 32 ||| status) []).noteCe fk ce).recordPsn fk psn

/-! ### What requests do (R295, R302, R304, R305) -/

/-- A packet's target in a key's region, or the ERROR status. `right` is the bit of the key's right. -/
def State.keyTarget (s : State) (h right : Nat) : Except Nat Nat :=
  let i := nctKey h % 65536
  let e := s.keyEntry i
  let n := nctLen h
  let a := keyBase e + nctAddr h
  if i ≥ 16384 ∨ !keyValid e ∨ keyEpoch e ≠ nctKey h / 65536 ∨ keySailing e ≠ nctSailing h ∨ keyPart e ≠ grpPart (s.groupEntry (nctGroup h)) then .error 1
  else if nctAddr h + n > keySize e then .error 2
  else if !e.testBit right then .error 3
  else if n ≠ 0 ∧ ((s.keyAddr a).isNone ∨ (s.keyAddr (a + n - 1)).isNone) then .error 4
  else .ok a

/-- A tally a packet names in the kernel bound to its group: none bound, an ERROR, or the physical tally. -/
inductive TallyTarget where
  | unbound
  | bad
  | none
  | tally (die i : Nat)
  deriving DecidableEq, Repr

def State.packetTally (s : State) (h : Nat) (always : Bool) : TallyTarget :=
  if !always ∧ !(nctFlags h).testBit 7 then .none
  else match s.boundKernel (nctGroup h) with
    | none => .unbound
    | some (_, kn) => match kn.tallyOf (nctTally h) 4 with
      | some (d, i) => .tally d i
      | none => .bad

/-- Run a request that may count a tally: held and counted without a bound kernel (R305). -/
def State.withTally (s : State) (h : Nat) (always : Bool) (f : State → Option (Nat × Nat) → Handled) : Handled :=
  match s.packetTally h always with
  | .unbound => .hold (s.count 0x5020 9 1)
  | .bad => .error s 7
  | .none => f s none
  | .tally d i => f s (some (d, i))

def State.tallyBy (s : State) (t : Option (Nat × Nat)) (n : Nat) : State :=
  match t with
  | some (d, i) => s.tallyInc d i n
  | none => s

def execNctPut (port : Fin 12) (pkt : NctIn) (s : State) : Answer :=
  .next (s.admitPacket port pkt 1 fun s fk h => s.byPsn fk h (congested pkt) id fun s =>
    match s.packetTally h false with
    | .unbound => .hold (s.count 0x5020 9 1)
    | _ => match s.keyTarget h 250 with
      | .error e => .error s e
      | .ok a => s.withTally h false fun s t =>
        match s.hubWriteRange (10 + flowHub fk) a pkt.payload with
        | none => .hold s
        | some s => .done (s.tallyBy t pkt.payload.length))

/-- Whether a hub keeps as many unacknowledged responses as it may (R301). -/
def State.responsesFull (s : State) (fk : Nat) : Bool := decide (16384 ≤ s.responsesOf (flowHub fk))

/-- DEDUCED, log 125. -/
def execNctGet (port : Fin 12) (pkt : NctIn) (s : State) : Answer :=
  .next (s.admitPacket port pkt 2 fun s fk h => s.byPsn fk h (congested pkt) id fun s =>
    if s.responsesFull fk then .hold (s.count 0x5020 8 1)
    else match s.keyTarget h 251 with
      | .error e => .error s e
      | .ok a => match s.hubReadRange (10 + flowHub fk) a (nctLen h) with
        | none => .hold s
        | some (s, b, poison, tomb) =>
          if poison || tomb then .error s 5 else .done (s.respond fk 3 (nctArg h % 2 ^ 32) b))

/-- A duplicate ATOMIC re-sends the kept result (R301). -/
def State.resendKept (s : State) (fk opid : Nat) : State :=
  match (s.flow fk).unacked.find? (fun p => p.op.isNone && nctOp p.header.toNat = 5 && nctArg p.header.toNat % 2 ^ 32 = opid) with
  | some p => s.resend fk p false
  | none => s

def execNctAtomic (port : Fin 12) (pkt : NctIn) (s : State) : Answer :=
  .next (s.admitPacket port pkt 4 fun s fk h =>
    let arg := nctArg h
    let opid := arg % 2 ^ 32
    s.byPsn fk h (congested pkt) (fun s => s.resendKept fk opid) fun s =>
      let op := field arg 60 4
      let fmt := field arg 56 4
      let fetch := arg.testBit 55
      let n := adderSize fmt
      if s.responsesFull fk then .hold (s.count 0x5020 8 1)
      else match s.keyTarget h 249 with
        | .error e => .error s e
        | .ok a => match s.keyAddr a with
          | none => .error s 4
          | some k =>
            if pkt.payload.length ≠ (if op = 7 then 2 * n else n) then .error s 6
            else match s.adderAtomic (10 + flowHub fk) k op fmt (le pkt.payload 0 n) (le pkt.payload n n) with
              | none => .hold s
              | some (s, .error) => .error s 6
              | some (s, .poison) => if fetch then .error s 5 else .done (s.respond fk 5 opid [])
              | some (s, .old v) => .done (s.respond fk 5 opid (if fetch then toLE n v else [])))

/-- Apply a REDUCE-PUT's line parts: none where a line is busy. Bytes of a part that met poison are not
applied and not counted (R189, R213). -/
def State.reduceParts (s : State) (agent op fmt a : Nat) (b : Bytes) : Option (State × Nat) :=
  (lineParts (b.length / 128 + 2) a b.length).foldl (fun acc (p, n) => acc.bind fun (s, count) =>
    match s.keyAddr p with
    | none => some (s, count)
    | some k => (s.adderReduce agent k op fmt (slice b (p - a) n)).map fun (s, r) =>
      (s, match r with | .old _ => count + n | _ => count)) (some (s, 0))

def execNctReducePut (port : Fin 12) (pkt : NctIn) (s : State) : Answer :=
  .next (s.admitPacket port pkt 6 fun s fk h => s.byPsn fk h (congested pkt) id fun s =>
    let op := field (nctArg h) 60 4
    let fmt := field (nctArg h) 56 4
    match s.packetTally h false with
    | .unbound => .hold (s.count 0x5020 9 1)
    | _ => match s.keyTarget h 249 with
      | .error e => .error s e
      | .ok a =>
        let parts := lineParts (pkt.payload.length / 128 + 2) a pkt.payload.length
        if op > 5 ∨ !parts.all (fun x => reduceOk x.1 op fmt x.2) then .error s 6
        else s.withTally h false fun s t =>
          match s.reduceParts (10 + flowHub fk) op fmt a pkt.payload with
          | none => .hold s
          | some (s, n) => .done (s.tallyBy t n))

def execNctTadd (port : Fin 12) (pkt : NctIn) (s : State) : Answer :=
  .next (s.admitPacket port pkt 7 fun s fk h => s.byPsn fk h (congested pkt) id fun s =>
    s.withTally h true fun s t => .done (s.tallyBy t (nctArg h)))

/-! ### Long ferries (R312, R313) -/

/-- The IN end a TAG names: unknown, ended, failed as a whole, or a live one with its kernel and ferry. -/
inductive InTarget where
  | unknown
  | gone
  | failed
  | live (e : InEnd) (kn : Kernel) (f : Ferry)

def State.inTarget (s : State) (g tag : Nat) : InTarget :=
  match s.net.inEnds.find? (fun e => e.group = g && e.tag = tag) with
  | none => if s.net.goneTags.contains (g, tag) then .gone else .unknown
  | some e =>
    if e.failed then .failed
    else match s.kernel? e.kernel with
      | none => .gone
      | some kn => match kn.man.ferries[e.ferry]? with
        | some f => if kn.phase = .aborted then .gone else .live e kn f
        | none => .gone

def argQueue (h : Nat) : Nat := field (nctArg h) 55 9
def argTseq (h : Nat) : Nat := field (nctArg h) 32 16

/-- The hub as the holder of a slot that is being filled. -/
def hubHolder : Nat := 2 ^ 20

/-- Commit the tiles of a queue that are complete, in TSEQ order (R313, R36). -/
def commitTiles : Nat → FerryQueue → FerryQueue
  | 0, x => x
  | fuel + 1, x =>
    match x.partialTiles.find? (fun t => t.tseq = x.tiles % 65536 && t.total = some t.got) with
    | none => x
    | some t => commitTiles fuel { x with
        tiles := x.tiles + 1
        fifo := x.fifo ++ [t.handle]
        slots := x.slots.set t.slot .committed
        partialTiles := x.partialTiles.filter fun y => y.tseq ≠ t.tseq }

/-- TILE: the fragment goes into its tile's slot, a free one at the tile's first fragment. -/
def execNctTile (port : Fin 12) (pkt : NctIn) (s : State) : Answer :=
  .next (s.admitPacket port pkt 8 fun s fk h => s.byPsn fk h (congested pkt) id fun s =>
    match s.inTarget (nctGroup h) (nctKey h) with
    | .unknown => .hold s
    | .gone | .failed => .error s 8
    | .live e kn f =>
      let q := argQueue h
      let off := 256 * field (nctArg h) 16 16
      let x := kn.fq e.ferry q
      if q ≥ kn.queueCount f then .error s 8
      else if off + nctLen h > 256 * f.tileSize then .error s 2
      else
        let known := x.partialTiles.find? fun t => t.tseq = argTseq h
        let pick := match known with
          | some t => (s, some t.slot)
          | none => s.chooseFree ((List.range f.capacity).filter fun i => x.slots[i]? = some .free)
        match pick with
        | (s, none) => .hold s
        | (s, some i) =>
          let unit := kn.slotUnit e.ferry f i
          let hd := BitVec.ofNat 64 (setField (setField (nctAddr h) 0 11 unit) 54 6 0)
          let old : PartialTile := known.getD { tseq := argTseq h, slot := i, handle := hd, got := 0, total := none }
          let t : PartialTile := { old with
            got := old.got + nctLen h
            total := if (nctFlags h).testBit 6 then some (off + nctLen h) else old.total }
          let y := commitTiles (x.partialTiles.length + 1) { x with
            slots := x.slots.set i (.reserved hubHolder)
            partialTiles := x.partialTiles.filter (fun (z : PartialTile) => z.tseq ≠ t.tseq) ++ [t] }
          let s := s.modCluster (kn.queueCluster f q) fun c => c.spadWrite (256 * unit + off) pkt.payload
          .done (s.modKernel e.kernel fun kn => kn.setFq e.ferry q y))

/-- The OUT end of a running kernel that a TAG of a group names. -/
def State.outEnd (s : State) (g tag : Nat) : Option (Nat × Nat) :=
  s.kernels.findSome? fun (id, kn) =>
    if kn.phase ≠ .running then none
    else (kn.man.ferries.zipIdx).findSome? fun (f, i) =>
      if f.isOut ∧ f.tag = tag ∧ kn.man.netgroups.getD f.netgroup 0 = g then some (id, i) else none

/-- CREDIT: the OUT end's queue holds that many more. One for an IN end that has ended is answered with
ERROR FERRY_GONE; one that no OUT end awaits has no effect. -/
def execNctCredit (port : Fin 12) (pkt : NctIn) (s : State) : Answer :=
  .next (s.admitPacket port pkt 9 fun s fk h => s.byPsn fk h (congested pkt) id fun s =>
    let g := nctGroup h
    let tag := nctKey h
    match s.outEnd g tag with
    | some (id, fi) => .done (s.modKernel id fun kn =>
        let x := kn.fq fi (argQueue h)
        if argQueue h < x.slots.length + 512 ∧ (sget? (ferryKey fi (argQueue h)) kn.ferries).isSome then
          kn.setFq fi (argQueue h) { x with credits := some (x.credits.getD 0 + nctArg h % 2 ^ 32), matched := true }
        else kn)
    | none => match s.inTarget g tag with
      | .gone | .failed => .error s 8
      | .unknown | .live .. => .done s)

/-- An IN end fails as a whole: every queue's FYPOP fails, and later packets find it gone (R312). -/
def State.failInEnd (s : State) (e : InEnd) : State :=
  let s := { s with net := { s.net with inEnds := s.net.inEnds.map fun x => if x = e then { x with failed := true } else x } }
  s.modKernel e.kernel fun kn => { kn with ferries := kn.ferries.map fun q => if q.1 / 512 = e.ferry then (q.1, { q.2 with gone := true }) else q }

/-- CONNECT: the queue is matched and gets CAPACITY credits; one that does not fit fails the IN end. A TAG that
no IN end has registered, or whose IN end has ended, leaves it to be retried. -/
def execNctConnect (port : Fin 12) (pkt : NctIn) (s : State) : Answer :=
  .next (s.admitPacket port pkt 0xA fun s fk h => s.byPsn fk h (congested pkt) id fun s =>
    match s.inTarget (nctGroup h) (nctKey h) with
    | .unknown => .hold s
    | .gone => .hold s
    | .failed => .error s 8
    | .live e kn f =>
      let q := argQueue h
      if nctArg h % 256 ≠ f.capacity ∨ field (nctArg h) 32 10 ≠ kn.queueCount f ∨ q ≥ kn.queueCount f then
        .error (s.failInEnd e) 8
      else
        let s := s.modKernel e.kernel fun kn => kn.setFq e.ferry q { kn.fq e.ferry q with matched := true, peer := nctSrc h }
        .done (s.ferrySend e.kernel e.ferry q (nctSrc h) 9 f.capacity none))

def execNctEnd (port : Fin 12) (pkt : NctIn) (s : State) : Answer :=
  .next (s.admitPacket port pkt 0xB fun s fk h => s.byPsn fk h (congested pkt) id fun s =>
    match s.inTarget (nctGroup h) (nctKey h) with
    | .unknown => .hold s
    | .gone | .failed => .error s 8
    | .live e kn f =>
      if argQueue h ≥ kn.queueCount f then .error s 8
      else .done (s.modKernel e.kernel fun kn => kn.setFq e.ferry (argQueue h) { kn.fq e.ferry (argQueue h) with endCount := some (argTseq h) }))

/-- ABANDON: the IN end's FYPOPs fail with REMOTE_INCOMPLETE. -/
def execNctAbandon (port : Fin 12) (pkt : NctIn) (s : State) : Answer :=
  .next (s.admitPacket port pkt 0xC fun s fk h => s.byPsn fk h (congested pkt) id fun s =>
    match s.inTarget (nctGroup h) (nctKey h) with
    | .live e _ _ => .done (s.modKernel e.kernel fun kn =>
        { kn with ferries := kn.ferries.map fun q => if q.1 / 512 = e.ferry then (q.1, { q.2 with gone := true }) else q })
    | .unknown | .gone | .failed => .done s)

/-! ### Responses and acknowledgements (R298, R299, R301, R302) -/

/-- The operation of a flow that a response names by the low 32 bits of its identifier. -/
def State.replyOp (s : State) (fk id : Nat) : Option NetOp :=
  s.net.ops.find? fun o => o.flow = fk && o.reply && o.id % 2 ^ 32 = id

def execNctGetresp (port : Fin 12) (pkt : NctIn) (s : State) : Answer :=
  .next (s.admitPacket port pkt 3 fun s fk h => s.byPsn fk h (congested pkt) id fun s =>
    match s.replyOp fk (nctArg h % 2 ^ 32) with
    | none => .done s
    | some o =>
      let s := s.dropOp o.id
      .done (match o.user with
        | .load cl line _ => s.fillArrives cl line { data := BitVec.ofNat 1024 (fromLE pkt.payload), poison := 0 }
        | .xferRead cl g no => s.xferArrives cl g no pkt.payload false
        | .core hart =>
          let v : BitVec 512 := BitVec.ofNat 512 (fromLE pkt.payload)
          ({ s with host := { s.host with harts := smod s.host.harts hart {} fun x => { x with lastLoad := v } } }).send (.coreResult hart v)
        | _ => s))

def execNctAtomicresp (port : Fin 12) (pkt : NctIn) (s : State) : Answer :=
  .next (s.admitPacket port pkt 5 fun s fk h => s.byPsn fk h (congested pkt) id fun s =>
    match s.replyOp fk (nctArg h % 2 ^ 32) with
    | none => .done s
    | some o =>
      let s := s.dropOp o.id
      .done (match o.user with
        | .atomic gk lane => (match s.group? gk with
          | some g => (match g.wait with
            | .atomics word bs =>
              let s := ((bs.find? fun b => b.lane = lane).map fun b => s.dropL1 (gcluster gk) (lineOf b.loc)).getD s
              s.atomicProgress gk g word (bs.map fun b => if b.lane = lane then { b with result := some (fromLE pkt.payload) } else b)
            | _ => s)
          | none => s)
        | _ => s))

/-- ERROR: the operation of the named packet fails; one whose packet has been acknowledged is found by its
PSN while it waits for a response.
(DEDUCED, log 124.) -/
def execNctError (port : Fin 12) (pkt : NctIn) (s : State) : Answer :=
  .next (s.admitPacket port pkt 0x11 fun s fk h => s.byPsn fk h (congested pkt) id fun s =>
    let psn : BitVec 32 := BitVec.ofNat 32 (field (nctArg h) 32 32)
    match s.net.ops.find? (fun o => o.flow = fk && o.psns.contains psn) with
    | some o => .done ((s.failOp o (nctArg h % 256) true).schedSettleAll)
    | none => .done s)

/-- Take acknowledged packets from a flow and end the operations that are complete. -/
def State.ackPackets (s : State) (fk : Nat) (gone : List TxPacket) : State :=
  let s := s.modFlow fk fun f => { f with unacked := f.unacked.filter fun p => !(gone.any fun q => q.psn = p.psn) }
  gone.foldl (fun (s : State) p =>
    match p.op with
    | none => s
    | some id => match s.net.ops.find? (fun o => o.id = id) with
      | none => s
      | some o =>
        if o.reply then s
        else if o.awaiting ≤ 1 then (s.dropOp id).finishUser id o.user
        else { s with net := { s.net with ops := s.net.ops.map fun x => if x.id = id then { x with awaiting := x.awaiting - 1 } else x } }) s

/-- The window and the packets acknowledged in it, after more were acknowledged: one more for each full window. -/
def grow : Nat → Nat → Nat → Nat × Nat
  | 0, window, acked => (window, acked)
  | fuel + 1, window, acked =>
    if acked < window then (window, acked) else grow fuel (if window < 4096 then window + 1 else window) (acked - window)

/-- An ACK halves the window when it carries ECE, at most once in 64 µs (DESIGN CHOICE, log 17). -/
def State.echoed (s : State) (fk : Nat) : State :=
  let f := s.flow fk
  let half := if f.window / 2 < 2 then 2 else f.window / 2
  let s := s.count 0x5020 0xB 1
  if !f.halved then s.setFlow fk { f with window := half, halved := true }
  else if s.freeNat % 2 = 0 then s.useFree else s.useFree.setFlow fk { f with window := half }

/-- ACK (R296 to R299). -/
def execNctAck (port : Fin 12) (pkt : NctIn) (s : State) : Answer :=
  .next (s.admitPacket port pkt 0x10 fun s fk h =>
    let cum : BitVec 32 := BitVec.ofNat 32 (nctPsn h)
    let f := s.flow fk
    let sacked := fun (p : BitVec 32) => let d := (p - (cum + 1)).toNat; decide (d < 64) && (nctArg h).testBit d
    let below := fun (p : BitVec 32) => decide ((cum - p).toNat < 2 ^ 31)
    let gone := f.unacked.filter fun p => p.sent && (below p.psn || sacked p.psn)
    let advanced := gone.any fun p => below p.psn
    let (w, a) := grow (f.acked + gone.length) f.window (f.acked + gone.length)
    let s := s.setFlow fk { f with window := w, acked := a, timerUs := if advanced then 64 else f.timerUs }
    let s := s.ackPackets fk gone
    let s := if (nctFlags h).testBit 5 then s.echoed fk else s
    let late := (s.flow fk).unacked.filter fun p => p.sent && !p.gapResent
      && decide (3 ≤ ((List.range 64).filter fun i => (nctArg h).testBit i && decide ((cum + 1 + BitVec.ofNat 32 i - p.psn).toNat < 2 ^ 31)).length)
    let s := late.foldl (fun (s : State) p => s.resend fk p true) s
    (s.pump fk).schedSettleAll)

/-! ### Timers (R296, R298, R300) -/

def execNctAckTimer (f : FlowId) (s : State) : Answer :=
  .next (if (s.flow (flowOf f)).sinceAck = 0 then s else s.sendAck (flowOf f))

/-- RETRANSMISSION_TIMEOUT: the timer doubles up to 8 ms, the window falls to 2, the oldest packet goes again. -/
def execRetransmissionTimeout (f : FlowId) (s : State) : Answer :=
  let fk := flowOf f
  let x := s.flow fk
  .next (match x.unacked.find? (fun p => p.sent) with
    | none => s
    | some p => (s.setFlow fk { x with timerUs := if 2 * x.timerUs > 8000 then 8000 else 2 * x.timerUs, window := 2 }).resend fk p false)

/-- OPERATION_TIMEOUT: the operation of an unacknowledged packet fails with FFh, and the flow is dead for the
rest of the group's open life. -/
def execOperationTimeout (f : FlowId) (psn : BitVec 32) (s : State) : Answer :=
  let fk := flowOf f
  .next (match (s.flow fk).unacked.find? (fun p => p.psn = psn && p.op.isSome) with
    | none => s
    | some p => match s.net.ops.find? (fun o => some o.id = p.op) with
      | none => s
      | some o => ((s.modFlow fk fun x => { x with killed := true }).failOp o 0xFF false).schedSettleAll)

/-- FLOW_STATE_EXPIRY: what the receiver knew of the flow is freed. -/
def execFlowStateExpiry (f : FlowId) (s : State) : Answer :=
  .next (if !(s.flow (flowOf f)).receiving then s
    else s.modFlow (flowOf f) fun x => { x with receiving := false, cum := 0xFFFFFFFF, recorded := [], sinceAck := 0, sawCe := false })

end Sys2Proof.Machine
end

