-- ==== Sys2Proof/Machine/Objects.lean ====
section
/-! DEFINITION. What every object of the dictionary reads (R384, R387 and the object tables of the
chapters), its range, and what the table says of it (R388, R391, R400). -/
namespace Sys2Proof.Machine

/-! ### Properties of objects -/

/-- Access class codes (R387). -/
def accConst : Nat := 0
def accRO : Nat := 1
def accRW : Nat := 2
def accWO : Nat := 3

/-- Type code, size and access class of a sub; sub 00 is a u8 CONST (R384). -/
def objInfo (idx sub : Nat) : Option (Nat × Nat × Nat) :=
  if sub = 0 then (if objExists idx then some (1, 1, accConst) else none)
  else (objRow idx sub).map fun r => (r.type, r.size, r.access)

/-- The default DESCRIBE gives, where it is fixed. -/
def objDefault (idx sub : Nat) : Option Nat :=
  if sub = 0 then some (objHighSub idx)
  else if idx = 0x3001 ∨ idx = 0x6020 then some (dictDefault idx sub)
  else (objRow idx sub).bind fun r => if r.access = accWO then none else r.dflt

/-- RW objects that take their defaults at node reset (R400). -/
def volatileObj (idx sub : Nat) : Bool :=
  (idx = 0x1030 && 0x11 ≤ sub) || (idx = 0x4040 && sub = 1) || idx = 0x4070 || (0x4100 ≤ idx && idx ≤ 0x41FF)
    || idx = 0x5060 || idx = 0x6043 || ((idx = 0x7102 || idx = 0x8001 || idx = 0x8002 || idx = 0x8021) && sub = 1)

/-- Persisted objects (R400, R404): every other RW object, and the lifetime counters of OD 4076h. -/
def persisted (idx sub : Nat) : Bool :=
  (match objInfo idx sub with | some (_, _, a) => a = accRW && !volatileObj idx sub | none => false)
    || (idx = 0x4076 && (sub = 3 || sub = 4))

/-- Objects of the settings section: the spare slot entries and lifetime counters are in the node records. -/
def inSettings (idx sub : Nat) : Bool := persisted idx sub && idx ≠ 0x4031 && !(idx = 0x4076 && 3 ≤ sub)

/-- The partition a sub is counted by (R388). -/
def subPartition (idx sub : Nat) : Option Nat :=
  if idx = 0x1030 then (if 0x11 ≤ sub ∧ sub ≤ 0x18 then some (sub - 0x11) else none)
  else if [0x1031, 0x3020, 0x3021, 0x4070, 0x4071, 0x4072, 0x4073, 0x4074, 0x4075, 0x5040, 0x5041, 0x5042, 0x5060, 0x5061,
      0x6020, 0x6040, 0x6041, 0x6043, 0xA061].contains idx then
    (if 1 ≤ sub ∧ sub ≤ 8 then some (sub - 1) else none)
  else none

/-! ### Values the node computes -/

/-- A number made of free words, and the state that has used them (DESIGN CHOICE, log 3). -/
def State.freeBits (s : State) (words : Nat) : State × Nat :=
  ({ s with free := s.free + words }, (List.range words).foldl (fun n i => n ||| (Config.freeWord (s.free + i)).toNat <<< (64 * i)) 0)

/-- A value where there is one, else a free one. -/
def State.orFree (s : State) (v : Option Nat) (size : Nat) : State × Nat :=
  match v with
  | some n => (s, n)
  | none => let (s, n) := s.freeBits ((size + 7) / 8); (s, n % 2 ^ (8 * size))

/-- A signed tenth of a degree as an i16. -/
def deciWord (x : Int) : Nat := (x % 65536).toNat

/-- Stacks and packages that can be reached (OD 1011h). -/
def State.stackPresent (s : State) (st : Nat) : Bool := !(s.stack st).failed && s.die (st / 4) ≠ 3
def State.packagePresent (s : State) (t : Nat) : Bool := !s.mem.failedPkgs.contains t && s.die (6 + t / 12) ≠ 3

/-- Bytes of HBM of the stacks present, without retired pseudo-channels. -/
def State.hbmCapacity (s : State) : Nat :=
  (List.range 16).foldl (fun n st =>
    if s.stackPresent st then n + 80000000000 - 1250000000 * ((List.range 64).filter fun i => (s.pc (64 * st + i)).retired).length else n) 0
/-- Bytes of HBM that can be addressed: retired pseudo-channels redirected to a spare slot too, but not those
without their data's place (R194, R196). -/
def State.hbmAddressable (s : State) : Nat :=
  (List.range 16).foldl (fun n st =>
    if s.stackPresent st then n + 80000000000 - 1250000000 * ((List.range 64).filter fun i => (s.pc (64 * st + i)).lost).length else n) 0
/-- The die state an inventory reader sees: reduced resources where a stack or package of the die is gone
(R24). -/
def State.dieReport (s : State) (d : Nat) : Nat :=
  let short := if d < 4 then (List.range 4).any fun i => !s.stackPresent (4 * d + i)
    else (d = 6 || d = 7) && (List.range 12).any fun i => !s.packagePresent (12 * (d - 6) + i)
  if s.die d = 1 ∧ short = true then 2 else s.die d
/-- Bytes of tier 2 of the packages present, spare pool included. -/
def State.tier2Capacity (s : State) : Nat := 64000000000 * ((List.range 24).filter fun t => s.packagePresent t).length

/-- Whole gigabytes of a number of bytes; how a part of one is rounded is free.
(DESIGN CHOICE, log 85.) -/
def State.gigabytes (s : State) (bytes : Nat) : State × Nat :=
  if bytes % 1000000000 = 0 then (s, bytes / 1000000000)
  else (s.useFree, bytes / 1000000000 + s.freeNat % 2)

/-- A hub drain runs (R373). -/
def State.hubDrains (s : State) : Bool := s.mem.twins.any fun e => e.2.draining && e.2.mode = 1

/-- The claimant that holds a resource row (R405): none, a claimant with this code, or one whose code the
table does not give.
(DESIGN CHOICE, log 83.) -/
def State.holder (s : State) (row : Nat) : Option (Option Nat) :=
  let claimed := fun (b : Bool) => if b then some (none : Option Nat) else none
  match row with
  | 1 => if s.counter 0x2010 1 = 0 then none else some (some (s.counter 0x2010 1))
  | 2 =>
    let traced : Bool := setting s 0x8020 2 = 1
    if traced && s.hubDrains then some (some (s.counter 0x2010 2))
    else if traced then some (some 1) else if s.hubDrains then some (some 2) else none
  | 3 => claimed (!s.dict.indexHolder.isEmpty)
  | 4 => claimed (s.agents.any fun e => !e.2.moored.isEmpty)
  | 5 => claimed (s.tallies.any fun e => !e.2.runs.isEmpty)
  | 6 => claimed (s.kernels.any fun e => e.2.fixedPoint.isSome)
  | _ => none

/-- Tallies of a die that no kernel holds, and the longest run of them (R211). -/
def State.freeTallies (s : State) (d : Nat) : Nat := 16384 - (s.tally d).runs.foldl (fun n r => n + r.2.1) 0
def State.longestRun (s : State) (d : Nat) : Nat :=
  let runs := (s.tally d).runs
  let next := fun (b : Nat) => runs.foldl (fun (m : Nat) r => if b ≤ r.1 ∧ r.1 < m then r.1 else m) 16384
  (0 :: runs.map fun r => r.1 + r.2.1).foldl (fun (m : Nat) b => if m < next b - b then next b - b else m) 0

/-- L2 half way state (R177). -/
def State.wayWord (s : State) (h : Nat) : Nat :=
  let ways := ((s.agent h).moored.map fun m => m.1).eraseDups
  setting s 0xA061 9 <<< 28 ||| ways.length <<< 24 ||| b2n (decide (s.parts = 8)) <<< 16 ||| maskOf ways

/-- The event record with a log sequence number, and the flash-log and trace records by index.
(DESIGN CHOICE, log 84.) -/
def State.eventAt (s : State) (n : Nat) : Option Nat := (s.mem.events.find? fun r => field r.toNat 256 32 = n).map (·.toNat)
def State.flashAt (s : State) (n : Nat) : Option Nat := (s.mem.flashLog.reverse[n]?).map (·.toNat)
def State.traceAt (s : State) (n : Nat) : Option Nat := ((sgetD s.mem.trace 0 [] ++ sgetD s.mem.trace 1 []).reverse[n]?).map (·.toNat)

/-- Levels at the control pins (OD 1050h/02); no command sets the PERSTn_N levels, which are free. -/
def State.pinLevels (s : State) : Nat :=
  b2n s.pins.pwrEn ||| b2n s.pins.modResetN <<< 1 ||| b2n (!s.power.alert) <<< 2
    ||| (s.freeNat % 4) <<< 3 ||| b2n s.pins.pgood <<< 5

/-- Octets of a hash as a value: its first octet is least significant. -/
def hashValue (h : BitVec 512) : Nat := fromLE (hashBytes h)

/-- The last telemetry record of a die. -/
def State.telemetryOf (s : State) (d : Nat) : Option Telemetry := (s.dpow d).telemetry

/-- The declared POWER of a companion whose CAP1 or channel mask lacks MGT: the manager counts it at that at
all times (R286; log 154). -/
def State.declaredPower (s : State) : Option Nat :=
  match (s.link 18).caps with
  | some (c, p) => if c.toNat.testBit 30 then none else some (field p.toNat 0 16)
  | none => none

/-- The power a die is counted at: its last record's; its cap, or a hub's 160 W, while its records are missing
(R286, R350). -/
def State.diePower (s : State) (d : Nat) : Option Nat :=
  match (if d = 8 then s.declaredPower else none) with
  | some w => some w
  | none =>
    if (s.dpow d).missing then
      (if d < 4 then some (setting s 0x3011 (d + 1)) else if d < 6 then some (setting s 0x3011 (d + 1)) else if d < 8 then some 160 else none)
    else (s.telemetryOf d).map fun t => t.power

/-- A counter of clocks, or a measurement: 0, its default, while nothing it counts has occurred since node
reset, and free after; the counter cell kept under `idx` and `sub` counts the occurrences
(DESIGN CHOICE, log 3). -/
def State.clocksCounted (s : State) (idx sub : Nat) : Option Nat := if s.counter idx sub = 0 then some 0 else none

/-- A read-only object that the node computes; none: the object reads its setting or its counter. The
second level none: the spec does not state the value, which is free (timing counters, measurements before
the first, a record that does not exist). -/
def State.computed (s : State) (idx sub : Nat) : Option (Option Nat) :=
  match idx with
  | 0x1000 => match sub with
    | 3 => some (some (fromLE (toBE 24 Config.serialNumber.toNat)))
    | 4 => some (some (b2n (decide (s.die 8 ≠ 0))))
    | 5 => some (some Config.stepping.toNat)
    | _ => none
  | 0x1010 => some (some (s.dieReport (sub - 1)))
  | 0x1011 => match sub with
    | 1 => some (some (maskOf ((List.range 16).filter fun st => s.stackPresent st)))
    | 3 => some (some (maskOf ((List.range 24).filter fun t => s.packagePresent t)))
    | _ => none
  | 0x1012 => match sub with
    | 1 => some (some hbmBytes)
    | 2 => some (some aliasBytes)
    | _ => some (some s.tier2Bytes)
  | 0x1030 => if sub = 1 then some (some s.offered) else none
  | 0x1031 => some (some (s.features (sub - 1)))
  | 0x1050 => if sub = 1 then some (some s.pins.posSampled.toNat) else none
  | 0x2010 => match s.holder sub with
    | none => some (some 0)
    | some c => some c
  | 0x3030 => some (if sub = 1 then s.power.lastInput else none)
  | 0x3031 => some (if s.die (sub - 1) = 0 then some 0 else s.diePower (sub - 1))
  | 0x3032 =>
    if sub ≤ 9 then some (if s.die (sub - 1) = 0 then some 0 else (s.telemetryOf (sub - 1)).map fun t => deciWord t.junction)
    else some ((s.telemetryOf ((sub - 0x11) / 4)).bind fun t => (t.dram[(sub - 0x11) % 4]?).map deciWord)
  | 0x3033 => some (some (s.halfWord (sub - 1)))
  | 0x3040 => if sub = 7 then some (s.clocksCounted idx sub) else none
  | 0x3050 => some none
  | 0x4001 => some (some (b2n s.mem.halfMode))
  | 0x4010 => some (some (maskOf ((List.range 64).filter fun i => (s.pc (64 * (sub - 1) + i)).retired)))
  | 0x4030 => match sub with
    | 2 => some (some s.mem.poolGB)
    | 4 => some (some (2 * s.slotCount - (s.mem.slots.filter fun e => s.slotWord e.1 ≠ 0).length))
    | 5 => some (some (maskOf ((List.range 16).filter fun st => (s.stack st).fill.isSome)))
    | _ => none
  | 0x4031 => some (some (s.slotWord sub))
  | 0x4040 => if sub = 2 then some (some (maskOf ((List.range 16).filter fun st => (s.stack st).offline))) else none
  | 0x4076 => match sub with
    | 3 => some (some (s.mem.lifeFailures % 2 ^ 32))
    | 4 => some (some (s.mem.lifeHours % 2 ^ 32))
    | _ => none
  | 0x5002 => some (some (s.portCode (sub - 1)))
  | 0x5061 => some (some (sgetD s.mem.groupImage (sub - 1) 0))
  | 0x6002 =>
    let p := sgetD s.host.ports ((sub - 1) % 2) {}
    some (some (if sub ≤ 2 then p.link else p.rate <<< 8 ||| p.lanes))
  | 0x6010 => if sub = 2 then some (some s.parts) else none
  | 0x7000 => some (some (s.link (sub - 1)).code)
  | 0x7001 => some (some (s.sparesInUse (sub - 1)))
  | 0x7021 => match sub, (s.link 18).caps with
    | 1, some (c, _) => some (some c.toNat)
    | 2, some (_, c) => some (some c.toNat)
    | 3, _ => none
    | _, _ => some (some 0)
  | 0x7103 => some (some (s.agentState (sub - 1)))
  | 0x8001 => if sub = 2 then some (s.eventAt (setting s 0x8001 1)) else none
  | 0x8002 => if sub = 2 then some (s.flashAt (setting s 0x8002 1)) else none
  | 0x8021 => if sub = 2 then some (s.traceAt (setting s 0x8021 1)) else none
  | 0x8031 => some (if s.die (sub - 1) = 0 then some 0 else none)
  | 0x9000 => match sub, s.boot.running with
    | 1, some (v, _, _) => some (some v)
    | 2, some (_, n, _) => some (some n)
    | 3, some (_, _, h) => some (some (hashValue h))
    | 4, _ => none
    | _, none => some none
    | _, _ => none
  | 0x9001 => some (some (b2n s.owned))
  | 0x9010 => if sub = 2 then some (some (hashValue s.ownerHash)) else none
  | 0x9030 => if sub = 1 then some (some s.boot.counter0) else none
  | 0x9040 => if sub = 4 then some (some s.boot.bootPath) else none
  | 0x9050 => if sub = 3 then some (some s.boot.updateStatus) else none
  | 0x9070 => match sub with
    | 1 => some (some s.boot.stage)
    | 3 => some (some s.boot.degraded.toNat)
    | _ => none
  | 0x9080 => some (some (if sub = 1 then s.boot.identity else hashValue (Config.sha3_512 Config.identityPublicKey)))
  | 0xA041 => if sub = 2 then some (s.clocksCounted idx 1) else if sub = 3 ∨ sub = 4 then some (s.clocksCounted idx sub) else none
  | 0xA051 => if sub = 3 ∨ sub = 5 then some (s.clocksCounted idx sub) else none
  | 0xA064 => some (some (s.wayWord (sub - 1)))
  | 0xA067 => some (s.clocksCounted 0xA065 sub)
  | 0xA068 => if sub ≤ 2 then some (s.clocksCounted idx sub) else none
  | 0xA073 => some (some (if sub ≤ 4 then s.freeTallies (sub - 1) else s.longestRun (sub - 5)))
  | _ => none

/-- A twin object's sub (R370). -/
def State.twinRead (s : State) (t sub : Nat) : Nat :=
  let x := s.twin t
  match sub with
  | 1 => x.back0.toNat
  | 2 => x.back1.toNat
  | 3 => x.size.toNat
  | 4 => x.part
  | 5 => x.mode.toNat
  | 6 => x.target0.toNat
  | 7 => x.target1.toNat
  | _ => x.stateWord

/-- Capacities in gigabytes (OD 1011h). -/
def State.capacity (s : State) (sub : Nat) : State × Nat :=
  s.gigabytes (match sub with
    | 2 => s.hbmCapacity
    | 4 => s.tier2Capacity
    | _ => s.hbmAddressable + s.tier2Capacity - 1000000000 * s.mem.poolGB)

/-- The value an object reads. OD 6043h reads 0 (R342). -/
def State.objectValue (s : State) (idx sub size access : Nat) : State × Nat :=
  if sub = 0 then (s, objHighSub idx)
  else if 0x4100 ≤ idx ∧ idx ≤ 0x41FF then (s, s.twinRead (idx - 0x4100) sub)
  else if idx = 0x1050 ∧ sub = 2 then (s.useFree, s.pinLevels)
  else if idx = 0x1011 ∧ (sub = 2 ∨ sub = 4 ∨ sub = 5) then s.capacity sub
  else match s.computed idx sub with
    | some v => s.orFree v size
    | none =>
      if access = accRO then (s, s.counter idx sub % 2 ^ (8 * size))
      else if idx = 0x6043 then (s, 0)
      else (s, setting s idx sub)

/-! ### Ranges (R392) -/

/-- Whether a value is in an object's range and step. -/
def inRange (idx sub n : Nat) : Bool :=
  let upTo := fun (m : Nat) => decide (n ≤ m)
  let from_ := fun (a b : Nat) => decide (a ≤ n) && decide (n ≤ b)
  match idx with
  | 0x1020 => match sub with
    | 1 | 2 => upTo (2 ^ 48 - 1)
    | 4 => upTo 1
    | 5 => from_ 10 3600
    | _ => true
  | 0x1021 => match sub with
    | 1 => upTo 254
    | 2 => from_ 2 255
    | _ => upTo 1
  | 0x2000 => decide (n = if sub = 1 then 0x65766173 else 0x64616F6C)
  | 0x3010 => from_ 2600 5200
  | 0x3011 => if sub ≤ 4 then from_ 300 780 else from_ 80 220
  | 0x3020 => upTo 3
  | 0x3021 => from_ 1 9
  | 0x3022 => upTo 1
  | 0x4020 => if sub = 1 then upTo 168 else upTo 1
  | 0x4030 => if sub = 1 then upTo 128 && decide (n % 8 = 0) else from_ 1 40
  | 0x4040 => upTo 15 || decide (n = 0xFF)
  | 0x4074 => from_ 1 86400
  | 0x5001 => upTo 3
  | 0x5004 => upTo 1000
  | 0x5010 => if sub = 4 ∨ sub = 5 then upTo 63 else true
  | 0x6001 => upTo 1
  | 0x6010 => n = 1 || n = 2 || n = 4 || n = 8
  | 0x6020 => upTo 1
  | 0x6021 => from_ 30 42
  | 0x6022 => from_ 1 1000
  | 0x6030 => from_ 10 60000
  | 0x6040 => upTo 2
  | 0x6043 => decide (n = 1)
  | 0x6003 => upTo 1
  | 0x7010 => if sub = 1 then from_ 32 4096 else upTo 1
  | 0x7020 => if sub ≤ 2 then upTo 1 else decide (field n 62 2 = 0)
  | 0x8020 => if sub = 1 then upTo 32 else upTo 1
  | 0x9010 => if sub = 3 then decide (n = 0x736C6572) else true
  | 0x9030 => if sub = 2 then upTo 1 else decide (n = 1)
  | 0x9032 => upTo 1
  | 0x9040 => match sub with
    | 1 => decide (n = 1)
    | 2 => upTo 2
    | _ => upTo (2 ^ 48 - 1)
  | 0x9050 => if sub = 2 then decide (n = 1) else true
  | 0xA061 => if sub ≤ 8 then upTo 1 else from_ 1 8
  | 0xA062 => upTo 1
  | 0xA063 => upTo 2
  | _ =>
    if 0x4100 ≤ idx ∧ idx ≤ 0x41FF then
      (match sub with
       | 1 | 2 => decide (n % 4096 = 0)
       | 5 => n = 0 || n = 1 || n = 0xFF
       | 9 => n = 1 || n = 2
       | _ => true)
    else true

end Sys2Proof.Machine
end

