-- ==== Sys2Proof/Machine/OsBoot.lean ====
section
/-! DEFINITION. Booting a partition's OS image: its header, its signature, the load, the boot information
block and the first hart (R341, R423). -/
namespace Sys2Proof.Machine

def osSize (b : Bytes) : Nat := le b 16 8
def osLoad (b : Bytes) : Nat := le b 8 8
def osEntry (b : Bytes) : Nat := le b 24 8

/-- The header of an OS image for a partition: magic, version, reserved bits, a load address aligned to
2 MiB with the image and its boot block in memory the partition holds. -/
def State.osHeaderOk (s : State) (p : Nat) (b : Bytes) : Bool :=
  64 ≤ b.length && le b 0 4 = 0x4F53494D && le b 4 4 = 1 && allZero (slice b 32 32)
    && 64 ≤ osSize b && osLoad b % 0x200000 = 0 && 4096 ≤ osLoad b && decide (osLoad b + osSize b ≤ 2 ^ 48)
    && s.rangeHeld p (osLoad b - 4096) (osSize b + 4096)

/-- The signature an OS image needs when OD 9032h/01 is 1 (R423). -/
def State.osSigned (s : State) (b : Bytes) : Bool :=
  setting s 0x9032 1 = 0
    || (s.owned && signedBy (slice b (osSize b) 8192) 3 s.ownerHash (Config.sha3_512 (b.take (osSize b))) "CGV4620-OS")

/-- A failed header leaves the harts stopped and records an event. -/
def State.osFailed (s : State) (p : Nat) : State := s.event { cls := 6, code := 0x71, die := 6, part := p, location := p }

/-- Start a hart in machine mode with its number in a0; a running hart is left as it is. -/
def State.hartBegin (s : State) (h pc a1 : Nat) : State :=
  if (s.hart h).running then s
  else s.modHart h fun x => { x with
    running := true
    pc := BitVec.ofNat 64 pc
    a0 := BitVec.ofNat 64 h
    a1 := BitVec.ofNat 64 a1
    mmode := true }

/-- Boot a partition from an image, its signature block included: load it, write the boot information
block, whose layout the spec does not give and whose bytes are free (DESIGN CHOICE, log 61), and start the lowest hart. -/
def State.osBoot (s : State) (p : Nat) (b : Bytes) : State :=
  if !s.osHeaderOk p b || decide (b.length < osSize b) || !s.osSigned b then s.osFailed p
  else
    let block := (List.range 4096).map fun i => Config.freeByte (s.free + i)
    let s := { s with free := s.free + 4096 }
    match (s.hubWriteRange 10 (osLoad b) (b.take (osSize b))).bind fun s => s.hubWriteRange 10 (osLoad b - 4096) block with
    | none => s
    | some s =>
      let s := { s with boot := { s.boot with osDigests := sset p (Config.sha3_512 (b.take (osSize b))) s.boot.osDigests } }
      s.hartBegin (p * (192 / s.parts)) (osLoad b + osEntry b) (osLoad b - 4096)

/-- Boot from node memory at OD 6041h; a header that cannot be read has failed. -/
def State.osBootMemory (s : State) (p : Nat) : State :=
  let a := setting s 0x6041 (p + 1)
  let (h, bad) := s.peekBytes a 64
  if bad || !s.osHeaderOk p h then s.osFailed p
  else
    let (b, bad) := s.peekBytes a (osSize h + (if setting s 0x9032 1 = 1 then 8192 else 0))
    if bad then s.osFailed p else s.osBoot p b

/-- OS_IMAGE_LOADED: a partition whose boot source is NVMe boots the image that was read, once the node
runs. An empty image stands for a controller or namespace that does not meet R341's conditions. -/
def execOsImageLoaded (p : Fin 8) (image : Bytes) (s : State) : Answer :=
  .next (if s.boot.stage = 0x0A ∧ ¬ s.boot.clearing ∧ p.val < s.parts ∧ setting s 0x6040 (p.val + 1) = 1 then s.osBoot p.val image else s)

/-- Boot now (OD 6043h): a partition whose boot source is node memory boots.
(DEDUCED, log 89.) -/
def State.bootNow (s : State) (p : Nat) : State :=
  if s.boot.stage = 0x0A ∧ ¬ s.boot.clearing ∧ p < s.parts ∧ setting s 0x6040 (p + 1) = 2 then s.osBootMemory p else s

end Sys2Proof.Machine
end

