-- ==== Sys2Proof/Machine/Dictionary.lean ====
section
/-! DEFINITION. Writing an object of the dictionary: roles (R388, R389), the checks of R392 in their order,
resource owners (R405), each object's own rule and effect, and the store (R400 to R404). One operation
serves WRITE frames and the commands that are one write of an object. -/
namespace Sys2Proof.Machine

/-! ### Status codes (R392) -/
def stOk : Nat := 0
def stNoObject : Nat := 1
def stNoSub : Nat := 2
def stAccessClass : Nat := 3
def stAccessRole : Nat := 4
def stLength : Nat := 5
def stRange : Nat := 6
def stRefused : Nat := 7
def stHeld : Nat := 8
def stBusy : Nat := 9
def stAuth : Nat := 0x0A
def stFrame : Nat := 0x0B
def stService : Nat := 0x0C

/-! ### Roles (R388, R417) -/

/-- The role in force: while the node is unowned, OPERATOR is served as OWNER (R417). -/
def State.effective (s : State) (r : Role) : Role :=
  match r with
  | .operator => if s.owned then .operator else .owner
  | _ => r

/-- Whether a role may write a sub (R388).
(DEDUCED, log 76.) -/
def State.mayWrite (s : State) (r : Role) (idx sub : Nat) : Bool :=
  match s.effective r with
  | .observer => false
  | .partition p => subPartition idx sub == some p.val || (0x4100 ≤ idx && idx ≤ 0x41FF && (s.twin (idx - 0x4100)).part = p.val)
  | .operator => !(0x9000 ≤ idx && idx ≤ 0x9FFF) && !(idx = 0x2000 && sub = 2)
  | .owner => true

/-! ### Sources of requests (R397) -/

/-- The number of a channel without its source: 16 sessions are held on each (R393). -/
def channelNo : Channel → Nat
  | .t1s sec _ => b2n sec
  | .mailbox f => 2 + fnKey f.port.val f.vf.val
  | .core p => 20 + p.val
  | .inBand _ _ => 28

/-- Two requests from one channel and source: the source is the MAC or IPv6 address. -/
def sameSource : Channel → Channel → Bool
  | .inBand a _, .inBand b _ => a = b
  | a, b => a == b

/-! ### Resource rules (R405) -/

/-- The diagnostic index registers, in order. -/
def indexRegister (idx sub : Nat) : Option Nat :=
  if sub ≠ 1 then none
  else if idx = 0x7102 then some 0 else if idx = 0x8001 then some 1 else if idx = 0x8002 then some 2
  else if idx = 0x8021 then some 3 else none

/-- Some partition has remote-node caching on. -/
def State.anyCaching (s : State) : Bool := (List.range 8).any fun i => setting s 0xA061 (i + 1) = 1

/-- The claim a write makes on the non-coherent tag state: 1 remote-node caching, 2 dead-line trap. -/
def State.tagClaim (s : State) (idx sub n : Nat) : Nat :=
  if idx = 0xA061 ∧ (if sub ≤ 8 then n = 1 else s.anyCaching) then 1
  else if idx = 0xA062 ∧ n = 1 then 2 else 0

def State.resourceHeld (s : State) (src : Option Channel) (idx sub n : Nat) : Bool :=
  let c := s.tagClaim idx sub n
  let holder := s.counter 0x2010 1
  (c ≠ 0 && holder ≠ 0 && holder ≠ c)
    || (idx = 0x8020 && sub = 1 && (decide (setting s 0x8020 2 = 1) || s.hubDrains))
    || match indexRegister idx sub, src with
       | some r, some ch => (match sget? r s.dict.indexHolder with | some h => !sameSource h ch | none => false)
       | _, _ => false

/-- An access by the holder of an index register keeps it; a write by a first claimant takes it. -/
def State.claimIndex (s : State) (src : Option Channel) (idx sub : Nat) : State :=
  match indexRegister idx sub, src with
  | some r, some ch => { s with dict := { s.dict with indexHolder := sset r ch s.dict.indexHolder } }
  | _, _ => s

/-! ### The objects' own rules (WRITE_REFUSED) -/

/-- Slots a hub would have with a pool of `n` GB, and slots it has assigned (R193). -/
def slotsFor (n : Nat) : Nat := 1000000000 * n / 2500000000
def State.assigned (s : State) (hub : Nat) : Nat := (s.mem.slots.filter fun e => (if e.1 ≥ 0x41 then 1 else 0) = hub).length

def State.writeRefused (s : State) (idx sub n : Nat) : Bool :=
  match idx with
  | 0x4030 => sub = 1 && (decide (slotsFor n < s.assigned 0) || decide (slotsFor n < s.assigned 1))
  | 0x4031 =>
    match sget? sub s.mem.slots with
    | some _ => !n.testBit 31 && !s.slotFreeable sub
    | none => n.testBit 31
  | 0x4040 => n < 16 && !s.offlineAllowed n
  | 0x4070 => !s.slackOk (sub - 1) n
  | 0x5040 => s.partGroupsLive (sub - 1)
  | 0x9010 => if sub = 1 then s.owned || ((s.security.bind fun r => r.ownerKey).isNone) else !s.owned
  | 0x9050 => s.boot.updating.isSome || s.boot.updateNetwork
  | _ =>
    if 0x4100 ≤ idx ∧ idx ≤ 0x41FF then
      let t := s.twin (idx - 0x4100)
      if sub ≤ 7 then t.valid
      else sub = 8 && n.testBit 31 && !t.valid && !s.twinOk t
    else false

/-! ### The store (R400 to R403) -/

/-- A store command is turned away while the store is being written or an update runs (R401, R419). -/
def State.storeBusy (s : State) : Bool := s.dict.saving.isSome || s.boot.updating.isSome || s.boot.updateNetwork

/-- A save starts: the section is erased, and the values as they stand are what it will hold. -/
def State.startSave (s : State) : State :=
  let snap := s.dict.vals.filter fun e => inSettings (e.1 / 256) (e.1 % 256)
  ({ s with dict := { s.dict with saving := some snap, stored := none, storeBroken := true } }).setCounter 0x2001 1 1

/-- The settings section is erased. -/
def State.eraseStore (s : State) : State := { s with dict := { s.dict with stored := none, storeBroken := false } }

/-! ### Ownership and keys (R417) -/

/-- Rewrite the older copy of the security record, then advance counter 1 by `step`: one where ownership
changes, two where it does not.
(DEDUCED, log 82.) -/
def State.rewriteSecurity (s : State) (step : Nat) (f : SecurityRecord → SecurityRecord) : State :=
  let old := s.security.getD { generation := 0, ownerHash := 0, ownerKey := none, operatorKey := none }
  let gen := s.boot.counter1 + step
  let new : SecurityRecord := { f old with generation := gen }
  { s with boot := { s.boot with counter1 := gen, records := new :: (s.security.map fun r => [r]).getD [] } }

/-- Octets of a value of `n` bytes, as big-endian bits. -/
def octets (n v : Nat) : Nat := fromBE (toLE n v)

/-! ### Effects -/

/-- Set a working value. -/
def State.setValue (s : State) (idx sub n : Nat) : State :=
  { s with dict := { s.dict with vals := sput s.dict.vals (odKey idx sub) n (dictDefault idx sub) } }

/-- Write a twin object's sub (R370, R372). -/
def State.writeTwin (s : State) (t sub n : Nat) : State :=
  let w := BitVec.ofNat 64 n
  match sub with
  | 1 => s.modTwin t fun x => { x with back0 := w }
  | 2 => s.modTwin t fun x => { x with back1 := w }
  | 3 => s.modTwin t fun x => { x with size := w }
  | 4 => s.modTwin t fun x => { x with part := n }
  | 5 => s.modTwin t fun x => { x with mode := BitVec.ofNat 8 n }
  | 6 => s.modTwin t fun x => { x with target0 := w }
  | 7 => s.modTwin t fun x => { x with target1 := w }
  | 8 => s.modTwin t fun x => { x with valid := n.testBit 31 }
  | _ => s.softDrainDone t (n = 1)

/-- Raise the version floor to the running SVN (R418). -/
def State.raiseFloor (s : State) : State :=
  match s.boot.running with
  | some (_, svn, _) => if svn > s.boot.counter0 then { s with boot := { s.boot with counter0 := svn } } else s
  | none => s

/-- An update starts: the image region is erased (R419). -/
def State.startUpdate (s : State) (addr : Option W64) : State :=
  { s with boot := { s.boot with
      updating := addr
      updateNetwork := addr.isNone
      updateStatus := 1
      image := some []
      imageValid := false } }

/-- What an accepted write does. -/
def State.applyWrite (s : State) (idx sub n : Nat) : State :=
  match idx with
  | 0x2000 => if sub = 1 then s.startSave else s.eraseStore
  | 0x4031 => if n.testBit 31 || (sget? sub s.mem.slots).isNone then s else s.releaseSlot sub
  | 0x4040 => (s.setValue idx sub n).stackRequest n
  | 0x4070 => (s.setValue idx sub n).declareSlack (sub - 1) n
  | 0x5040 =>
    if s.imaging (sub - 1) then { s with mem := { s.mem with heldWrites := s.mem.heldWrites ++ [(sub - 1, 4096, n)] } }
    else s.setSailing (sub - 1) n
  | 0x5060 => (s.setValue idx sub n).startImage (sub - 1) n
  | 0x6043 => s.bootNow (sub - 1)
  | 0x7102 => ({ s.setValue idx sub n with dict := { (s.setValue idx sub n).dict with probing := true } })
  | 0x8020 =>
    let s' := s.setValue idx sub n
    if sub = 2 ∧ n = 1 ∧ setting s 0x8020 2 = 0 then s'.setCounter 0x2010 2 (if s.hubDrains then 2 else 1) else s'
  | 0x9010 =>
    if sub = 1 then s.rewriteSecurity 1 fun r => { r with ownerHash := BitVec.ofNat 512 (octets 64 n) }
    else s.rewriteSecurity 1 fun r => { r with ownerHash := 0, ownerKey := none, operatorKey := none }
  | 0x9011 =>
    let k := some (BitVec.ofNat 256 (octets 32 n))
    s.rewriteSecurity 2 fun r => if sub = 1 then { r with ownerKey := k } else { r with operatorKey := k }
  | 0x9030 => if sub = 3 then s.raiseFloor else s.setValue idx sub n
  | 0x9040 => if sub = 1 then { s with boot := { s.boot with recoveryRequested := true } } else s.setValue idx sub n
  | 0x9050 => s.startUpdate (if sub = 1 then some (BitVec.ofNat 64 n) else none)
  | 0xA061 | 0xA062 =>
    let c := s.tagClaim idx sub n
    let s := s.setValue idx sub n
    if c ≠ 0 then s.setCounter 0x2010 1 c else s
  | _ =>
    if 0x4100 ≤ idx ∧ idx ≤ 0x41FF then s.writeTwin (idx - 0x4100) sub n
    else if 0x3000 ≤ idx ∧ idx ≤ 0x3FFF then (s.setValue idx sub n).powerSettle
    else s.setValue idx sub n

/-- A write of an object that exists: the checks from ACCESS_CLASS on, and the effect when all pass.
`whole` says that the data has the object's size and lies at offset 0. -/
def State.dictWrite (s : State) (r : Role) (src : Option Channel) (idx sub access : Nat) (whole : Bool) (n : Nat) : State × Nat :=
  if access = accConst ∨ access = accRO then (s, stAccessClass)
  else if !s.mayWrite r idx sub then (s.count 0x1040 4 1, stAccessRole)
  else if !whole then (s, stLength)
  else if !inRange idx sub n then (s, stRange)
  else if s.resourceHeld src idx sub n then (s, stHeld)
  else if idx = 0x2000 && s.storeBusy then (s, stBusy)
  else if s.writeRefused idx sub n then (s, stRefused)
  else ((s.claimIndex src idx sub).applyWrite idx sub n, stOk)

/-- A command that is one write: it is served once the dictionary is (R412), and its status is sent. -/
def State.dictUp (s : State) : Bool := decide (5 ≤ s.boot.stage) && decide (s.boot.stage ≤ 0x0A)
/-- DESIGN CHOICE, log 93. -/
def State.roleWrite (s : State) (r : Role) (src : Option Channel) (idx sub n : Nat) : State :=
  if !s.dictUp then s
  else match objInfo idx sub with
    | none => s
    | some (_, _, access) =>
      let (s, st) := s.dictWrite r src idx sub access true n
      s.send (.dictStatus st)

/-! ### The commands that are one write -/

def execStackOfflineRequest (role : Role) (value : BitVec 8) (s : State) : Answer := .next (s.roleWrite role none 0x4040 1 value.toNat)
/-- SPARE_SLOT_FREE: 0 is written to the slot entry. -/
def execSpareSlotFree (role : Role) (sub : BitVec 8) (s : State) : Answer := .next (s.roleWrite role none 0x4031 sub.toNat 0)
def execBootNow (role : Role) (p : Fin 8) (value : BitVec 8) (s : State) : Answer := .next (s.roleWrite role none 0x6043 (p.val + 1) value.toNat)
def execStoreCommand (role : Role) (value : BitVec 32) (s : State) : Answer := .next (s.roleWrite role none 0x2000 1 value.toNat)
def execRestoreCommand (role : Role) (value : BitVec 32) (s : State) : Answer := .next (s.roleWrite role none 0x2000 2 value.toNat)
def execSlackWater (role : Role) (p : Fin 8) (step : BitVec 64) (s : State) : Answer := .next (s.roleWrite role none 0x4070 (p.val + 1) step.toNat)
def execDrainDone (role : Role) (twin : BitVec 8) (s : State) : Answer := .next (s.roleWrite role none (0x4100 + twin.toNat) 9 1)
def execDrainDoneFailed (role : Role) (twin : BitVec 8) (s : State) : Answer := .next (s.roleWrite role none (0x4100 + twin.toNat) 9 2)
def execGroupImageAddress (role : Role) (p : Fin 8) (addr : BitVec 64) (s : State) : Answer := .next (s.roleWrite role none 0x5060 (p.val + 1) addr.toNat)
def execDirectoryProbeAddress (role : Role) (src : Channel) (addr : BitVec 64) (s : State) : Answer := .next (s.roleWrite role (some src) 0x7102 1 addr.toNat)
def execPartitionSailing (role : Role) (p : Fin 8) (value : BitVec 32) (s : State) : Answer := .next (s.roleWrite role none 0x5040 (p.val + 1) value.toNat)
def execRecoveryRequest (role : Role) (value : BitVec 8) (s : State) : Answer := .next (s.roleWrite role none 0x9040 1 value.toNat)
def execUpdateFromAddress (role : Role) (addr : BitVec 64) (s : State) : Answer := .next (s.roleWrite role none 0x9050 1 addr.toNat)
def execUpdateFromNetwork (role : Role) (value : BitVec 8) (s : State) : Answer := .next (s.roleWrite role none 0x9050 2 value.toNat)
def execCommitFloor (role : Role) (value : BitVec 8) (s : State) : Answer := .next (s.roleWrite role none 0x9030 3 value.toNat)
/-- The hash's octets in the order SHA3-512 gives them. -/
def execOwnerKeyHashEnrol (role : Role) (hash : BitVec 512) (s : State) : Answer := .next (s.roleWrite role none 0x9010 1 (hashValue hash))
def execReleaseOwnership (role : Role) (value : BitVec 32) (s : State) : Answer := .next (s.roleWrite role none 0x9010 3 value.toNat)
/-- A key's 32 octets, the first one most significant. -/
def keyValue (k : BitVec 256) : Nat := fromLE (toBE 32 k.toNat)
def execOwnerRoleKey (role : Role) (key : BitVec 256) (s : State) : Answer := .next (s.roleWrite role none 0x9011 1 (keyValue key))
def execOperatorRoleKey (role : Role) (key : BitVec 256) (s : State) : Answer := .next (s.roleWrite role none 0x9011 2 (keyValue key))

/-! ### What ends later -/

/-- DIRECTORY_PROBE_DONE: the result of the probe under way appears. -/
def execDirectoryProbeDone (s : State) : Answer :=
  .next (if s.dict.probing then
    ({ s with dict := { s.dict with probing := false } }).setCounter 0x7102 2 (s.probe (setting s 0x7102 1))
  else s)

/-- STORE_SAVE_DONE: the commit word is programmed, or the save has failed (R402). -/
def execStoreSaveDone (ok : Bool) (s : State) : Answer :=
  .next (match s.dict.saving with
    | none => s
    | some v =>
      if ok then
        let s := { s with dict := { s.dict with saving := none, stored := some v, storeBroken := false } }
        ((s.setCounter 0x2001 1 0).setCounter 0x2001 2 0).count 0x2001 4 1
      else ({ s with dict := { s.dict with saving := none } }).setCounter 0x2001 1 2)

/-- NODE_RECORD_WRITE: the older copy is rewritten at least hourly; the hours passed since the last count
0 or 1, which is free (DESIGN CHOICE, log 62). -/
def execNodeRecordWrite (s : State) : Answer :=
  .next (if s.dictUp then
    ({ s.useFree with mem := { s.mem with lifeHours := s.mem.lifeHours + s.freeNat % 2 } }).writeRecord
  else s)

/-- RESOURCE_HOLD_EXPIRY: an index register its holder has not accessed for 1 s is released. -/
def execResourceHoldExpiry (row : Fin 4) (s : State) : Answer :=
  .next { s with dict := { s.dict with indexHolder := sdel row.val s.dict.indexHolder } }

/-- NON_COHERENT_TAG_STATE_RELEASE: with no claim left, every remote-node line or tombstone is dropped and
the resource is free (R405). -/
def execNonCoherentTagStateRelease (s : State) : Answer :=
  let claim := s.counter 0x2010 1
  .next (if claim = 0 ∨ (claim = 1 ∧ s.anyCaching) ∨ (claim = 2 ∧ setting s 0xA062 1 = 1) then s
    else
      let drop := fun (e : Nat × CohAgent) =>
        (e.1, { e.2 with copies := e.2.copies.filter fun c => !(if claim = 1 then c.remote else c.tomb) })
      ({ s with agents := s.agents.map drop }).setCounter 0x2010 1 0)

/-- SESSION_IDLE_TIMEOUT: a session without a valid frame for the idle limit closes (R393). -/
def execSessionIdleTimeout (id : BitVec 16) (s : State) : Answer :=
  .next { s with dict := { s.dict with sessions := s.dict.sessions.filter fun x => x.id ≠ id.toNat } }

end Sys2Proof.Machine
end

