-- ==== Sys2Proof/Machine/Boot.lean ====
section
/-! DEFINITION. Node reset and the boot sequence (R412 to R415, R432), the recovery loader (R416) and the
firmware update (R419). -/
namespace Sys2Proof.Machine

/-! ### Node reset (R432, R446) -/

/-- A stack across a node reset. One that was offline serves again, with its data not preserved (R199). -/
def State.stackAfterReset (s : State) (x : Stack) : Stack :=
  { cleared := x.cleared, mixed := if x.offline then some s.free else x.mixed }

/-- A pseudo-channel across a node reset: retirement and permanent repairs are kept, soft repairs and
counts are not (R198, R414; DEDUCED, log 65). -/
def PseudoChannel.afterReset (y : PseudoChannel) : PseudoChannel :=
  { retired := y.retired, lost := y.lost, rowsUsed := y.rowsUsed, bankReplaced := y.bankReplaced }

/-- The node in node reset: what the module keeps is flash, what an external pin or clock says, the commands
that wait, and memory while power is held. A save under way is cut off (R403). -/
def State.nodeReset (s : State) (powerLost : Bool) : State :=
  let r : State := {}
  { r with
    pending := s.pending
    free := s.free + 1
    out := s.out
    mem := { r.mem with
      cells := if powerLost then [] else s.mem.cells
      upsets := if powerLost then [] else s.mem.upsets
      poison := if powerLost then [] else s.mem.poison
      allPoisoned := !powerLost && s.mem.allPoisoned
      known := if powerLost then [] else s.mem.known
      hbmStacks := if powerLost then [] else s.mem.hbmStacks.map fun e => (e.1, s.stackAfterReset e.2)
      pcs := s.mem.pcs.map fun e => (e.1, e.2.afterReset)
      spareBanks := s.mem.spareBanks
      halfMode := s.mem.halfMode
      flashLog := s.mem.flashLog }
    dict := { r.dict with
      stored := s.dict.stored
      storeBroken := s.dict.storeBroken
      records := s.dict.records
      recordsBad := s.dict.recordsBad }
    boot := { r.boot with
      stage := 0
      powerOn := powerLost || s.boot.powerOn
      image := s.boot.image
      imageValid := s.boot.imageValid
      counter0 := s.boot.counter0
      counter1 := s.boot.counter1
      records := s.boot.records
      recoveryRequested := s.boot.recoveryRequested
      recoveredBy := s.boot.recoveredBy
      tripEvent := s.boot.tripEvent }
    counters := s.counters.filter fun e => e.1 = odKey 0x2001 4 || e.1 = odKey 0x3041 1
    power := { r.power with alert := s.power.alert }
    net := { r.net with reference := s.net.reference }
    pins := { s.pins with nodeReset := true }
    taps := s.taps
    trstHeld := s.trstHeld }

/-- Node reset is released: the position pins are sampled, and the ROM starts (R412, R444).
(DESIGN CHOICE, log 75.) -/
def State.release (s : State) : State :=
  { s.useFree with
    pins := { s.pins with nodeReset := false, posSampled := BitVec.ofNat 4 s.freeNat }
    boot := { s.boot with stage := 1 } }

/-- Release when nothing holds node reset: rails in tolerance, MOD_RESET_N deasserted, and the oscillator. -/
def State.tryRelease (s : State) : State :=
  if s.pins.nodeReset && s.pins.pgood && s.pins.modResetN && s.pins.oscillator then s.release else s

/-- A stage runs while it is the stage in force and node reset is not asserted. -/
def State.atStage (s : State) (n : Nat) : Bool := s.boot.stage = n && !s.pins.nodeReset
def State.setStage (s : State) (n : Nat) : State := { s with boot := { s.boot with stage := n } }
def State.degrade (s : State) (bit : Nat) : State :=
  { s with boot := { s.boot with degraded := s.boot.degraded ||| BitVec.ofNat 8 (1 <<< bit) } }

/-! ### Stages 01h to 04h -/

def execBootRom (s : State) : Answer := .next (if s.atStage 1 then s.setStage 2 else s)

/-- BOOT_IDENTITY: a root that cannot be reconstructed halts the boot (R420). -/
def execBootIdentity (pufOk : Bool) (s : State) : Answer :=
  .next (if !s.atStage 2 then s
    else if pufOk then { s with boot := { s.boot with stage := 3, rootSecret := true, identity := 1 } }
    else { s with boot := { s.boot with stage := 0xFF, identity := 2 } })

/-- The image in flash. -/
def State.flashBytes (s : State) : Bytes := s.boot.image.getD Config.flashImage

/-- The READ request for a chunk: INDEX 9F00h, SUB chunk div 64, OFFSET (chunk mod 64) × 1,024, LENGTH 1,024
(R390, R416). -/
def chunkRequest (tid chunk : Nat) : Bytes :=
  toBE 16 (1 <<< 124 ||| 1 <<< 112 ||| (tid % 65536) <<< 80 ||| 0x9F00 <<< 64 ||| (chunk / 64 % 256) <<< 56 ||| (chunk % 64 * 1024) <<< 32 ||| 1024 <<< 16)
/-- The recovery server's address: the ROM takes OD 9040h/03 from the settings section. -/
def State.recoveryServer (s : State) : Nat :=
  if s.recovering then sgetD (s.dict.stored.getD []) (odKey 0x9040 3) 0xFFFFFFFFFFFF else setting s 0x9040 3
/-- Send the request for the next chunk of an image being pulled; its TID is free (DESIGN CHOICE, log 67). -/
def State.askChunk (s : State) : State :=
  s.useFree.send (.recoveryRead s.boot.recChunks.length s.recoveryServer (chunkRequest s.freeNat s.boot.recChunks.length))

/-- Start pulling from the network. -/
def State.pullNetwork (s : State) : State :=
  ({ s with boot := { s.boot with recNetwork := true, recChunks := [], recFailures := 0 } }).askChunk

/-- The recovery loader starts: HB0's port trains as an endpoint, unless the network is the only source; with
both sources allowed, which one it tries first is free (DESIGN CHOICE, log 67). -/
def State.enterRecovery (s : State) : State :=
  let s := { s with boot := { s.boot with stage := 0x80, rootSecret := false, recoveryRequested := false, recNetwork := false } }
  let train := fun (x : HostPort) => { x with released := true, link := 1 }
  let s := if s.recoverySource = 2 then s
    else { s with host := { s.host with ports := sset 0 (train (sgetD s.host.ports 0 {})) s.host.ports } }
  match s.recoverySource with
  | 1 => s
  | 2 => s.pullNetwork
  | _ => if s.freeNat % 2 = 1 then s.useFree.pullNetwork else s.useFree

/-- BOOT_IMAGE: the flash image is checked; a failure, or a recovery request, enters the recovery loader. -/
def execBootImage (s : State) : Answer :=
  .next (if !s.atStage 3 then s
    else if s.boot.recoveryRequested then s.enterRecovery
    else
      let b := s.flashBytes
      if s.boot.imageValid && s.imageCheck b = 0 then
        { s with boot := { s.boot with
            stage := 4
            running := some (imgVersion b, imgSvn b, imgDigest b)
            bootPath := s.boot.recoveredBy
            recoveredBy := 0 } }
      else (s.count 0x9090 1 1).enterRecovery)

/-! #### Handover -/

/-- The settings section as checked at node reset (R403): its values and the fallback cause, 0 for none. -/
def State.loadStore (s : State) : Sparse Nat × Nat :=
  if s.dict.storeBroken then ([], 1)
  else match s.dict.stored with
    | none => ([], 0)
    | some v =>
      let ok := v.all fun e => inSettings (e.1 / 256) (e.1 % 256) && inRange (e.1 / 256) (e.1 % 256) e.2
        && (match objInfo (e.1 / 256) (e.1 % 256) with | some (_, n, _) => decide (e.2 < 2 ^ (8 * n)) | none => false)
      if ok then (v, 0) else ([], 4)

/-- Load the settings: working values and values in force, and the resources they claim (R405; DESIGN CHOICE, log 83). -/
def State.loadSettings (s : State) : State :=
  let (v, cause) := s.loadStore
  let s := { s with dict := { s.dict with
    vals := v
    force := v
    loaded := if cause = 0 then some s.dict.stored else none } }
  let s := (s.setCounter 0x2001 2 (if cause = 0 then 0 else 1)).setCounter 0x2001 3 cause
  (s.setCounter 0x2010 1 (if s.anyCaching then 1 else if setting s 0xA062 1 = 1 then 2 else 0)).setCounter 0x2010 2 (setting s 0x8020 2)

/-- The valid node-record copy of the higher generation. -/
def State.nodeRecord (s : State) : Option (Nat × Sparse SpareSlot × Nat × Nat) :=
  s.dict.records.foldl (fun m r => match m, r with
    | none, r => r
    | some x, some y => if x.1 < y.1 then some y else some x
    | m, none => m) none

/-- Check the node records (R404): restore slots and counters; a fresh module writes its first copy; with
no valid copy otherwise, every sector is poisoned. A fill that was running starts again (DEDUCED, log 65). -/
def State.loadRecords (s : State) : State :=
  match s.nodeRecord with
  | some (_, slots, failures, hours) =>
    let s := { s with mem := { s.mem with slots := slots, lifeFailures := failures, lifeHours := hours } }
    slots.foldl (fun s e =>
      if e.2.filled || e.2.lost || (s.stack (e.2.pc / 64)).fill.isSome then s
      else s.modStack (e.2.pc / 64) fun x => { x with fill := some (e.2.pc, e.1, 0) }) s
  | none =>
    if s.dict.recordsBad then
      let f := fun (e : Nat × Stack) => (e.1, { e.2 with cleared := false })
      ({ s with
        mem := { s.mem with allPoisoned := true, upsets := [], poison := [], hbmStacks := s.mem.hbmStacks.map f }
        dict := { s.dict with recordsBad := false } }).setCounter 0x2001 5 1 |>.writeRecord
    else s.writeRecord

/-- Settings that take effect at node reset: the partition count with the die-local layout, the ECC mode and
the spare pool. After a change of the layout with memory kept, every HBM sector is unspecified (R180). -/
def State.applyReset (s : State) : State :=
  let parts := setting s 0x6010 1
  let half : Bool := parts = 8
  let changed := half != s.mem.halfMode && !s.boot.powerOn
  let n := s.free
  let s := if changed then s.useFree else s
  let hbmStacks := if changed then
      (List.range 16).foldl (fun m i => sset i { sgetD m i ({} : Stack) with mixed := some n } m) s.mem.hbmStacks
    else s.mem.hbmStacks
  { s with
    parts := parts
    mem := { s.mem with
      halfMode := half
      eccMode := setting s 0x4020 2
      poolGB := setting s 0x4030 1
      hbmStacks := hbmStacks
      known := if changed then [] else s.mem.known } }

/-- BOOT_HANDOVER: the security record must be valid once ownership has ever changed (R417); the root secret
is erased, settings and node records are loaded, and the dictionary is served from here on. A shutdown that
the thermal trip caused is recorded (R380). -/
def execBootHandover (s : State) : Answer :=
  .next (if !s.atStage 4 then s
    else
      let s := { s with boot := { s.boot with rootSecret := false } }
      if s.boot.counter1 ≠ 0 ∧ s.security.isNone then s.setStage 0xFF
      else
        let s := (s.loadSettings.applyReset).loadRecords.setStage 5
        match s.boot.tripEvent with
        | none => s
        | some (die, cause) =>
          ({ s with boot := { s.boot with tripEvent := none } }).event { cls := 5, code := 0x62, die := die, location := die, data := cause })

/-! ### Stages 05h to 0Ah -/

/-- HB1's capability words on GL18: every right a hub grants, and GL18's replay depth of 256 flits (R277, R281,
R285; DEDUCED, log 66). -/
def hubCaps : CapWords := { cap0 := 0x100320207F73FFFF#64, cap1 := 0x4E52_0000_1000_0000#64, windows := [] }

/-- Initial credits of a direction: at least R276's; what a receiver advertises beyond is free. -/
def State.initialCredits (s : State) (i : Nat) : State × List Nat :=
  ({ s with free := s.free + 8 }, (List.range 8).map fun v =>
    let m := leastCredits i v
    if m = 0 then 0 else m + Config.freeNat (s.free + v) % (4096 - m))

/-- The physical lanes of a direction that fail its first training (R269, R282). -/
def failedIn (lanes : List (LinkDir × BitVec 8)) (i : Nat) (rev : Bool) : List Nat :=
  (List.range (linkLanes i + linkSpares i)).filter fun p => lanes.any fun x => x.1.link.val = i && x.1.rev = rev && x.2.toNat = p

/-- Bring a link up at boot; one that is up already is left. Lanes that fail LOCK are replaced by spares, and
with more of them than spares the link is down (R269, R282). -/
def State.bringUp (s : State) (i : Nat) (companion : CapWords) (lanes : List (LinkDir × BitVec 8)) : State :=
  let s' := s.modLink i fun l => { l with
    fwd := { l.fwd with failedLanes := failedIn lanes i false }
    rev := { l.rev with failedLanes := failedIn lanes i true } }
  if (s.link i).active then s
  else if s'.lanesLost i then s'.declareDown i
  else
    let s := s'
    let s := if i = 18 then s.formCaps 18 hubCaps companion else s.setLink i { s.link i with state := .credit }
    if (s.link i).state != .credit then s
    else
      let (s, a) := s.initialCredits i
      let (s, b) := s.initialCredits i
      let up := fun (e : LinkEnd) (c : List Nat) => { e with locked := true, credited := true, credits := c }
      (s.modLink i fun l => { l with fwd := up l.fwd a, rev := up l.rev b }).linkActive i

/-- BOOT_PACKAGE_LINKS: three waves (R413). A link that fails is declared down; GL18 exists with a companion
die. -/
def execBootPackageLinks (links : LinkOutcome) (companion : Option CapWords) (s : State) : Answer :=
  let waves := [10, 11, 14, 17] ++ (List.range 18).filter (fun i => !([10, 11, 14, 17].contains i)) ++ (if companion.isSome then [18] else [])
  .next (if !s.atStage 5 then s
    else
      let s := if companion.isSome then { s with dieState := sset 8 1 s.dieState } else s
      let s := waves.foldl (fun (s : State) i =>
        if links.failed.getLsbD i && !(s.link i).active then s.declareDown i
        else s.bringUp i (companion.getD { cap0 := 0, cap1 := 0, windows := [] }) links.lanes) s
      s.setStage 6)

/-- BOOT_MEMORY: stacks and packages that do not train are absent; after power-on every sector is cleared to
zero, or poisoned where the node records were lost (R404, R414). -/
def execBootMemory (stacksFailed : BitVec 16) (packagesFailed : BitVec 24) (s : State) : Answer :=
  .next (if !s.atStage 6 then s
    else
      let s := (setBits stacksFailed.toNat 16).foldl (fun s i => (s.modStack i fun x => { x with failed := true }).degrade 1) s
      let s := (setBits packagesFailed.toNat 24).foldl (fun (s : State) i =>
        ({ s with mem := { s.mem with failedPkgs := s.mem.failedPkgs ++ [i] } }).degrade 1 |>.event
          { cls := 5, code := 0x14, die := 6 + i / 12, location := i }) s
      let s := if s.boot.powerOn then { s with mem := { s.mem with cells := [], upsets := [], poison := [], known := [] } } else s
      { s with boot := { s.boot with stage := 7, powerOn := false, clearing := true } })

/-- BOOT_PROCESSOR_DIES: caches, directories, TLBs and tallies are cleared, harts held stopped; a die that
fails is down. -/
def execBootProcessorDies (failed : BitVec 9) (s : State) : Answer :=
  .next (if !s.atStage 7 then s
    else
      let s := { s with agents := [], txns := [], dieXlate := [], tallies := [], host := { s.host with harts := [] } }
      let s := (setBits failed.toNat 9).foldl (fun (s : State) d =>
        if s.die d = 0 then s else ({ s with dieState := sset d 3 s.dieState }).degrade 2) s
      s.setStage 8)

/-- BOOT_HOST_PORTS: the ports are released to train in their roles, with BAR4 of the size set (R322). -/
def execBootHostPorts (s : State) : Answer :=
  .next (if !s.atStage 8 then s
    else
      let n := setting s 0x6021 1
      let s := [0, 1].foldl (fun (s : State) p =>
        let s := s.modPort p fun x => { x with released := true, link := 1, bar4 := n }
        (List.range 9).foldl (fun s v => s.modFn p v fun f => { f with bar4 := n }) s) s
      s.setStage 9)

/-- BOOT_NETWORK: the sub-ports of every enabled port start to train; a port that fails stays down. -/
def execBootNetwork (failed : BitVec 12) (s : State) : Answer :=
  .next (if !s.atStage 9 then s
    else
      let s := (List.range 48).foldl (fun (s : State) k =>
        if (s.modeLanes k).isEmpty || !s.net.reference then s
        else if failed.getLsbD (k / 4) then s.degrade 3
        else s.modSubport k fun x => { x with state := .training, lanes := s.modeLanes k }) s
      s.setStage 0x0A)

/-- MEMORY_CLEARING_DONE: the node runs: the boot time is known, and the floor rises where it does so by
itself (R412, R414, R418).
(DEDUCED, log 129.) -/
def execMemoryClearingDone (ms : BitVec 32) (s : State) : Answer :=
  .next (if !s.atStage 0x0A || !s.boot.clearing then s
    else
      let s := ({ s with boot := { s.boot with clearing := false } }).setCounter 0x9070 2 ms.toNat
      if setting s 0x9030 2 = 1 then s.raiseFloor else s)

/-! ### Recovery loader (R416) -/

/-- The recovery loader turns to its next source. -/
def State.nextSource (s : State) : State :=
  match s.recoverySource with
  | 1 => s
  | 2 => s.pullNetwork
  | _ => if s.boot.recNetwork then { s with boot := { s.boot with recNetwork := false, recChunks := [], recFailures := 0 } } else s.pullNetwork

/-- An image is being pulled in chunks: by the loader from the network, or by an update. -/
def State.pulling (s : State) : Bool :=
  (s.recovering && s.boot.recNetwork && (s.boot.recStatus = 0 || decide (0x10 ≤ s.boot.recStatus))) || (s.boot.updateNetwork && s.boot.updateStatus = 1)

/-- The chunks pulled so far, and the bytes the whole image has by its first chunk, at most 16 MiB. -/
def State.pulled (s : State) : Bytes := s.boot.recChunks.flatMap fun e => e.2
def pullSize (b : Bytes) : Nat := if imgSize b < 16777216 then imgSize b else 16777216

/-- RECOVERY_CHUNK_RESPONSE: the chunk asked for arrives; after the last one the loader checks the image, or
the update goes on with its read-back. -/
def execRecoveryChunkResponse (chunk : BitVec 14) (data : Bytes) (s : State) : Answer :=
  .next (if !s.pulling || chunk.toNat ≠ s.boot.recChunks.length || data.isEmpty || 1024 < data.length then s
    else
      let s := { s with boot := { s.boot with recChunks := sset chunk.toNat data s.boot.recChunks, recFailures := 0 } }
      let b := s.pulled
      if b.length < pullSize (b.take 64) ∧ s.boot.recChunks.length < 16384 then s.askChunk
      else if s.recovering then
        let t := s.recCheck b
        if t.boot.recStatus = 2 then { t with boot := { t.boot with recoveredBy := 2 } } else t.nextSource
      else { s with boot := { s.boot with image := some b, updateStatus := 2 } })

/-- RECOVERY_RETRY: a request unanswered for 100 ms is sent again; after 16 failures in a row the loader turns
to its next source. A loader that waits for PCIe with both sources allowed turns to the network. -/
def execRecoveryRetry (s : State) : Answer :=
  .next (if s.pulling then
      (if s.boot.recFailures + 1 ≥ 16 ∧ s.recovering = true then s.nextSource
       else ({ s with boot := { s.boot with recFailures := s.boot.recFailures + 1 } }).askChunk)
    else if s.recovering && !s.boot.recNetwork && (s.boot.recStatus = 0 || decide (0x10 ≤ s.boot.recStatus)) then s.nextSource
    else s)

/-- RECOVERY_IMAGE_WRITTEN: the digest of the read-back is checked; the node is reset as by MOD_RESET_N, or
15h is reported.
(DESIGN CHOICE, log 92.) -/
def execRecoveryImageWritten (readback : Bytes) (s : State) : Answer :=
  .next (if !s.recovering || s.boot.recStatus ≠ 2 then s
    else if imgDigest readback = imgDigest s.flashBytes then
      (({ s with boot := { s.boot with
          image := some readback
          imageValid := true
          recStatus := 3
          recoveredBy := if s.boot.recoveredBy = 0 then 1 else s.boot.recoveredBy } }).nodeReset false).tryRelease
    else { s with boot := { s.boot with recStatus := 0x15, recoveredBy := 0 } })

/-! ### Update (R419) -/

/-- UPDATE_DONE: the read-back is checked by R411; held flash-log appends follow. The read-back is the
command's, since the image may change in memory while it is copied. -/
def execUpdateDone (image : Bytes) (s : State) : Answer :=
  .next (if s.boot.updating.isNone && !(s.boot.updateNetwork && s.boot.updateStatus = 2) then s
    else
      let c := s.imageCheck image
      let s := { s with
        boot := { s.boot with
          updating := none
          updateNetwork := false
          image := some image
          imageValid := decide (c = 0)
          recChunks := []
          updateStatus := if c = 0 then 3 else c }
        mem := { s.mem with flashLog := (s.mem.flashHeld ++ s.mem.flashLog).take 1024, flashHeld := [] } }
      if c = 0 then s else s.count 0x9090 1 1)

end Sys2Proof.Machine
end

