-- ==== Sys2Proof/Machine/VecMath.lean ====
section
/-! DEFINITION. Packed elements (R82, R130), reductions (R139 to R141) and the transcendental functions
(R142). -/
namespace Sys2Proof.Machine

/-! ### Elements of a vector register -/

/-- Elements per vector register (R130). -/
def elemsPer (fmt : Nat) : Nat := 4096 / elemBits fmt
/-- The bits of an element that carry its value: the rest are ignored on read (R82). -/
def elemMask (fmt : Nat) : Nat :=
  match fmt with
  | 2 => 0xFFFFE000
  | 7 | 8 => 0x3F
  | _ => 2 ^ elemBits fmt - 1
/-- The float format of an element code. -/
def elemFmt (fmt : Nat) : Option Fmt :=
  match elemType fmt with
  | some (.float f) => some f
  | _ => none
/-- A value as an element's container holds it: e8m10 in bits 31:13 and the 6-bit formats in bits 5:0, the
others zero (R82). -/
def containerCode (fmt v : Nat) : Nat :=
  if fmt = 2 then 8192 * (v % 2 ^ 32 / 8192) else if fmt = 7 ∨ fmt = 8 then v % 64 else v % 2 ^ elemBits fmt

/-- Element `i` of a register of a format, the unused bits of its container ignored (R82, R130). -/
def vget (fmt v i : Nat) : Nat := containerCode fmt (field v (i * elemBits fmt) (elemBits fmt))
/-- A register with element `i` replaced, the unused bits of its container written as zero (R82, R130). -/
def vput (fmt v i x : Nat) : Nat := setField v (i * elemBits fmt) (elemBits fmt) (containerCode fmt x)

/-! ### Reductions (R139 to R141) -/

/-- The value of a reduction over no element. -/
def redEmpty (fmt redop : Nat) : Nat :=
  match elemFmt fmt with
  | some f =>
    (match redop with
     | 0 => f.pack false 0
     | 1 => (f.ofNum false true (.fin false 1 0)).1
     | 2 => if f.specials = .ieee then f.pack true (f.emaxField <<< f.mbits) else f.pack true f.maxFinite
     | 3 => if f.specials = .ieee then f.pack false (f.emaxField <<< f.mbits) else f.pack false f.maxFinite
     | 4 => elemMask fmt
     | _ => 0)
  | none =>
    let w := elemBits fmt
    (match redop with
     | 2 => 2 ^ (w - 1)
     | 3 => 2 ^ (w - 1) - 1
     | 4 => elemMask fmt
     | _ => 0)

/-- The padding of the tree: −0 for add, 1 for product, the empty result otherwise (R140). -/
def redPad (fmt redop : Nat) : Nat :=
  match redop, elemFmt fmt with
  | 0, some f => f.pack true 0
  | _, _ => redEmpty fmt redop

/-- One node of the tree, rounded in the reduction's format. -/
def redStep (flush : Bool) (fmt redop a b : Nat) : Nat × Flags :=
  match redop, elemFmt fmt with
  | 0, some f => f.add flush a b
  | 1, some f => f.mul flush a b
  | 2, some f => f.minMax flush true a b
  | 3, some f => f.minMax flush false a b
  | 2, none => (if sext (elemBits fmt) a < sext (elemBits fmt) b then b else a, 0)
  | 3, none => (if sext (elemBits fmt) b < sext (elemBits fmt) a then b else a, 0)
  | 4, _ => (a &&& b &&& elemMask fmt, 0)
  | 5, _ => ((a ||| b) &&& elemMask fmt, 0)
  | _, _ => ((a ^^^ b) &&& elemMask fmt, 0)

/-- One level of the tree: neighbours combined. -/
def redLevel (flush : Bool) (fmt redop : Nat) : List Nat → List Nat × Flags
  | a :: b :: r =>
    let (x, f) := redStep flush fmt redop a b
    let (t, g) := redLevel flush fmt redop r
    (x :: t, f ||| g)
  | l => (l, 0)

/-- The tree over a list whose length is a power of two, `n` levels deep. -/
def redTree (flush : Bool) (fmt redop : Nat) : Nat → List Nat → Nat × Flags
  | 0, l => (l.headD 0, 0)
  | n + 1, l =>
    let (t, f) := redLevel flush fmt redop l
    let (v, g) := redTree flush fmt redop n t
    (v, f ||| g)

/-- log2 of the smallest power of two not below `n`. -/
def ceilLog2 (n : Nat) : Nat := if n ≤ 1 then 0 else Nat.log2 (n - 1) + 1

/-- A reduction over elements, inactive ones given as none (R140). -/
def reduceElems (flush : Bool) (fmt redop : Nat) (xs : List (Option Nat)) : Nat × Flags :=
  let d := ceilLog2 xs.length
  let pad := redPad fmt redop
  redTree flush fmt redop d (xs.map (fun x => x.getD pad) ++ List.replicate (2 ^ d - xs.length) pad)

/-! ### Transcendental functions (R142) -/

/-- A number rounded to fp32 by R86, without FLUSH. -/
def round32 (x : Num) : Num := Fmt.fp32.decode (Fmt.fp32.ofNum false true x).1
/-- The value of an fp32 constant. -/
def const32 (c : Nat) : Num := Fmt.fp32.decode c
/-- fma with one fp32 rounding. -/
def fma32 (a b c : Num) : Num := round32 (fmaNum a b c).1
/-- Evaluate a polynomial by fma from the highest coefficient. -/
def horner32 (p x : Num) (cs : List Nat) : Num := cs.foldl (fun p c => fma32 p x (const32 c)) p

/-- EXP2 of a finite number. -/
def exp2Fin (flush : Bool) (neg : Bool) (m : Nat) (e : Int) : Nat × Flags :=
  let k : Int := (roundAt m e 0 : Nat)
  let n : Int := if neg then -k else k
  if n > 128 then (Fmt.fp32.pack false (Fmt.fp32.emaxField <<< 23), fOverflow)
  else if n < -151 then (0, 0)
  else
    let f := exactSum [.fin neg m e, .fin (decide (n > 0)) n.natAbs 0]
    let p := horner32 (const32 0x377FE5FA) f [0x39218489, 0x3AAEC3FF, 0x3C1D955B, 0x3D635847, 0x3E75FDF0, 0x3F317218, 0x3F800000]
    match p with
    | .fin s a b => Fmt.fp32.round flush s a (b + n)
    | _ => (0, 0)

/-- EXP2. -/
def fExp2 (flush : Bool) (c : Nat) : Nat × Flags :=
  let (x, fx) := Fmt.fp32.read flush c
  let (r, g) := match x with
    | .nan n => Fmt.fp32.mkNan n
    | .inf true => (0, 0)
    | .inf false => (Fmt.fp32.pack false (Fmt.fp32.emaxField <<< 23), 0)
    | .fin neg m e => exp2Fin flush neg m e
  (r, fx ||| g)

/-- LOG2 of a positive finite number m × 2^e. -/
def log2Fin (flush : Bool) (m : Nat) (e : Int) : Nat × Flags :=
  let b := Nat.log2 m
  let ex : Int := (b : Int) + e
  let big := cmpNum (.fin false m (-(b : Int))) (const32 0x3FB504F3) = .gt
  let mm : Num := .fin false m (-(b : Int) - (if big then 1 else 0))
  let ee : Int := ex + (if big then 1 else 0)
  let one : Num := .fin false 1 0
  let s := round32 (divNum 40 (exactSum [mm, one.negate]) (exactSum [mm, one])).1
  let z := round32 (mulNum s s).1
  let p := horner32 (const32 0x3EA4258A) z [0x3ED30BB1, 0x3F13BB63, 0x3F76384F, 0x4038AA3B]
  let q := round32 (mulNum p s).1
  Fmt.fp32.ofNum flush true (exactSum [.fin (decide (ee < 0)) ee.natAbs 0, q])

/-- LOG2. -/
def fLog2 (flush : Bool) (c : Nat) : Nat × Flags :=
  let (x, fx) := Fmt.fp32.read flush c
  let (r, g) := match x with
    | .nan n => Fmt.fp32.mkNan n
    | .inf false => (Fmt.fp32.pack false (Fmt.fp32.emaxField <<< 23), 0)
    | .inf true => (Fmt.fp32.pack false Fmt.fp32.canonNan, fInvalid)
    | .fin neg m e =>
      if m = 0 then (Fmt.fp32.pack true (Fmt.fp32.emaxField <<< 23), fDivzero)
      else if neg then (Fmt.fp32.pack false Fmt.fp32.canonNan, fInvalid)
      else log2Fin flush m e
  (r, fx ||| g)

/-- RCP: 1 / x correctly rounded. -/
def fRcp (flush : Bool) (c : Nat) : Nat × Flags := Fmt.fp32.div flush 0x3F800000 c

/-- 1 / √(m × 2^e) for m > 0, to more bits than any rounding needs, with a sticky last bit. -/
def rsqrtFin (m : Nat) (e : Int) : Num :=
  let odd := e % 2 ≠ 0
  let m' := if odd then 2 * m else m
  let e' := if odd then e - 1 else e
  let q := isqrt (2 ^ 160 / m')
  .fin false (2 * q + (if q * q * m' = 2 ^ 160 then 0 else 1)) (-81 - e' / 2)

/-- RSQRT: 1 / √x correctly rounded. -/
def fRsqrt (flush : Bool) (c : Nat) : Nat × Flags :=
  let (x, fx) := Fmt.fp32.read flush c
  let (r, g) := match x with
    | .nan n => Fmt.fp32.mkNan n
    | .inf false => (0, 0)
    | .inf true => (Fmt.fp32.pack false Fmt.fp32.canonNan, fInvalid)
    | .fin neg m e =>
      if m = 0 then (Fmt.fp32.pack neg (Fmt.fp32.emaxField <<< 23), fDivzero)
      else if neg then (Fmt.fp32.pack false Fmt.fp32.canonNan, fInvalid)
      else Fmt.fp32.ofNum flush true (rsqrtFin m e)
  (r, fx ||| g)

end Sys2Proof.Machine
end

