-- ==== Sys2Proof/Machine/Vector.lean ====
section
/-! DEFINITION. VX: the vector instructions' checks at issue and their execution in the engine's queue
(R129 to R141). Chains and the slip are in Machine/Chain.lean. -/
namespace Sys2Proof.Machine

/-! ### Issue -/

/-- What a VX operation's word holds: the register fields, whether AUX is legal, the formats it takes,
and whether a scalar source is read from RS1 or RS2 (R134). -/
structure VxSpec where
  rd : Opnd := .zero
  rs1 : Opnd := .zero
  rs2 : Opnd := .zero
  rs3 : Opnd := .zero
  aux : Nat → Bool := fun _ => true
  fmts : Nat → Bool := fun _ => true

/-- AUX of an element-wise instruction: the mask in bits 7:4, bits 3:0 zero. -/
def auxMask (a : Nat) : Bool := a % 16 = 0
def auxZero (a : Nat) : Bool := a = 0
/-- fp64, fp32, bf16, fp16. -/
def arithFmt (t : Nat) : Bool := t = 0 || t = 1 || t = 3 || t = 4
def fmtZero (t : Nat) : Bool := t = 0
/-- A scalar register, or a pair for a 64-bit element. -/
def Opnd.ofFmt (t : Nat) : Opnd := if t = 0 then .p else .r

def VxSpec.sig (x : VxSpec) (w : Fields) : Sig :=
  { legal := w.mod = 0 && !w.ri && w.ty ≤ 12 && x.aux w.aux, rd := x.rd, rs1 := x.rs1, rs2 := x.rs2, rs3 := x.rs3 }

/-- A scalar operand as read at issue from the lowest lane of the launch mask (R77). -/
def Group.scalarOp (g : Group) (o : Opnd) (r : Nat) : W64 :=
  match o with
  | .r => BitVec.ofNat 64 (g.reg g.lead r)
  | .p => BitVec.ofNat 64 (g.pair g.lead r)
  | _ => 0

/-- The vector length an instruction acts on: the smaller of VL and the elements of its format. -/
def vxLen (vl fmt : Nat) : Nat := if vl < elemsPer fmt then vl else elemsPer fmt

/-- Issue a VX instruction into the queue: a full queue holds the group, then VX_FORMAT and the other
checks at issue (R134, R135). `stall` instructions hold their group until executed. -/
def State.vxIssue (s : State) (id : GroupId) (op : Nat) (w : Fields) (x : VxSpec) (stall : Bool)
    (pre : State → Nat → Group → List Check) (mark : State → Nat → State) : State :=
  s.issue id 0xA op w (x.sig w) true (fun _ => none) (fun _ _ => none) fun s gk g _ =>
    if (s.cluster (gcluster gk)).vxq.length ≥ 8 then .hold s
    else match firstFault ((!x.fmts w.ty, { code := 0x401, arg0 := w.ty, arg1 := w.aux }) :: pre s gk g) with
      | some f => .fault s f
      | none =>
        let e : VxEntry := { group := gk % 64, no := g.issued, word := w.word 0xA op, pc := g.pc, vl := g.vl
                             s1 := g.scalarOp x.rs1 w.rs1.toNat, s2 := g.scalarOp x.rs2 w.rs2 }
        let s := (mark s gk).modCluster (gcluster gk) fun c => { c with vxq := c.vxq ++ [e] }
        .done (s.setGroup gk { g.next with wait := if stall then .engine else .ready })

def noChecks (_ : State) (_ : Nat) (_ : Group) : List Check := []
def noMark (s : State) (_ : Nat) : State := s

/-- Issue a plain queued instruction. -/
def State.vxPlain (s : State) (id : GroupId) (op : Nat) (w : Fields) (x : VxSpec) : State :=
  s.vxIssue id op w x false noChecks noMark

/-- The range and alignment of a VXLD or VXST: the L elements from the offset (R136).
(DEDUCED, log 24.) -/
def vxSpan (w : Fields) (s : State) (gk : Nat) (g : Group) : List Check :=
  let off := g.reg g.lead w.rs1.toNat
  let bits := elemBits w.ty
  let unit := if bits = 4 then 1 else bits / 8
  let last := off + (vxLen g.vl w.ty * bits + 7) / 8
  let size := (s.cluster (gcluster gk)).spadSize
  [(decide (last > size) && decide (vxLen g.vl w.ty > 0), { code := 0x402, arg0 := last, arg1 := size }),
   (off % unit ≠ 0, { code := 0x403, arg0 := off, arg1 := unit })]

/-- VX 01h, at issue: VL becomes the smaller of the request and 1,024. -/
def execVxSetvl (id : GroupId) (w : Fields) (s : State) : Answer :=
  let x : VxSpec := { rd := .r, rs1 := .r, aux := auxZero, fmts := fmtZero }
  .next (s.issue id 0xA 0x01 w (x.sig w) true (fun _ => none) (fun _ _ => none) fun s gk g _ =>
    if w.ty ≠ 0 then .fault s { code := 0x401, arg0 := w.ty, arg1 := w.aux }
    else
      let q := g.reg g.lead w.rs1.toNat
      let v := if q < 1024 then q else 1024
      .done ((s.count 0xA051 1 1).setGroup gk { (g.setAll w.rd.toNat false v).next with vl := v }))
/-- VX 02h. -/
def execVxLd (id : GroupId) (w : Fields) (s : State) : Answer :=
  .next (s.vxIssue id 0x02 w { rd := .v, rs1 := .r, aux := auxMask } false (vxSpan w) noMark)
/-- VX 03h. -/
def execVxSt (id : GroupId) (w : Fields) (s : State) : Answer :=
  .next (s.vxIssue id 0x03 w { rd := .v, rs1 := .r, aux := auxMask } false (vxSpan w) noMark)
/-- VX 04h. -/
def execVxBcast (id : GroupId) (w : Fields) (s : State) : Answer :=
  .next (s.vxPlain id 0x04 w { rd := .v, rs1 := Opnd.ofFmt w.ty, aux := auxMask })
/-- The operands of a vector operation of one, two or three vector sources. -/
def vxVec (n : Nat) (fmts : Nat → Bool) : VxSpec :=
  { rd := .v, rs1 := .v, rs2 := if n ≥ 2 then .v else .zero, rs3 := if n ≥ 3 then .v else .zero, aux := auxMask, fmts := fmts }
/-- VX 10h. -/
def execVxAdd (id : GroupId) (w : Fields) (s : State) : Answer := .next (s.vxPlain id 0x10 w (vxVec 2 arithFmt))
/-- VX 11h. -/
def execVxSub (id : GroupId) (w : Fields) (s : State) : Answer := .next (s.vxPlain id 0x11 w (vxVec 2 arithFmt))
/-- VX 12h. -/
def execVxMul (id : GroupId) (w : Fields) (s : State) : Answer := .next (s.vxPlain id 0x12 w (vxVec 2 arithFmt))
/-- VX 13h. -/
def execVxFma (id : GroupId) (w : Fields) (s : State) : Answer := .next (s.vxPlain id 0x13 w (vxVec 3 arithFmt))
/-- VX 14h. -/
def execVxMin (id : GroupId) (w : Fields) (s : State) : Answer := .next (s.vxPlain id 0x14 w (vxVec 2 arithFmt))
/-- VX 15h. -/
def execVxMax (id : GroupId) (w : Fields) (s : State) : Answer := .next (s.vxPlain id 0x15 w (vxVec 2 arithFmt))
/-- VX 16h. -/
def execVxAbs (id : GroupId) (w : Fields) (s : State) : Answer := .next (s.vxPlain id 0x16 w (vxVec 1 arithFmt))
/-- VX 17h. -/
def execVxNeg (id : GroupId) (w : Fields) (s : State) : Answer := .next (s.vxPlain id 0x17 w (vxVec 1 arithFmt))
/-- VX 18h. -/
def execVxAnd (id : GroupId) (w : Fields) (s : State) : Answer := .next (s.vxPlain id 0x18 w (vxVec 2 fun _ => true))
/-- VX 19h. -/
def execVxOr (id : GroupId) (w : Fields) (s : State) : Answer := .next (s.vxPlain id 0x19 w (vxVec 2 fun _ => true))
/-- VX 1Ah. -/
def execVxXor (id : GroupId) (w : Fields) (s : State) : Answer := .next (s.vxPlain id 0x1A w (vxVec 2 fun _ => true))
/-- VX 1Bh. -/
def execVxNot (id : GroupId) (w : Fields) (s : State) : Answer := .next (s.vxPlain id 0x1B w (vxVec 1 fun _ => true))
/-- VX 1Ch: the source format in AUX 3:0; a reserved code there faults with VX_FORMAT (DEDUCED, log 21). -/
def execVxCvt (id : GroupId) (w : Fields) (s : State) : Answer :=
  .next (s.vxPlain id 0x1C w { rd := .v, rs1 := .v, fmts := fun _ => w.aux % 16 ≤ 12 })
/-- The operands of a compare into a mask register. -/
def vxCmpSpec : VxSpec := { rd := .m, rs1 := .v, rs2 := .v, aux := auxMask, fmts := fun t => t ≠ 12 }
/-- VX 20h. -/
def execVxCmpeq (id : GroupId) (w : Fields) (s : State) : Answer := .next (s.vxPlain id 0x20 w vxCmpSpec)
/-- VX 21h. -/
def execVxCmplt (id : GroupId) (w : Fields) (s : State) : Answer := .next (s.vxPlain id 0x21 w vxCmpSpec)
/-- VX 22h. -/
def execVxCmple (id : GroupId) (w : Fields) (s : State) : Answer := .next (s.vxPlain id 0x22 w vxCmpSpec)
/-- VX 23h. -/
def execVxSel (id : GroupId) (w : Fields) (s : State) : Answer := .next (s.vxPlain id 0x23 w (vxVec 2 fun _ => true))
/-- The operands of a mask-register operation. -/
def vxMaskSpec (two : Bool) : VxSpec := { rd := .m, rs1 := .m, rs2 := if two then .m else .zero, aux := auxZero, fmts := fmtZero }
/-- VX 24h. -/
def execVxMand (id : GroupId) (w : Fields) (s : State) : Answer := .next (s.vxPlain id 0x24 w (vxMaskSpec true))
/-- VX 25h. -/
def execVxMor (id : GroupId) (w : Fields) (s : State) : Answer := .next (s.vxPlain id 0x25 w (vxMaskSpec true))
/-- VX 26h. -/
def execVxMxor (id : GroupId) (w : Fields) (s : State) : Answer := .next (s.vxPlain id 0x26 w (vxMaskSpec true))
/-- VX 27h. -/
def execVxMnot (id : GroupId) (w : Fields) (s : State) : Answer := .next (s.vxPlain id 0x27 w (vxMaskSpec false))
/-- VX 28h. -/
def execVxPerm (id : GroupId) (w : Fields) (s : State) : Answer := .next (s.vxPlain id 0x28 w (vxVec 2 fun t => t ≤ 4))
/-- VX 29h. -/
def execVxIota (id : GroupId) (w : Fields) (s : State) : Answer :=
  .next (s.vxPlain id 0x29 w { rd := .v, rs1 := .r, rs2 := .r, aux := auxZero, fmts := fun t => t = 3 || t = 4 })
/-- Formats a reduction takes (R139). -/
def redAllows (redop t : Nat) : Bool :=
  match redop with
  | 0 | 1 => arithFmt t
  | 2 | 3 => t ≠ 12
  | 7 => false
  | _ => true
/-- VX 30h with the row's REDOP; the reserved REDOP 7 faults with VX_FORMAT (R139; DESIGN CHOICE, log 1). -/
def State.vxRed (s : State) (id : GroupId) (w : Fields) (op : Nat) : State :=
  s.vxPlain id 0x30 w { rd := .v, rs1 := .v, aux := fun a => !a.testBit 3 && (a % 8 = op || a % 8 = 7),
                        fmts := fun t => w.aux % 8 ≠ 7 && redAllows op t }
/-- VXRED ADD. -/
def execVxRedAdd (id : GroupId) (w : Fields) (s : State) : Answer := .next (s.vxRed id w 0)
/-- VXRED PRODUCT. -/
def execVxRedProduct (id : GroupId) (w : Fields) (s : State) : Answer := .next (s.vxRed id w 1)
/-- VXRED MAX. -/
def execVxRedMax (id : GroupId) (w : Fields) (s : State) : Answer := .next (s.vxRed id w 2)
/-- VXRED MIN. -/
def execVxRedMin (id : GroupId) (w : Fields) (s : State) : Answer := .next (s.vxRed id w 3)
/-- VXRED AND. -/
def execVxRedAnd (id : GroupId) (w : Fields) (s : State) : Answer := .next (s.vxRed id w 4)
/-- VXRED OR. -/
def execVxRedOr (id : GroupId) (w : Fields) (s : State) : Answer := .next (s.vxRed id w 5)
/-- VXRED XOR. -/
def execVxRedXor (id : GroupId) (w : Fields) (s : State) : Answer := .next (s.vxRed id w 6)
/-- VX 38h. -/
def execVxExp2 (id : GroupId) (w : Fields) (s : State) : Answer := .next (s.vxPlain id 0x38 w (vxVec 1 fun t => t = 1))
/-- VX 39h. -/
def execVxLog2 (id : GroupId) (w : Fields) (s : State) : Answer := .next (s.vxPlain id 0x39 w (vxVec 1 fun t => t = 1))
/-- VX 3Ah. -/
def execVxRcp (id : GroupId) (w : Fields) (s : State) : Answer := .next (s.vxPlain id 0x3A w (vxVec 1 fun t => t = 1))
/-- VX 3Bh. -/
def execVxRsqrt (id : GroupId) (w : Fields) (s : State) : Answer := .next (s.vxPlain id 0x3B w (vxVec 1 fun t => t = 1))
/-- VX 40h: the element whose index is in RS2, to a scalar; the group waits. -/
def execVxExtr (id : GroupId) (w : Fields) (s : State) : Answer :=
  .next (s.vxIssue id 0x40 w { rd := Opnd.ofFmt w.ty, rs1 := .v, rs2 := .r, aux := auxZero } true noChecks noMark)
/-- VX 41h: the vector status word; AUX bit 0 clears EMPTY; the group waits. -/
def execVxGets (id : GroupId) (w : Fields) (s : State) : Answer :=
  .next (s.vxIssue id 0x41 w { rd := .r, aux := fun a => a ≤ 1, fmts := fmtZero } true noChecks noMark)

/-- A chain slot of a cluster. -/
def State.slot (s : State) (cl i : Nat) : ChainSlot := sgetD (s.cluster cl).slots i {}
def State.setSlot (s : State) (cl i : Nat) (x : ChainSlot) : State := s.modCluster cl fun c => { c with slots := sput c.slots i x {} }

/-- Whether an MXDRAIN that names a slot is still queued or on the slip. While a load of the slot is queued no
later MXDRAIN that names it issues, so each of these was issued before the load (R145). -/
def Cluster.slotInUse (c : Cluster) (i : Nat) : Bool :=
  c.slip.any (fun e => e.slot = i && e.chain.isSome) ||
    c.mxq.any (fun e => match e.op with | .drain _ _ sl _ _ => sl = i | _ => false)

/-- VX 48h: at issue the slot is marked as loading, once more for each load queued; the group waits (R145). Slot 0 is no slot: an
undefined encoding (DEDUCED, log 20). -/
def execVxChld (id : GroupId) (w : Fields) (s : State) : Answer :=
  .next (s.vxIssue id 0x48 w { rs1 := .r, aux := fun a => decide (1 ≤ a) && decide (a ≤ 7), fmts := fmtZero } true noChecks
    fun s gk => (s.count 0xA051 5 (b2n ((s.cluster (gcluster gk)).slotInUse w.aux))).setSlot (gcluster gk) w.aux { s.slot (gcluster gk) w.aux with loading := (s.slot (gcluster gk) w.aux).loading + 1 })
/-- VX 49h, at issue: one base of a slot. -/
def execVxChbase (id : GroupId) (w : Fields) (s : State) : Answer :=
  let x : VxSpec := { rs1 := .r, aux := fun a => decide (a < 32) && decide (a / 4 ≥ 1), fmts := fmtZero }
  .next (s.issue id 0xA 0x49 w (x.sig w) true (fun _ => none) (fun _ _ => none) fun s gk g _ =>
    if w.ty ≠ 0 then .fault s { code := 0x401, arg0 := w.ty, arg1 := w.aux }
    else
      let cl := gcluster gk
      let sl := s.slot cl (w.aux / 4)
      let b := g.reg g.lead w.rs1.toNat
      .done (((s.count 0xA051 1 1).setSlot cl (w.aux / 4) { sl with bases := sput sl.bases (w.aux % 4) b 0 }).setGroup gk g.next))

/-! ### Execution -/

def wOp (w : W64) : Nat := field w.toNat 52 8
def wTy (w : W64) : Nat := field w.toNat 48 4
def wRd (w : W64) : Nat := field w.toNat 32 8
def wRs1 (w : W64) : Nat := field w.toNat 24 8
def wRs2 (w : W64) : Nat := field w.toNat 16 8
def wRs3 (w : W64) : Nat := field w.toNat 8 8
def wAux (w : W64) : Nat := field w.toNat 0 8

def Group.vreg (g : Group) (r : Nat) : Nat := (sgetD g.vregs r 0).toNat
def Group.setVreg (g : Group) (r v : Nat) : Group := { g with vregs := sput g.vregs r (BitVec.ofNat 4096 v) 0 }
/-- A mask register; VM0 is all ones, and writes to it are ignored (R132). -/
def Group.mask (g : Group) (m : Nat) : Nat := if m = 0 then 2 ^ 1024 - 1 else (sgetD g.vmask m 0).toNat
def Group.setMask (g : Group) (m v : Nat) : Group := if m = 0 then g else { g with vmask := sput g.vmask m (BitVec.ofNat 1024 v) 0 }
/-- The governing bit of an element: AUX 7:5 the mask register, bit 4 inverts. -/
def Group.act (g : Group) (aux i : Nat) : Bool := (g.mask (aux / 32)).testBit i != aux.testBit 4

/-- Write elements below L: `f` gives the value and flags, or none to leave the element. -/
def Group.vmap (g : Group) (rd fmt len : Nat) (f : Nat → Option (Nat × Flags)) : Group :=
  let (v, fl) := (List.range len).foldl (fun (v, fl) i =>
    match f i with
    | some (x, h) => (vput fmt v i x, fl ||| h)
    | none => (v, fl)) (g.vreg rd, (0 : Flags))
  (g.setVreg rd v).flag fl

/-- An element-wise float operation by OP (R137). -/
def vxArith (op : Nat) (f : Fmt) (flush : Bool) (a b c : Nat) : Nat × Flags :=
  match op with
  | 0x10 => f.add flush a b
  | 0x11 => f.sub flush a b
  | 0x12 => f.mul flush a b
  | 0x13 => f.fma flush a b c
  | 0x14 => f.minMax flush false a b
  | 0x15 => f.minMax flush true a b
  | 0x16 => fSign f flush false a
  | _ => fSign f flush true a

/-- A bitwise operation by OP. -/
def vxBits (op fmt a b : Nat) : Nat :=
  (match op with
   | 0x18 => a &&& b
   | 0x19 => a ||| b
   | 0x1A => a ^^^ b
   | _ => a ^^^ (2 ^ elemBits fmt - 1)) &&& elemMask fmt

/-- A compare by OP: 1 EQ, 3 LT, 4 LE; a NaN compares false (R137). -/
def vxCompare (op fmt : Nat) (flush : Bool) (a b : Nat) : Bool × Flags :=
  match elemFmt fmt with
  | some f => f.compare flush (match op with | 0x20 => 1 | 0x21 => 3 | _ => 4) a b
  | none =>
    let x := sext (elemBits fmt) a
    let y := sext (elemBits fmt) b
    ((match op with | 0x20 => decide (x = y) | 0x21 => decide (x < y) | _ => decide (x ≤ y)), 0)

/-- A function of the transcendental unit by OP. -/
def vxFunc (op : Nat) (flush : Bool) (a : Nat) : Nat × Flags :=
  match op with
  | 0x38 => fExp2 flush a
  | 0x39 => fLog2 flush a
  | 0x3A => fRcp flush a
  | _ => fRsqrt flush a

/-- What a queued instruction does to its group's registers; loads read the cluster. -/
def vxEffect (c : Cluster) (flush : Bool) (e : VxEntry) (g : Group) : Group :=
  let op := wOp e.word
  let fmt := wTy e.word
  let aux := wAux e.word
  let rd := wRd e.word
  let a := g.vreg (wRs1 e.word)
  let b := g.vreg (wRs2 e.word)
  let d := g.vreg (wRs3 e.word)
  let len := vxLen e.vl fmt
  let each := fun (f : Nat → Nat × Flags) => g.vmap rd fmt len fun i => if g.act aux i then some (f i) else none
  match op with
  | 0x02 =>
    let bits := elemBits fmt
    each fun i =>
      (if bits = 4 then field (c.spadRead (e.s1.toNat + i / 2) 1) (4 * (i % 2)) 4
       else c.spadRead (e.s1.toNat + i * (bits / 8)) (bits / 8), 0)
  | 0x04 => each fun _ => (containerCode fmt e.s1.toNat, 0)
  | 0x10 | 0x11 | 0x12 | 0x13 | 0x14 | 0x15 | 0x16 | 0x17 =>
    (match elemFmt fmt with
     | some f => each fun i => vxArith op f flush (vget fmt a i) (vget fmt b i) (vget fmt d i)
     | none => g)
  | 0x18 | 0x19 | 0x1A | 0x1B => each fun i => (vxBits op fmt (vget fmt a i) (vget fmt b i), 0)
  | 0x1C =>
    let src := aux % 16
    let n := if elemsPer fmt < elemsPer src then elemsPer fmt else elemsPer src
    let l := if e.vl < n then e.vl else n
    (match elemType src, elemType fmt with
     | some ts, some td => g.vmap rd fmt l fun i => if g.act aux i then some (convert flush ts td (vget src a i)) else none
     | _, _ => g)
  | 0x20 | 0x21 | 0x22 =>
    let (m, fl) := (List.range len).foldl (fun (m, fl) i =>
      if g.act aux i then
        let (r, h) := vxCompare op fmt flush (vget fmt a i) (vget fmt b i)
        (setField m i 1 (b2n r), fl ||| h)
      else (m, fl)) (g.mask rd, (0 : Flags))
    (g.setMask rd m).flag fl
  | 0x23 => g.vmap rd fmt len fun i => some (if g.act aux i then vget fmt a i else vget fmt b i, 0)
  | 0x24 => g.setMask rd (g.mask (wRs1 e.word) &&& g.mask (wRs2 e.word))
  | 0x25 => g.setMask rd (g.mask (wRs1 e.word) ||| g.mask (wRs2 e.word))
  | 0x26 => g.setMask rd (g.mask (wRs1 e.word) ^^^ g.mask (wRs2 e.word))
  | 0x27 => g.setMask rd (g.mask (wRs1 e.word) ^^^ (2 ^ 1024 - 1))
  | 0x28 => each fun i => let k := field b (16 * i) 16; (if k < len then vget fmt a k else 0, 0)
  | 0x29 => g.vmap rd fmt len fun i => some ((e.s1.toNat + i * e.s2.toNat) % 65536, 0)
  | 0x30 =>
    let redop := aux % 8
    let xs := (List.range len).map fun i => if g.act aux i then some (vget fmt a i) else none
    if xs.all (fun x => x.isNone) then { g.setVreg rd (vput fmt (g.vreg rd) 0 (redEmpty fmt redop)) with empty := true }
    else
      let (v, fl) := reduceElems flush fmt redop xs
      (g.setVreg rd (vput fmt (g.vreg rd) 0 v)).flag fl
  | 0x38 | 0x39 | 0x3A | 0x3B => each fun i => vxFunc op flush (vget fmt a i)
  | 0x40 =>
    let i := e.s2.toNat
    { g.setAll rd (fmt = 0) (if i < len then vget fmt a i else 0) with wait := .ready }
  | 0x41 =>
    let g := g.setAll rd false (b2n g.empty + 65536 * g.vl)
    { g with wait := .ready, empty := if aux.testBit 0 then false else g.empty }
  | _ => g

/-- Engine clocks of an instruction by OP (R134): of VXCHLD, by the stages loaded. -/
def vxClocks (op stages : Nat) : Nat :=
  match op with
  | 0x28 => 2
  | 0x30 => 8
  | 0x38 | 0x39 | 0x3A | 0x3B => 4
  | 0x48 => 1 + 2 * stages
  | _ => 1

/-- VXST: the active elements, one by one (R136). -/
def State.vxStore (s : State) (gk : Nat) (g : Group) (e : VxEntry) : State :=
  let fmt := wTy e.word
  let bits := elemBits fmt
  let v := g.vreg (wRd e.word)
  (List.range (vxLen e.vl fmt)).foldl (fun s i =>
    if !g.act (wAux e.word) i then s
    else if bits = 4 then s.halfStore gk (e.s1.toNat + i / 2) (decide (i % 2 = 1)) (vget fmt v i)
    else s.spadStore gk 2 (e.s1.toNat + i * (bits / 8)) (toLE (bits / 8) (vget fmt v i))) s

end Sys2Proof.Machine
end

