-- ==== Sys2Proof/Machine/Chain.lean ====
section
/-! DEFINITION. Chains (R143 to R150): descriptors and their checks, element programs, the slip's passes,
MXDRAIN, and the start of queued vector instructions. -/
namespace Sys2Proof.Machine

/-! ### Descriptors (R146, R148) -/

/-- How many sources an element operation reads; none for a reserved OP (R144). -/
def elOpSources : Nat → Option Nat
  | 1 | 8 | 9 | 11 | 12 | 13 | 14 => some 1
  | 2 | 3 | 4 | 6 | 7 => some 2
  | 5 | 10 => some 3
  | _ => none
def elTranscendental (op : Nat) : Bool := decide (11 ≤ op ∧ op ≤ 14)

/-- An element instruction is well formed in a stage: `rs` says that an earlier ROWRED stands. -/
def elInstrOk (wide rowEn colEn rs : Bool) (w : Nat) : Bool :=
  match elOpSources (field w 26 6) with
  | none => false
  | some n =>
    let src := [field w 18 4, field w 14 4, field w 10 4]
    decide (field w 22 4 ≤ 7) && field w 0 10 = 0 && (src.drop n).all (fun x => x = 0)
      && (src.take n).all (fun x => (x ≠ 8 || rowEn) && (x ≠ 9 || colEn) && (x ≠ 10 || rs))
      && !(wide && elTranscendental (field w 26 6))

/-- The first index of a list where a check fails. -/
def firstBad (p : Nat → Bool) (l : List Nat) : Option Nat := l.findIdx? fun x => !p x

/-- A stage record read from its 1,024 bits; the error is the instruction at fault, FFh for a field.
`rs`: an earlier ROWRED stands (DEDUCED, log 22). Of several errors it names the first: its fields before its
instructions, and with `parseStages` the first stage (DESIGN CHOICE, log 135). -/
def parseStage (wide rs : Bool) (x : Nat) : Except Nat Stage :=
  let kind := field x 0 2
  let n := field x 4 5
  let rowEn := x.testBit 14
  let colEn := x.testBit 18
  let rowBf := x.testBit 15
  let colBf := x.testBit 19
  let words := (List.range 16).map fun i => field x (512 + 32 * i) 32
  let redop := field x 9 3
  let fieldsOk := kind ≠ 3 && field x 2 2 = 0 && n ≤ 16 && field x 24 136 = 0 && field x 320 192 = 0
    && (words.drop n).all (fun w => w = 0)
    && (rowEn || (field x 12 2 = 0 && !rowBf)) && (colEn || (field x 16 2 = 0 && !colBf))
    && !(wide && (rowBf || colBf))
    && (match kind with
        | 0 => redop = 0 && field x 20 4 = 0
        | 1 => (redop = 0 || redop = 2 || redop = 3) && field x 20 4 = 0
        | _ => redop = 0 && n = 0 && !rowEn && !colEn && field x 160 160 = 0 && field x 22 2 ≤ 1
                 && (field x 22 2 = 0 || field x 20 2 = 0) && rs)
  if !fieldsOk then .error 0xFF
  else match firstBad (elInstrOk wide rowEn colEn rs) (words.take n) with
    | some i => .error i
    | none => .ok
      { kind := kind, ninstr := n, redop := redop, rowBase := field x 12 2, rowEn := rowEn, rowBf16 := rowBf
        colBase := field x 16 2, colEn := colEn, colBf16 := colBf, outBase := field x 20 2, outDest := field x 22 2
        consts := (List.range 5).map fun i => BitVec.ofNat 32 (field x (160 + 32 * i) 32)
        program := (words.take n).map fun w => BitVec.ofNat 32 w }

/-- The stages of a descriptor in order; the error is the stage and the instruction. -/
def parseStages (wide : Bool) : Nat → Bool → Nat → List Nat → Except (Nat × Nat) (List Stage)
  | _, _, _, [] => .ok []
  | i, rs, outs, x :: r =>
    match parseStage wide rs x with
    | .error n => .error (i, n)
    | .ok st =>
      let outs := if st.kind = 2 ∧ st.outDest = 1 then outs + 1 else outs
      if outs > 1 then .error (i, 0xFF)
      else match parseStages wide (i + 1) (rs || st.kind = 1) outs r with
        | .error e => .error e
        | .ok l => .ok (st :: l)

/-- A descriptor's header: stages and WIDE, or none where a field is out of range (R148). -/
def parseHeader (h : Nat) : Option (Nat × Bool) :=
  let n := field h 8 8
  if field h 48 464 = 0 ∧ field h 32 16 = 1 ∧ field h 16 16 = 0 ∧ field h 1 7 = 0 ∧ 1 ≤ n ∧ n ≤ 8
  then some (n, h.testBit 0) else none

/-- Load a descriptor from a cluster's scratchpad (R148). -/
def Cluster.loadChain (c : Cluster) (off : Nat) : Except FaultInfo Chain :=
  if off + 64 > c.spadSize then .error { code := 0x402, arg0 := off + 64, arg1 := c.spadSize }
  else
    let n := field (c.spadRead off 64) 8 8
    let last := off + 64 + 128 * n
    if last > c.spadSize then .error { code := 0x402, arg0 := last, arg1 := c.spadSize }
    else if off % 64 ≠ 0 then .error { code := 0x403, arg0 := off, arg1 := 64 }
    else match parseHeader (c.spadRead off 64) with
      | none => .error { code := 0x404, arg0 := 0xFF, arg1 := 0xFF }
      | some (n, wide) =>
        match parseStages wide 0 false 0 ((List.range n).map fun i => c.spadRead (off + 64 + 128 * i) 128) with
        | .error (i, k) => .error { code := 0x404, arg0 := i, arg1 := k }
        | .ok l => .ok { wide := wide, stages := l }

/-! ### Element programs (R143, R144) -/

/-- The working format and the bytes of one of its values. -/
def workFmt (wide : Bool) : Fmt := if wide then .fp64 else .fp32
def workBytes (wide : Bool) : Nat := if wide then 8 else 4

/-- The names a program sees besides t0 to t7. -/
structure ElEnv where
  row : Nat
  col : Nat
  rs : Nat
  consts : List Nat

/-- The value an operand code names. -/
def elSrc (env : ElEnv) (ts : List Nat) (code : Nat) : Nat :=
  if code < 8 then ts.getD code 0
  else if code = 8 then env.row else if code = 9 then env.col else if code = 10 then env.rs
  else env.consts.getD (code - 11) 0

/-- SEL: B where A is greater than +0; FLUSH replaces A alone (R92, R144). -/
def elSel (f : Fmt) (flush : Bool) (a b c : Nat) : Nat × Flags :=
  let (x, fx) := f.read flush a
  (if !x.isNan && cmpNum x (.fin false 0 0) = .gt then b else c, fx)

/-- One element operation.
(DEDUCED, log 110.) -/
def elOp (f : Fmt) (flush : Bool) (op a b c : Nat) : Nat × Flags :=
  match op with
  | 1 => (a, 0)
  | 2 => f.add flush a b
  | 3 => f.sub flush a b
  | 4 => f.mul flush a b
  | 5 => f.fma flush a b c
  | 6 => f.minMax flush false a b
  | 7 => f.minMax flush true a b
  | 8 => fSign f flush false a
  | 9 => fSign f flush true a
  | 10 => elSel f flush a b c
  | 11 => fExp2 flush a
  | 12 => fLog2 flush a
  | 13 => fRcp flush a
  | _ => fRsqrt flush a

/-- Run a program on one element: t0 in, t0 out. -/
def elRun (f : Fmt) (flush : Bool) (env : ElEnv) (prog : List W32) (t0 : Nat) : Nat × Flags :=
  let (ts, fl) := prog.foldl (fun (ts, fl) w =>
    let x := w.toNat
    let (v, h) := elOp f flush (field x 26 6) (elSrc env ts (field x 18 4)) (elSrc env ts (field x 14 4)) (elSrc env ts (field x 10 4))
    (ts.set (field x 22 4) v, fl ||| h)) ([t0, 0, 0, 0, 0, 0, 0, 0], (0 : Flags))
  (ts.headD 0, fl)

/-- Bytes of a row or column operand element. -/
def opndBytes (wide bf : Bool) : Nat := if bf then 2 else workBytes wide

/-- Read a row or column operand in the working format; bf16 widens exactly. -/
def Cluster.chainOpnd (c : Cluster) (wide bf : Bool) (base i : Nat) : Nat :=
  let x := c.spadRead (base + opndBytes wide bf * i) (opndBytes wide bf)
  if bf then 65536 * x else x

/-- What a row's way through the stages carries: the elements, the row statistic and the flags. -/
structure ChainRow where
  elems : List Nat
  rs : Nat := 0
  flags : Flags := 0

/-- A MAP or ROWRED stage on row `i` of the rectangle (R147). -/
def Cluster.chainStage (c : Cluster) (flush wide : Bool) (bases : Sparse Nat) (i : Nat) (x : ChainRow) (st : Stage) : ChainRow :=
  let f := workFmt wide
  let consts := st.consts.map fun k => if wide then (convert false (.float .fp32) (.float .fp64) k.toNat).1 else k.toNat
  let row := if st.rowEn then c.chainOpnd wide st.rowBf16 (sgetD bases st.rowBase 0) i else 0
  let run := (x.elems.zipIdx).map fun (e, j) =>
    elRun f flush { row := row, col := if st.colEn then c.chainOpnd wide st.colBf16 (sgetD bases st.colBase 0) j else 0
                    rs := x.rs, consts := consts } st.program e
  let fl := run.foldl (fun a r => a ||| r.2) x.flags
  match st.kind with
  | 0 => { x with elems := run.map Prod.fst, flags := fl }
  | 1 =>
    let (v, h) := reduceElems flush (if wide then 0 else 1) st.redop (run.map fun r => some r.1)
    { x with rs := v, flags := fl ||| h }
  | _ => x

/-! ### The slip (R95, R115 to R118, R150) -/

/-- The value the slip delivers for an element, with the type it has: native scales applied with one
rounding; an i32 tile without native scales delivers i32 (R95, R115). -/
def AccTile.deliver (t : AccTile) (flush : Bool) (i j : Nat) : NumType × Nat × Flags :=
  let raw := (sgetD t.vals (64 * i + j) 0).toNat
  let sc := fun (m : Option (Sparse W32)) (k : Nat) => match m with
    | some l => Fmt.fp32.read flush (sgetD l k 0).toNat
    | none => (Num.fin false 1 0, 0)
  let (ra, fa) := sc t.rowScale i
  let (cb, fb) := sc t.colScale j
  match t.kind with
  | .i32 =>
    if t.rowScale.isNone ∧ t.colScale.isNone then (.int true 32, raw, 0)
    else
      let v := sext 32 raw
      let (r, fr) := Fmt.fp32.finish flush (mulAll [.fin (decide (v < 0)) v.natAbs 0, ra, cb])
      (.float .fp32, r, fa ||| fb ||| fr)
  | k =>
    let (x, fx) := k.fmt.read flush raw
    let (r, fr) := k.fmt.finish flush (mulAll [x, ra, cb])
    (.float k.fmt, r, fx ||| fa ||| fb ||| fr)

/-- The write of a ROWOUT stage on row `i`: the row statistic to a vector in scratchpad, or converted to the
destination's row scale (R147). -/
def State.rowOut (s : State) (gk h m0 i : Nat) (flush wide : Bool) (bases : Sparse Nat) (st : Stage) (rs : Nat) : State :=
  if st.outDest = 1 then
    let k := hScaleKind h
    let v := convert flush (.float (workFmt wide)) (.float (if k = 1 then .fp32 else .bf16)) rs
    (s.flagGroup gk v.2).spadStore gk 2 (hBase h + 64 * hRScale h + (m0 + i) * scaleBytes k) (toLE (scaleBytes k) v.1)
  else s.spadStore gk 2 (sgetD bases st.outBase 0 + workBytes wide * i) (toLE (workBytes wide) rs)

/-- One stage on row `i`: each stage reads scratchpad as the stages before it left it (R147). -/
def State.chainStage (cl gk h m0 i : Nat) (flush wide : Bool) (bases : Sparse Nat) (x : State × ChainRow) (st : Stage) : State × ChainRow :=
  if st.kind = 2 then (x.1.rowOut gk h m0 i flush wide bases st x.2.rs, x.2)
  else (x.1, (x.1.cluster cl).chainStage flush wide bases i x.2 st)

/-- One row of a draining tile through the slip and its chain into the destination. A row passes every
stage before the next row begins (DESIGN CHOICE, log 143). -/
def State.slipRow (s : State) (cl : Nat) (e : SlipEntry) (i : Nat) : State :=
  let gk := 64 * cl + e.group
  let flush := s.flushOf gk
  let t := s.tile cl e.tile
  let h := e.dest.toNat
  let m0 := offM e.off.toNat
  let n0 := offN e.off.toNat
  let del := (List.range 64).map fun j => t.deliver flush i j
  let fl := del.foldl (fun f d => f ||| d.2.2) 0
  let dst := (elemType (hFormat h)).getD .e8m0
  match e.chain with
  | none =>
    let out := del.map fun d => convert flush d.1 dst d.2.1
    let s := (out.zipIdx).foldl (fun s (r, j) => s.elemStore gk h (m0 + i) (n0 + j) r.1) s
    s.flagGroup gk (out.foldl (fun f r => f ||| r.2) fl)
  | some (ch, bases) =>
    let f := workFmt ch.wide
    let entry := del.map fun d => if d.1 = .float f then (d.2.1, (0 : Flags)) else convert flush d.1 (.float f) d.2.1
    let fl := entry.foldl (fun a r => a ||| r.2) fl
    let (s, x) := ch.stages.foldl (State.chainStage cl gk h m0 i flush ch.wide bases) (s, { elems := entry.map Prod.fst, flags := fl })
    let out := x.elems.map fun v => convert flush (.float f) dst v
    let s := (out.zipIdx).foldl (fun s (r, j) => s.elemStore gk h (m0 + i) (n0 + j) r.1) s
    s.flagGroup gk (out.foldl (fun a r => a ||| r.2) x.flags)

/-- Clocks of a stage per pass: its instructions' clocks, one more for ROWRED; none of a ROWOUT (R144, R150). -/
def Stage.clocks (st : Stage) : Nat :=
  let prog := (st.program.map fun w => if elTranscendental (field w.toNat 26 6) then 4 else 1).sum
  if st.kind = 2 then 0 else if st.kind = 1 then prog + 1 else prog
/-- Clocks from a pass of an entry to the pass after it: max(1, W) (R150). -/
def SlipEntry.pace (e : SlipEntry) : Nat :=
  match e.chain with
  | some (ch, _) => if (ch.stages.map Stage.clocks).sum < 1 then 1 else (ch.stages.map Stage.clocks).sum
  | none => 1

/-- A pass reads its entry's accumulator tile and the row and column operands of its chain (R365). -/
def State.slipMeet (s : State) (cl : Nat) (e : SlipEntry) : State × Option FaultInfo :=
  match s.meetEntries .accumulators cl 7 0 fun x => x = e.tile with
  | (s, some f) => (s, some f)
  | (s, none) => match e.chain with
    | none => (s, none)
    | some (ch, bases) =>
      let rows := (s.tile cl e.tile).kind.rows
      s.meetScratch cl 0 (ch.stages.flatMap fun st =>
        (if st.rowEn then [(sgetD bases st.rowBase 0, opndBytes ch.wide st.rowBf16 * rows)] else [])
          ++ (if st.colEn then [(sgetD bases st.colBase 0, opndBytes ch.wide st.colBf16 * 64)] else []))

/-- SLIP_PASS: the engine takes one pass of 512 bytes of the oldest entry: two rows, or one of an fp64
tile. The 32nd pass releases the tile. The pass after it is due when the pace has gone by (R116, R150). -/
def execSlipPass (cl : Fin 512) (s : State) : Answer :=
  .next (State.settleEnds (match (s.cluster cl.val).slip with
    | [] => s
    | e :: rest => match s.slipMeet cl.val e with
      | (s, some f) => (s.engineFault (64 * cl.val + e.group) e.pc e.word none f).1
      | (s, none) =>
      let two := (s.tile cl.val e.tile).kind != .fp64
      let s := if two then (s.slipRow cl.val e (2 * e.pass)).slipRow cl.val e (2 * e.pass + 1) else s.slipRow cl.val e e.pass
      let s := if e.chain.isSome then s.count 0xA051 2 1 else s
      let s := s.count 0xA051 3 1
      if e.pass + 1 < 32 then s.modCluster cl.val fun c => { c with slipPace := e.pace, slip := { e with pass := e.pass + 1 } :: rest }
      else
        (s.setTile cl.val e.tile { s.tile cl.val e.tile with draining := false }).modCluster cl.val fun c =>
          { c with slipPace := e.pace, slip := rest }) cl.val)

/-! ### MXDRAIN (R106, R117, R149) -/

/-- Whether some stage writes the destination's row scales. -/
def Chain.writesScales (ch : Chain) : Bool := ch.stages.any fun st => st.kind = 2 && st.outDest = 1

/-- The first operand or output vector of a chain that is misaligned or leaves the scratchpad, in stage order and
within a stage row, column, output; ARG0 is the byte offset that the failing base holds (DESIGN CHOICE, log 138). -/
def chainOperandFault (ch : Chain) (bases : Sparse Nat) (rows size : Nat) : Option FaultInfo :=
  let vec := fun (b bytes n : Nat) =>
    let base := sgetD bases b 0
    ([(decide (base % bytes ≠ 0) || decide (base + bytes * n > size), { code := 0x408, arg0 := base, arg1 := base + bytes * n })] : List Check)
  firstFault (ch.stages.flatMap fun st =>
    (if st.rowEn then vec st.rowBase (opndBytes ch.wide st.rowBf16) rows else [])
      ++ (if st.colEn then vec st.colBase (opndBytes ch.wide st.colBf16) 64 else [])
      ++ (if st.kind = 2 ∧ st.outDest = 0 then vec st.outBase (workBytes ch.wide) rows else []))

/-- MX 02h MXDRAIN. A loading chain slot or a full queue holds the group.
(DEDUCED, log 23.) -/
def execMxDrain (id : GroupId) (w : Fields) (s : State) : Answer :=
  let offset := w.aux.testBit 7
  let slot := field w.aux 4 3
  let acc := w.aux % 16
  .next (s.issue id 9 0x02 w (mxSig w false offset true) true (fun _ => none) (fun _ g => accumRange acc g)
    fun s gk g _ =>
      let cl := gcluster gk
      let sl := s.slot cl slot
      if (s.cluster cl).mxq.length ≥ 4 ∨ (slot ≠ 0 ∧ sl.loading ≠ 0) then .hold s
      else
        let h := g.pair g.lead w.rs2
        let o := if offset then g.reg g.lead w.rs3 else 0
        let tile := g.accumBase + acc
        let opened := s.tileOpen cl tile
        let rows := match opened with
          | some (_, k) => k.rows
          | none => 64
        let size := (s.cluster cl).spadSize
        let scales := slot ≠ 0 && (match sl.chain with | some ch => ch.writesScales | none => false)
        let drainBad := slot = 0 && (hScaleKind h ≠ 0 || hFormat h = 12)
        let checks : List Check :=
          ([(hTop h ≠ 0, { code := 0x301, arg0 := h, arg1 := 3 }),
            (w.ty = 12 || hFormat h ≠ w.ty, { code := 0x302, arg0 := w.ty, arg1 := hFormat h }),
            (rectBad h o rows, { code := 0x303, arg0 := h, arg1 := o }),
            (drainBad && opened.isNone, { code := 0x309, arg0 := h }),
            (opened.isNone, { code := 0x305, arg0 := acc }),
            ((match opened with | some (x, _) => x != gk % 64 | none => false), { code := 0x307, arg0 := acc, arg1 := (opened.map Prod.fst).getD 0 })] : List Check)
          ++ asCheck (scratchFault h (hExtent h (if scales then .a else .plain)) size)
          ++ ([(drainBad, { code := 0x309, arg0 := h })] : List Check)
          ++ (if slot = 0 then [] else match sl.chain with
              | none => [(true, { code := 0x405, arg0 := slot })]
              | some ch =>
                ([(ch.wide != (match opened with | some (_, .fp64) => true | _ => false), { code := 0x406, arg0 := slot, arg1 := b2n ch.wide }),
                  (hFormat h = 12 || hScaleKind h = 3 || ((hScaleKind h = 1 || hScaleKind h = 2) != ch.writesScales), { code := 0x407, arg0 := h, arg1 := slot })] : List Check)
                  ++ asCheck (chainOperandFault ch sl.bases rows size))
        match firstFault checks with
        | some f => .fault s f
        | none =>
          let s := s.setTile cl tile { s.tile cl tile with openBy := none, latchMeta := none }
          .done (s.mxPush gk g (w.word 9 0x02) (.drain (BitVec.ofNat 64 h) (BitVec.ofNat 32 o) slot (if slot = 0 then none else sl.chain.map fun ch => (ch, sl.bases)) tile)))

/-! ### The vector engine's queue (R135, R145) -/

/-- VXCHLD in the queue: the checks of R148, then the load; a fault halts the group and leaves the slot
empty. The bases are kept. -/
def State.vxLoadChain (s : State) (cl gk : Nat) (e : VxEntry) : State :=
  let i := wAux e.word
  match (s.cluster cl).loadChain e.s1.toNat with
  | .ok ch => (s.setSlot cl i { s.slot cl i with loading := (s.slot cl i).loading - 1, chain := some ch }).modGroup gk fun g => { g with wait := .ready }
  | .error f => ((s.setSlot cl i { s.slot cl i with loading := (s.slot cl i).loading - 1, chain := none }).engineFault gk e.pc e.word none f).1

/-- The stages a VXCHLD at this place loads; none where its descriptor is bad. -/
def State.chainStages (s : State) (cl : Nat) (e : VxEntry) : Nat :=
  match (s.cluster cl).loadChain e.s1.toNat with
  | .ok ch => ch.stages.length
  | .error _ => 0

/-- Whether a slip pass is due: the slip holds an entry, and the clocks that queued instructions have run
since the last pass leave less than one more before the next (R116, R135). -/
def Cluster.passDue (c : Cluster) : Bool := !c.slip.isEmpty && decide (c.slipPace ≤ 1)

/-- A queued instruction reads scratchpad: VXLD its elements, VXCHLD its descriptor (R365). -/
def State.vxMeet (s : State) (cl : Nat) (e : VxEntry) : State × Option FaultInfo :=
  let at_ := e.s1.toNat
  match wOp e.word with
  | 0x02 => s.meetScratch cl 0 [(at_, (vxLen e.vl (wTy e.word) * elemBits (wTy e.word) + 7) / 8)]
  | 0x48 => s.meetScratch cl 0 [(at_, 64 + 128 * field ((s.cluster cl).spadRead at_ 64) 8 8)]
  | _ => (s, none)

/-- VECTOR_ENGINE_START: the instruction at the head of the queue executes, in queue order, once its
group's fences allow its accesses and, for VXCHLD, the slot's drains have left the slip. It does not start
while a slip pass is due (R135; DESIGN CHOICE, log 144). -/
def execVectorEngineStart (cl : Fin 512) (s : State) : Answer :=
  .next (State.settleEnds (match (s.cluster cl.val).vxq with
    | [] => s
    | e :: rest =>
      let gk := 64 * cl.val + e.group
      let op := wOp e.word
      if (s.cluster cl.val).passDue || s.fenced gk e.no true (vxStores e.word) || (op = 0x48 && (s.cluster cl.val).slotInUse (wAux e.word)) then s
      else
        let s := (s.modCluster cl.val fun c => { c with vxq := rest, slipPace := c.slipPace - vxClocks op (s.chainStages cl.val e) }).count 0xA051 1 1
        match s.group? gk with
        | none => s
        | some g => match s.vxMeet cl.val e with
          | (s, some f) => (s.engineFault gk e.pc e.word none f).1
          | (s, none) =>
          if op = 0x48 then s.vxLoadChain cl.val gk e
          else if op = 0x03 then s.vxStore gk g e
          else
            let g' := vxEffect (s.cluster cl.val) (s.flushOf gk) e g
            let s := s.setGroup gk g'
            if op = 0x30 ∧ g'.empty = true ∧ ((List.range (vxLen e.vl (wTy e.word))).all fun i => !g.act (wAux e.word) i) = true
            then s.count 0xA051 4 1 else s) cl.val)

end Sys2Proof.Machine
end

