-- ==== Sys2Proof/Machine/Cores.lean ====
section
/-! DEFINITION. What the processor cores do to the rest of the node: their accesses to every window (R16,
R338), fences (R203), cache-block operations (R339) and the timer interrupt (R430). Instructions that stay
within a core are the RISC-V specification's. -/
namespace Sys2Proof.Machine

/-- The L3 complex of a hart: caching agent 8 or 9 (R226), of die 4 or 5. -/
def coreAgent (h : Nat) : Nat := 8 + h / 96
def coreDie (h : Nat) : Nat := 4 + h / 96

/-- The exception an operation raises: 1 load, 2 store, 3 instruction access fault. -/
def faultKind : CoreOp → Nat
  | .load | .lr => 1
  | .fetch => 3
  | .store | .amo | .sc => 2

def atomicCore : CoreOp → Bool
  | .amo | .lr | .sc => true
  | _ => false

/-- The result of a core's access reaches the core. -/
def State.coreValue (s : State) (h v : Nat) : State :=
  (s.modHart h fun x => { x with lastLoad := BitVec.ofNat 512 v }).send (.coreResult h (BitVec.ofNat 512 v))

/-- The value an AMO stores. -/
def amoStep (op : AmoOp) (w old x : Nat) : Nat :=
  let signedLt := sext w old < sext w x
  match op with
  | .swap => x
  | .add => (old + x) % 2 ^ w
  | .xor => old ^^^ x
  | .and => old &&& x
  | .or => old ||| x
  | .min => if signedLt then old else x
  | .max => if signedLt then x else old
  | .minu => if old < x then old else x
  | .maxu => if old < x then x else old

/-- Sectors of a line that `n` bytes from `o` touch. -/
def sectorsOf (o n : Nat) : BitVec 4 := BitVec.ofNat 4 (maskOf ((List.range 4).filter fun i => decide (o / 32 ≤ i) && decide (i ≤ (o + n - 1) / 32)))

/-- Read bytes of node memory through the L3 complex, line part by line part: the number, poison,
tombstone; none where a home answers RETRY. -/
def State.coreReadBytes (s : State) (h a n : Nat) (uncached : Bool) : Option (State × Nat × Bool × Bool) :=
  (lineParts 3 a n).foldl (fun acc (p, k) => acc.bind fun (s, v, bad, tomb) =>
    match s.keyAddr p with
    | none => none
    | some key =>
      (s.coreRead (coreAgent h) (lineOf key) (sectorsOf (key % 128) k) uncached).map fun (s, r) =>
        (s, v ||| (field r.data (8 * (key % 128)) (8 * k)) <<< (8 * (p - a)), bad || decide (r.poison ≠ 0), tomb || r.tomb)) (some (s, 0, false, false))

/-- Other harts' reservations on a line end when one of the die stores to it. -/
def State.storeBreaks (s : State) (h line : Nat) : State := s.breakReservations (coreAgent h) line

/-- Write bytes of node memory through the L3 complex. -/
def State.coreWriteBytes (s : State) (h a n v : Nat) (uncached : Bool) : Option State :=
  (lineParts 3 a n).foldl (fun acc (p, k) => acc.bind fun s =>
    match s.keyAddr p with
    | none => none
    | some key =>
      let o := key % 128
      (s.coreWrite (coreAgent h) (lineOf key) ((2 ^ k - 1) <<< o) ((field v (8 * (p - a)) (8 * k)) <<< (8 * o)) uncached).map fun s =>
        s.storeBreaks h (lineOf key)) (some s)

/-- Whether a leaf's PBMT makes a core's access to node memory uncached (R338); AMO, LR and SC are performed in the
cache (R203; DEDUCED, log 148). -/
def coreWeak (a : CoreAccess) : Bool := a.pbmt ≠ 0 && !atomicCore a.op

/-- A read of node memory: poison and tombstones raise the exception (R176, R366). -/
def State.coreLoad (s : State) (h : Nat) (a : CoreAccess) (reserve : Bool) : State :=
  let n := a.width.toNat
  match s.coreReadBytes h a.addr.toNat n (coreWeak a) with
  | none => s.retryMet
  | some (s, v, bad, tomb) =>
    if tomb then s.coreFault h (faultKind a.op) false
    else if bad then s.coreFault h (faultKind a.op) true
    else
      let s := if reserve then s.modHart h fun x => { x with reservation := (s.keyAddr a.addr.toNat).map lineOf } else s
      s.coreValue h v

/-- An access to node memory: cached and coherent; AMOs are performed in the cache (R203). -/
def State.coreMemory (s : State) (h : Nat) (a : CoreAccess) : State :=
  let n := a.width.toNat
  let x := field a.value.toNat 0 (8 * n)
  match a.op with
  | .load | .fetch => s.coreLoad h a false
  | .lr => s.coreLoad h a true
  | .store => (s.coreWriteBytes h a.addr.toNat n x (coreWeak a)).getD s.retryMet
  | .sc =>
    let held : Bool := match (s.hart h).reservation, s.keyAddr a.addr.toNat with
      | some l, some k => decide (l = lineOf k)
      | _, _ => false
    let t := s.modHart h fun y => { y with reservation := none }
    if held then
      match t.coreWriteBytes h a.addr.toNat n x false with
      | none => s.retryMet
      | some t => t.coreValue h 0
    else t.coreValue h 1
  | .amo =>
    match s.coreReadBytes h a.addr.toNat n false with
    | none => s.retryMet
    | some (t, old, bad, tomb) =>
      if tomb then t.coreFault h 2 false
      else if bad then t.coreFault h 2 true
      else match t.coreWriteBytes h a.addr.toNat n (amoStep a.amo (8 * n) old x) false with
        | none => s.retryMet
        | some t => t.coreValue h old

/-- An aligned access to a window that is not cached; where what serves it cannot be reached, a read returns
poison and a write is discarded (R14). -/
def State.coreUncached (s : State) (h : Nat) (a : CoreAccess) (w : Window) : State :=
  let n := a.width.toNat
  let pa := a.addr.toNat
  let x := field a.value.toNat 0 (8 * n)
  let die := coreDie h
  if !s.windowReached die w then (if a.op = .store then s else s.coreFault h (faultKind a.op) true)
  else match w, a.op with
  | .regs _, .store => s.writeAt .node (some (s.hartPart h)) pa n x
  | .regs _, _ => let (s, v) := s.readAt .node pa n; s.coreValue h v
  | .companion off, .store => s.send (.companionWrite off (toLE n x))
  | .companion _, _ => s.useFree.coreValue h (field s.freeNat 0 (8 * n))
  | .net off, .store => s.windowPut die off (2 ^ n - 1) x n (.coreStore h) none
  | .net off, _ => s.windowGet die off n (.core h)
  | .host port off, .store => s.hostWrite (s.hartPart h) port off (toLE n x) false
  | .host port off, _ => s.hostRead (s.hartPart h) port off n (.core h) false
  | _, _ => s

/-- Whether a window is node memory. -/
def Window.isMemory : Window → Bool
  | .hbm _ _ | .aliasWindow _ | .tier2 _ _ => true
  | _ => false

/-- Whether the attributes of R338 and the backing of R16 allow an access. An AMO, LR or SC is aligned, of
4 or 8 bytes. -/
def State.coreAllowed (s : State) (h : Nat) (a : CoreAccess) : Bool :=
  let n := a.width.toNat
  let pa := a.addr.toNat
  let w := window pa
  let aligned := decide (pa % n = 0)
  1 ≤ n && n ≤ 64 && decide (pa + n ≤ 2 ^ 48) && s.backedFor (s.hartPart h) pa && s.backedFor (s.hartPart h) (pa + n - 1)
    && (if w.isMemory then (!atomicCore a.op || (aligned && (n = 4 || n = 8)))
        else !atomicCore a.op && aligned && (match w with
          | .regs _ => n = 4 || n = 8
          | _ => n = 1 || n = 2 || n = 4 || n = 8))

/-- CORE_ACCESS of a running hart. An access that meets RETRY waits: nothing changes. -/
def execCoreAccess (hart : Fin 192) (a : CoreAccess) (s : State) : Answer :=
  let h := hart.val
  .next (if !(s.hart h).running || s.die (coreDie h) = 3 then s
    else
      let s := s.modHart h fun x => { x with accessFault := none }
      if !s.coreAllowed h a then s.coreFault h (faultKind a.op) false
      else
        let w := window a.addr.toNat
        if w.isMemory then s.coreMemory h a else s.coreUncached h a w)

/-- Network operations and host reads of a hart that have not ended. -/
def State.coreOut (s : State) (h : Nat) : Bool :=
  (s.net.ops.any fun o => o.user == .core h || o.user == .coreStore h) || s.host.reads.any fun r => r.user == .core h

/-- CORE_FENCE: a core's accesses are performed in order, so a fence orders nothing more. With both sets
iorw it is a completing fence at SYSTEM scope: it waits until the hart's remote accesses have ended, and
is counted (R203, R225). -/
def execCoreFence (hart : Fin 192) (pred : BitVec 4) (succ : BitVec 4) (s : State) : Answer :=
  .next (if !(s.hart hart.val).running || pred ≠ 15 || succ ≠ 15 || s.coreOut hart.val then s else s.count 0xA072 3 1)

/-! ### Cache blocks (R339) -/

/-- Write the dirty sectors of every copy of a line to memory, where the copies stay, now clean. -/
def State.cleanLine (s : State) (line : Nat) : State :=
  (List.range 13).foldl (fun s i =>
    ((s.agent i).copies.filter fun c => c.line = line && c.dirty ≠ 0).foldl (fun (s : State) c =>
      let f := fun (x : Copy) => if x.line = line then { x with dirty := 0 } else x
      (s.dramWriteLine line c.dirty.toNat c.poison.toNat c.data.toNat).modAgent i fun a => { a with copies := a.copies.map f }) s) s

/-- Take a line out of every cache and its directory, remote-node lines and tombstones left alone. -/
def State.dropLine (s : State) (line : Nat) : State :=
  let s := (List.range 13).foldl (fun s i => (s.breakReservations i line).modAgent i fun a =>
    { a with copies := a.copies.filter fun c => c.line ≠ line || c.remote || c.tomb }) s
  s.modAgent (s.home line) fun a => { a with dir := a.dir.filter fun e => e.line ≠ line }

/-- CBO_FLUSH: CLEAN writes dirty lines back; FLUSH, and INVAL as FLUSH, also takes the line out of the
caches. Outside node memory nothing is cached; an unbacked address raises a store access fault. A line with
a transaction in progress waits.
(DEDUCED, log 90.) -/
def execCboFlush (hart : Fin 192) (op : CboOp) (addr : BitVec 48) (s : State) : Answer :=
  let h := hart.val
  .next (if !(s.hart h).running then s
    else if !s.backedFor (s.hartPart h) addr.toNat then s.coreFault h 2 false
    else match s.keyAddr addr.toNat with
      | none => s
      | some key =>
        let line := lineOf key
        if (s.txn? line).isSome || !s.reachesLine (coreDie h) line then s
        else
          let s := (s.reclaimNow (s.home line) line).cleanLine line
          match op with
          | .clean => s
          | .flush | .inval => s.dropLine line)

/-- STIMECMP_MATCH: the hart's timer interrupt is raised; a hart in WFI wakes by it. -/
def execStimecmpMatch (hart : Fin 192) (s : State) : Answer :=
  .next (if (s.hart hart.val).running then s.modHart hart.val fun x => { x with timerIrq := true } else s)

end Sys2Proof.Machine
end

