-- ==== Sys2Proof/Machine/Float.lean ====
section
/-! DEFINITION. F32, F64, CMP and CVT: scalar floating-point arithmetic, comparison, selection and
conversion (R64, R87 to R93). -/
namespace Sys2Proof.Machine

/-- F32 and F64 operands: the class's TYPE, MOD and AUX zero, RRR; RS2 and RS3 as the operation uses
them. -/
def floatSig (w : Fields) (ty : Nat) (rs2 rs3 : Bool) : Sig :=
  let o := Opnd.ofType ty
  { legal := w.ty = ty && w.mod = 0 && !w.ri && w.aux = 0
    rd := o, rs1 := o, rs2 := if rs2 then o else .zero, rs3 := if rs3 then o else .zero }

/-- A lane-wise float operation on RS1, RS2 and RS3; `f` gets LAUNCH.FLUSH and the operands. -/
def State.floatOp (s : State) (id : GroupId) (dbl : Bool) (op : Nat) (w : Fields) (rs2 rs3 : Bool)
    (f : Bool → Nat → Nat → Nat → Nat × Flags) : State :=
  s.issueGroup id (if dbl then 3 else 2) op w (floatSig w (if dbl then 5 else 4) rs2 rs3) fun _ _ g kn =>
    .ok (g.laneOp w.rd.toNat dbl fun l =>
      f kn.flush (g.get l w.rs1.toNat dbl) (g.get l w.rs2 dbl) (g.get l w.rs3 dbl)).next

/-- The format of F32 or F64. -/
def scalarFmt (dbl : Bool) : Fmt := if dbl then .fp64 else .fp32

/-- F32 01h. -/
def execF32Add (g : GroupId) (w : Fields) (s : State) : Answer := .next (s.floatOp g false 1 w true false fun z a b _ => Fmt.fp32.add z a b)
/-- F32 02h. -/
def execF32Sub (g : GroupId) (w : Fields) (s : State) : Answer := .next (s.floatOp g false 2 w true false fun z a b _ => Fmt.fp32.sub z a b)
/-- F32 03h. -/
def execF32Mul (g : GroupId) (w : Fields) (s : State) : Answer := .next (s.floatOp g false 3 w true false fun z a b _ => Fmt.fp32.mul z a b)
/-- F32 04h: RS1 × RS2 + RS3, one rounding. -/
def execF32Fma (g : GroupId) (w : Fields) (s : State) : Answer := .next (s.floatOp g false 4 w true true fun z a b c => Fmt.fp32.fma z a b c)
/-- F32 05h. -/
def execF32Min (g : GroupId) (w : Fields) (s : State) : Answer := .next (s.floatOp g false 5 w true false fun z a b _ => Fmt.fp32.minMax z false a b)
/-- F32 06h. -/
def execF32Max (g : GroupId) (w : Fields) (s : State) : Answer := .next (s.floatOp g false 6 w true false fun z a b _ => Fmt.fp32.minMax z true a b)
/-- F32 07h. -/
def execF32Abs (g : GroupId) (w : Fields) (s : State) : Answer := .next (s.floatOp g false 7 w false false fun z a _ _ => fSign .fp32 z false a)
/-- F32 08h. -/
def execF32Neg (g : GroupId) (w : Fields) (s : State) : Answer := .next (s.floatOp g false 8 w false false fun z a _ _ => fSign .fp32 z true a)
/-- F32 09h. -/
def execF32Div (g : GroupId) (w : Fields) (s : State) : Answer := .next (s.floatOp g false 9 w true false fun z a b _ => Fmt.fp32.div z a b)
/-- F32 0Ah. -/
def execF32Sqrt (g : GroupId) (w : Fields) (s : State) : Answer := .next (s.floatOp g false 10 w false false fun z a _ _ => Fmt.fp32.sqrt z a)
/-- F64 01h. -/
def execF64Add (g : GroupId) (w : Fields) (s : State) : Answer := .next (s.floatOp g true 1 w true false fun z a b _ => Fmt.fp64.add z a b)
/-- F64 02h. -/
def execF64Sub (g : GroupId) (w : Fields) (s : State) : Answer := .next (s.floatOp g true 2 w true false fun z a b _ => Fmt.fp64.sub z a b)
/-- F64 03h. -/
def execF64Mul (g : GroupId) (w : Fields) (s : State) : Answer := .next (s.floatOp g true 3 w true false fun z a b _ => Fmt.fp64.mul z a b)
/-- F64 04h: RS1 × RS2 + RS3, one rounding. -/
def execF64Fma (g : GroupId) (w : Fields) (s : State) : Answer := .next (s.floatOp g true 4 w true true fun z a b c => Fmt.fp64.fma z a b c)
/-- F64 05h. -/
def execF64Min (g : GroupId) (w : Fields) (s : State) : Answer := .next (s.floatOp g true 5 w true false fun z a b _ => Fmt.fp64.minMax z false a b)
/-- F64 06h. -/
def execF64Max (g : GroupId) (w : Fields) (s : State) : Answer := .next (s.floatOp g true 6 w true false fun z a b _ => Fmt.fp64.minMax z true a b)
/-- F64 07h. -/
def execF64Abs (g : GroupId) (w : Fields) (s : State) : Answer := .next (s.floatOp g true 7 w false false fun z a _ _ => fSign .fp64 z false a)
/-- F64 08h. -/
def execF64Neg (g : GroupId) (w : Fields) (s : State) : Answer := .next (s.floatOp g true 8 w false false fun z a _ _ => fSign .fp64 z true a)
/-- F64 09h. -/
def execF64Div (g : GroupId) (w : Fields) (s : State) : Answer := .next (s.floatOp g true 9 w true false fun z a b _ => Fmt.fp64.div z a b)
/-- F64 0Ah. -/
def execF64Sqrt (g : GroupId) (w : Fields) (s : State) : Answer := .next (s.floatOp g true 10 w false false fun z a _ _ => Fmt.fp64.sqrt z a)

/-! ### CMP -/

/-- A comparison of two operands of a scalar type: op 1 EQ, 2 NE, 3 LT, 4 LE (R64). -/
def compareTyped (flush : Bool) (ty op a b : Nat) : Bool × Flags :=
  if ty = 4 then Fmt.fp32.compare flush op a b
  else if ty = 5 then Fmt.fp64.compare flush op a b
  else
    let n := intWidth ty
    let x := intValue (intSigned ty) n a
    let y := intValue (intSigned ty) n b
    (match op with
     | 1 => decide (x = y)
     | 2 => decide (x ≠ y)
     | 3 => decide (x < y)
     | _ => decide (x ≤ y), 0)

/-- The comparisons: RD is one register; RI for integer types only. -/
def State.cmpOp (s : State) (id : GroupId) (op : Nat) (w : Fields) : State :=
  let o := Opnd.ofType w.ty
  let sig : Sig := { legal := w.ty ≤ 5 && w.mod = 0 && (if w.ri then w.ty ≤ 3 else w.aux = 0), rd := .r, rs1 := o, rs2 := o }
  s.issueGroup id 4 op w sig fun _ _ g kn =>
    .ok (g.laneOp w.rd.toNat false fun l =>
      let (b, f) := compareTyped kn.flush w.ty op (g.get l w.rs1.toNat (wide w.ty)) (intSrc2 g w true l)
      (b2n b, f)).next

/-- CMP 01h. -/
def execCmpEq (g : GroupId) (w : Fields) (s : State) : Answer := .next (s.cmpOp g 1 w)
/-- CMP 02h. -/
def execCmpNe (g : GroupId) (w : Fields) (s : State) : Answer := .next (s.cmpOp g 2 w)
/-- CMP 03h. -/
def execCmpLt (g : GroupId) (w : Fields) (s : State) : Answer := .next (s.cmpOp g 3 w)
/-- CMP 04h. -/
def execCmpLe (g : GroupId) (w : Fields) (s : State) : Answer := .next (s.cmpOp g 4 w)
/-- CMP 05h: RS1 when RS3, one register, is not zero, else RS2. -/
def execCmpSel (g : GroupId) (w : Fields) (s : State) : Answer :=
  let o := Opnd.ofType w.ty
  .next (s.issueGroup g 4 5 w { legal := w.ty ≤ 5 && w.mod = 0 && !w.ri && w.aux = 0, rd := o, rs1 := o, rs2 := o, rs3 := .r }
    fun _ _ gr _ => .ok (gr.laneOp w.rd.toNat (wide w.ty) fun l =>
      (gr.get l (if gr.reg l w.rs3 ≠ 0 then w.rs1.toNat else w.rs2) (wide w.ty), 0)).next)

/-! ### CVT -/

/-- The register operand of an element format: a pair for fp64 (R81, R82). -/
def elemOpnd (f : Nat) : Opnd := if f = 0 then .p else .r

/-- A conversion: RRR with RS2 and RS3 zero; AUX 3:0 names the other type, 7:4 zero. -/
def State.cvtOp (s : State) (id : GroupId) (op : Nat) (w : Fields) (src dst : Option NumType) (rd rs1 : Opnd) : State :=
  let sig : Sig := { legal := w.ty ≤ 5 && w.mod = 0 && !w.ri && w.aux < 16 && src.isSome && dst.isSome, rd := rd, rs1 := rs1 }
  s.issueGroup id 5 op w sig fun _ _ g kn =>
    match src, dst with
    | some a, some b => .ok (g.laneOp w.rd.toNat (rd = .p) fun l => convert kn.flush a b (g.get l w.rs1.toNat (rs1 = .p))).next
    | _, _ => .ok g.next

/-- CVT 01h: RD of TYPE from RS1 of the scalar type in AUX 3:0. -/
def execCvtCvt (g : GroupId) (w : Fields) (s : State) : Answer :=
  .next (s.cvtOp g 1 w (scalarType w.aux) (scalarType w.ty) (Opnd.ofType w.ty) (Opnd.ofType w.aux))
/-- CVT 02h: RD holds the element format in AUX 3:0, from RS1 of TYPE. -/
def execCvtCvte (g : GroupId) (w : Fields) (s : State) : Answer :=
  .next (s.cvtOp g 2 w (scalarType w.ty) (elemType w.aux) (elemOpnd w.aux) (Opnd.ofType w.ty))
/-- CVT 03h: RD of TYPE from RS1 holding the element format in AUX 3:0. -/
def execCvtEcvt (g : GroupId) (w : Fields) (s : State) : Answer :=
  .next (s.cvtOp g 3 w (elemType w.aux) (scalarType w.ty) (Opnd.ofType w.ty) (elemOpnd w.aux))

end Sys2Proof.Machine
end

