-- ==== Sys2Proof/Machine/Milmiuno.lean ====
section
/-! DEFINITION. Milmiuno frames (R390 to R393, R395 to R397): the dictionary's protocol on every channel, its
sessions and tags, and the kept responses. -/
namespace Sys2Proof.Machine

/-! ### The header (R390): big-endian, bit 127 first -/

def mmVersion (h : Nat) : Nat := field h 124 4
def mmKind (h : Nat) : Nat := field h 120 4
def mmService (h : Nat) : Nat := field h 112 8
def mmFlags (h : Nat) : Nat := field h 96 8
def mmTagged (h : Nat) : Bool := h.testBit 103
def mmTid (h : Nat) : Nat := field h 80 16
def mmIndex (h : Nat) : Nat := field h 64 16
def mmSub (h : Nat) : Nat := field h 56 8
def mmOffset (h : Nat) : Nat := field h 32 16
def mmLength (h : Nat) : Nat := field h 16 16
def mmSession (h : Nat) : Nat := field h 0 16
/-- The header of a frame; a short one is padded with zeros. -/
def mmHeader (b : Bytes) : Nat := fromBE ((b ++ List.replicate 16 0).take 16)

/-- The data bytes a request carries: LENGTH in a WRITE or SESSION_OPEN, none in other services. -/
def mmDataLen (h : Nat) : Nat := if mmService h = 2 ∨ mmService h = 5 then mmLength h else 0

/-- Whether a request passes the FRAME check (R392). -/
def mmFrameOk (b : Bytes) : Bool :=
  let h := mmHeader b
  let known := mmService h = 1 ∨ mmDataLen h ≠ 0 ∨ mmLength h = 0
  16 ≤ b.length && mmVersion h = 1 && mmKind h = 0 && field h 48 8 = 0 && mmFlags h % 128 = 0 && mmLength h ≤ 1024 && known
    && b.length = 16 + mmDataLen h + (if mmTagged h then 24 else 0)

/-! ### Sessions and tags (R393) -/

/-- The role key of a session. -/
def State.roleKey (s : State) (owner : Bool) : Option (BitVec 256) :=
  s.security.bind fun r => if owner then r.ownerKey else r.operatorKey

/-- TAG over a frame from its first byte through COUNTER. -/
def mmTag (key : BitVec 256) (nonce : BitVec 128) (signed : Bytes) : Bytes :=
  (hashBytes (Config.sha3_512 (toBE 32 key.toNat ++ toBE 16 nonce.toNat ++ signed))).take 16

/-- The session of a tagged frame whose tag is right and whose COUNTER is new. -/
def State.authenticate (s : State) (ch : Channel) (b : Bytes) : Option Session :=
  let h := mmHeader b
  let n := b.length - 16
  (s.dict.sessions.find? fun x => x.id = mmSession h && channelNo x.channel = channelNo ch).filter fun x =>
    decide (x.counter < le b (b.length - 24) 8) &&
    match s.roleKey x.owner with
    | some k => mmTag k x.nonce (b.take n) = b.drop n
    | none => false

/-- The role of a request (R389): by its channel, and on the management network and in-band by the key.
(DEDUCED, log 77.) -/
def State.roleOf (s : State) (ch : Channel) (x : Option Session) : Role :=
  let byKey : Role := match x with
    | some x => if x.owner then .owner else .operator
    | none => .observer
  let local_ : Role := if x.isSome then .owner else .operator
  let part := fun (p : Nat) => Role.partition ⟨p % 8, Nat.mod_lt _ (by decide)⟩
  match ch with
  | .t1s _ _ | .inBand _ _ => byKey
  | .mailbox f => if f.vf.val = 0 then local_ else part (f.vf.val - 1)
  | .core p => if s.parts = 1 then local_ else part p.val

/-! ### Responses -/

/-- A response frame: the request's SERVICE, TID, INDEX and SUB; data, and with it OFFSET, only with OK. A
tagged request's response carries its session and is tagged with its key, NONCE and COUNTER. -/
def State.respondFrame (s : State) (b : Bytes) (st : Nat) (data : Bytes) (x : Option Session) : Bytes :=
  let h := mmHeader b
  let head := 1 <<< 124 ||| 1 <<< 120 ||| mmService h <<< 112 ||| st <<< 104 ||| b2n x.isSome <<< 103 ||| mmTid h <<< 80
    ||| mmIndex h <<< 64 ||| mmSub h <<< 56 ||| (if st = stOk then mmOffset h else 0) <<< 32 ||| data.length <<< 16
    ||| (match x with | some x => x.id | none => 0)
  let body := toBE 16 head ++ (if st = stOk then data else [])
  match x with
  | none => body
  | some x =>
    let signed := body ++ slice b (b.length - 24) 8
    match s.roleKey x.owner with
    | some k => signed ++ mmTag k x.nonce signed
    | none => signed

/-! ### Services (R391) -/

/-- The next defined sub after a sub, in ascending order. -/
def nextSub (idx sub : Nat) : Option (Nat × Nat) :=
  let least := fun (l : List Nat) => l.foldl (fun (m : Option Nat) x => match m with
    | none => some x
    | some y => some (if x < y then x else y)) none
  match least ((objRows.filter fun r => r.lo ≤ idx && idx ≤ r.hi && decide (sub < r.sub1)).map fun r => if sub < r.sub0 then r.sub0 else sub + 1) with
  | some n => some (idx, n)
  | none => (least ((objRows.filter fun r => decide (idx < r.hi)).map fun r => if idx < r.lo then r.lo else idx + 1)).map fun i => (i, 0)

/-- READ of an object that exists.
(DEDUCED, log 79.) -/
def State.readService (s : State) (h idx sub type size access : Nat) : State × Nat × Bytes :=
  let octet := type = 8 ∨ type = 9
  if access = accWO then (s, stAccessClass, [])
  else if (if octet then size ≤ mmOffset h else mmOffset h ≠ 0) then (s, stLength, [])
  else
    let (s, v) := s.objectValue idx sub size access
    let all := toLE size v
    if octet then
      let rest := all.drop (mmOffset h)
      (s, stOk, if mmLength h = 0 then rest else rest.take (mmLength h))
    else (s, stOk, all)

/-- DESCRIBE of an object that exists. -/
def describeService (idx sub type size access : Nat) : Bytes :=
  toLE 1 type ++ toLE 1 access ++ toLE 1 (b2n (persisted idx sub) ||| b2n (subPartition idx sub).isSome <<< 1) ++ toLE 1 0 ++ toLE 2 size
    ++ (match objDefault idx sub with | some v => toLE size v | none => [])

/-- An unused session number, counted up from a free one (R393 does not say which is given). -/
def freshSession (l : List Session) : Nat → Nat → Nat
  | 0, n => n
  | fuel + 1, n => if l.any (fun x => x.id = n) then freshSession l fuel (n % 65535 + 1) else n

/-- SESSION_OPEN: at most 16 sessions on a channel; the status of a further one is not stated and is free
(DESIGN CHOICE, log 63). -/
def State.openSession (s : State) (ch : Channel) (h : Nat) (data : Bytes) : State × Nat × Bytes :=
  let kind := fromLE data
  if data.length ≠ 1 ∨ mmOffset h ≠ 0 then (s, stLength, [])
  else if kind ≠ 2 ∧ kind ≠ 3 then (s, stRange, [])
  else if (s.dict.sessions.filter fun x => channelNo x.channel = channelNo ch).length ≥ 16 then
    (s.useFree, 1 + s.freeNat % 255, [])
  else
    let id := freshSession s.dict.sessions (s.dict.sessions.length + 1) (s.freeNat % 65535 + 1)
    let (s, nonce) := s.useFree.freeBits 2
    let x : Session := { id := id, channel := ch, owner := decide (kind = 3), nonce := BitVec.ofNat 128 nonce, counter := 0 }
    ({ s with dict := { s.dict with sessions := x :: s.dict.sessions } }, stOk, toLE 2 id ++ toBE 16 (nonce % 2 ^ 128))

/-- Serve an authenticated or untagged request: the state, the status and the response data.
(DEDUCED, log 80.) -/
def State.service (s : State) (ch : Channel) (b : Bytes) (x : Option Session) : State × Nat × Bytes :=
  let h := mmHeader b
  let idx := mmIndex h
  let sub := mmSub h
  let data := slice b 16 (mmDataLen h)
  match mmService h with
  | 5 => s.openSession ch h data
  | 6 => match x with
    | some x => ({ s with dict := { s.dict with sessions := s.dict.sessions.filter fun y => y.id ≠ x.id } }, stOk, [])
    | none => (s.count 0x1040 2 1, stAuth, [])
  | n =>
    if n < 1 ∨ 4 < n then (s, stService, [])
    else if !objExists idx then (s, stNoObject, [])
    else match objInfo idx sub with
      | none => (s, stNoSub, [])
      | some (type, size, access) =>
        match n with
        | 1 => s.readService h idx sub type size access
        | 2 =>
          let (s, st) := s.dictWrite (s.roleOf ch x) (some ch) idx sub access (decide (data.length = size) && decide (mmOffset h = 0)) (fromLE data)
          (s, st, [])
        | 3 => (s, stOk, describeService idx sub type size access)
        | _ => match nextSub idx sub with
          | some (i, j) => (s, stOk, toLE 2 i ++ toLE 1 j)
          | none => (s, stNoObject, [])

/-- Keep a response: 32 for each channel and source (R397). -/
def State.keep (s : State) (ch : Channel) (frame response : Bytes) : State :=
  let mine := s.dict.kept.filter fun k => sameSource k.channel ch
  let others := s.dict.kept.filter fun k => !sameSource k.channel ch
  { s with dict := { s.dict with kept := { channel := ch, frame := frame, response := response } :: mine.take 31 ++ others } }

def inBandChannel : Channel → Bool
  | .inBand _ _ => true
  | _ => false

/-- Serve a frame: its response, if it gets one. A request that equals a kept one is answered from it while
it is kept; whether its second has passed is free (DESIGN CHOICE, log 64). In-band, only tagged requests and SESSION_OPEN
are served, and FRAME and AUTH get no response.
(DEDUCED, log 78.) -/
def State.serve (s : State) (ch : Channel) (b : Bytes) : State × Option Bytes :=
  let again := (s.dict.kept.find? fun k => sameSource k.channel ch && k.frame = b)
  let still := if s.freeNat % 2 = 1 then again else none
  let s := if again.isSome then s.useFree else s
  match still with
  | some k => ((s.count 0x1040 1 1).count 0x1040 3 1, some k.response)
  | none =>
    let h := mmHeader b
    if !mmFrameOk b then
      if inBandChannel ch then (s, none)
      else
        let r := s.respondFrame b stFrame [] none
        ((s.count 0x1040 1 1).keep ch b r, some r)
    else if inBandChannel ch && !mmTagged h && mmService h ≠ 5 then (s.count 0x1040 2 1, none)
    else
      let x := if mmTagged h then s.authenticate ch b else none
      if mmTagged h && x.isNone then
        let s := s.count 0x1040 2 1
        if inBandChannel ch then (s, none)
        else
          let r := s.respondFrame b stAuth [] none
          ((s.count 0x1040 1 1).keep ch b r, some r)
      else
        let s := match x with
          | some x =>
            let f := fun (y : Session) => if y.id = x.id then { y with counter := le b (b.length - 24) 8 } else y
            { s with dict := { s.dict with sessions := s.dict.sessions.map f } }
          | none => s
        let (s', st, data) := s.service ch b x
        let r := s.respondFrame b st data x
        ((s'.count 0x1040 1 1).keep ch b r, some r)

/-! ### Channels (R394 to R396) -/

/-- Put a mailbox's response in MB_RSP: DONE is set and BUSY clears. -/
def State.mailboxDone (s : State) (k : Nat) (r : Bytes) : State :=
  let m := s.mailbox k
  s.setMailbox k { m with rsp := writeBytes m.rsp 0 r, done := true, busy := false }

/-- The mailbox of a channel. -/
def channelMailbox : Channel → Option Nat
  | .mailbox f => some (fnKey f.port.val f.vf.val)
  | .core p => some (18 + p.val)
  | _ => none

/-- With the identity lost, the ROM answers READ of OD 9070h and OD 9080h alone, on the primary port (R420). -/
def State.romAnswers (s : State) (ch : Channel) (b : Bytes) : Bool :=
  s.boot.stage = 0xFF && s.boot.identity = 2 && channelNo ch = 0 && mmFrameOk b && mmService (mmHeader b) = 1 && !mmTagged (mmHeader b)
    && (mmIndex (mmHeader b) = 0x9070 || mmIndex (mmHeader b) = 0x9080)

/-- An in-band answer: an NCT management packet from a sub-port to the requester's address and UDP port, neither
acknowledged nor kept (R290, R395). -/
def State.sendMgmt (s : State) (k : Nat) (addr : BitVec 128) (udp : BitVec 16) (b : Bytes) : State :=
  (s.count 0x5020 1 1).send (.nct k (s.frameTo k addr udp.toNat (nctHeader 3 0x20 0 0 0 0 0 0 0 b.length 0 0) b))

/-- Send an answer on its channel: in band by the sub-port the request came on, or where that is not known by a
free one that has its link (DEDUCED, log 160). -/
def State.sendAnswer (s : State) (via : Option Nat) (ch : Channel) (b : Bytes) : State :=
  match ch with
  | .inBand addr udp => match via with
    | some k => s.sendMgmt k addr udp b
    | none =>
      let up := (List.range 48).filter fun k => (s.subport k).linked
      match up[s.freeNat % up.length]? with
      | some k => s.useFree.sendMgmt k addr udp b
      | none => s
  | _ => s.send (.milmiuno ch b)

/-- A frame of a service reaches the dictionary on a channel: a mailbox's is the one GO was written for,
in-band access must be on, and the response leaves by the same channel. -/
def State.milmiuno (s : State) (via : Option Nat) (ch : Channel) (b : Bytes) : State :=
  if !s.dictUp && !s.romAnswers ch b then s
  else match channelMailbox ch with
    | some k =>
      if !(s.mailbox k).busy || readBytes (s.mailbox k).req 0 b.length ≠ b then s
      else match s.serve ch b with
        | (s, some r) => s.mailboxDone k r
        | (s, none) => s
    | none =>
      if inBandChannel ch && setting s 0x1020 4 ≠ 1 then s
      else match s.serve ch b with
        | (s, some r) => s.sendAnswer via ch r
        | (s, none) => s

/-- The frame of a command is one of its service. -/
def State.serviceFrame (s : State) (ch : Channel) (b : Bytes) (code : Nat) : State :=
  if mmService (mmHeader b) = code then s.milmiuno none ch b else s

/-- READ; a frame of an undefined service comes under this command too.
(DEDUCED, log 81.) -/
def execDictRead (ch : Channel) (frame : Bytes) (s : State) : Answer :=
  let n := mmService (mmHeader frame)
  .next (if 2 ≤ n ∧ n ≤ 6 then s else s.milmiuno none ch frame)
def execDictWriteFrame (ch : Channel) (frame : Bytes) (s : State) : Answer := .next (s.serviceFrame ch frame 2)
def execDictDescribe (ch : Channel) (frame : Bytes) (s : State) : Answer := .next (s.serviceFrame ch frame 3)
def execDictNext (ch : Channel) (frame : Bytes) (s : State) : Answer := .next (s.serviceFrame ch frame 4)
def execSessionOpen (ch : Channel) (frame : Bytes) (s : State) : Answer := .next (s.serviceFrame ch frame 5)
def execSessionClose (ch : Channel) (frame : Bytes) (s : State) : Answer := .next (s.serviceFrame ch frame 6)

/-- MGMT: an in-band frame, of any service. -/
def execNctMgmt (port : Fin 12) (pkt : NctIn) (s : State) : Answer :=
  .next (s.admitPacket port pkt 0x20 fun s _ _ =>
    s.milmiuno (some (4 * port.val + pkt.sub.val)) (.inBand pkt.src pkt.udpPort) pkt.payload)

end Sys2Proof.Machine
end

