-- ==== Sys2Proof/Machine/RegRows.lean ====
section
/-! DEFINITION. The commands that are one register access: doorbells, QCFG restart, sessions, interrupts,
harts, invalidations, resumes, tally adds and plain register writes. Each is the write or read of its own
register through the map of Machine/Registers.lean; a command whose value does not carry the field it is
named for does nothing. -/
namespace Sys2Proof.Machine

/-- First byte of a die's register block. -/
def blockBase (die : Nat) : Nat := 0x100000000000 + 0x200000000 * die
/-- First byte of a partition's translation register block. -/
def xlBase (p : Nat) : Nat := blockBase 6 + 0x80000000 + 0x10000 * p

/-- DOORBELL (R327). Until the node runs, doorbells through a port are discarded (R415). -/
def execDoorbell (q : QueueId) (via : Requester) (value : BitVec 32) (s : State) : Answer :=
  let k := 64 * q.part.val + q.queue.val
  .next (if s.visible via (.doorbell k) then s.writeReg via none (.doorbell k) 0xFFFFFFFF value.toNat else s)

/-- A full-width write of QCFG with RESTART 1 (R325). -/
def execQcfgRestart (q : QueueId) (via : Requester) (value : BitVec 32) (s : State) : Answer :=
  let k := 64 * q.part.val + q.queue.val
  .next (if s.visible via (.queue k 8) && value.getLsbD 30 then s.writeReg via none (.queue k 8) 0xFFFFFFFF value.toNat else s)

/-- A write of SESSION_CTL through a function's BAR0 (R332, R335). -/
def State.sessionWrite (s : State) (fn : Fn) (v : Nat) : State :=
  if s.visible (.function fn) (.fnCtl fn 8) then s.writeReg (.function fn) none (.fnCtl fn 8) 0xFFFFFFFF v else s
/-- SESSION_CTL = 1h. -/
def execSessionCtlOpen (fn : Fn) (s : State) : Answer := .next (s.sessionWrite fn 1)
/-- SESSION_CTL = 2h. -/
def execSessionCtlReattach (fn : Fn) (s : State) : Answer := .next (s.sessionWrite fn 2)
/-- SESSION_CTL = 3h. -/
def execSessionCtlClose (fn : Fn) (s : State) : Answer := .next (s.sessionWrite fn 3)
/-- SESSION_CTL = 4h. -/
def execSessionCtlOpenForce (fn : Fn) (s : State) : Answer := .next (s.sessionWrite fn 4)

/-- A write of INTSEND (R337). -/
def execIntsend (value : BitVec 32) (s : State) : Answer := .next (s.intSend value.toNat)
/-- A read of a hart's CLAIM (R336). -/
def execClaim (hart : Fin 192) (s : State) : Answer :=
  let (s, n) := s.claim hart.val
  .next (s.send (.registerRead (BitVec.ofNat 64 n)))
/-- A write of HART_START by a core of a partition (R341). -/
def execHartStart (writer : Fin 8) (hart : Fin 192) (addr : BitVec 64) (s : State) : Answer :=
  .next (s.hartStart (some writer.val) hart.val addr.toNat)

/-- A write of INV_CTL whose OP is the one named. -/
def State.invWrite (s : State) (p : Nat) (width : BitVec 4) (value : BitVec 64) (op : Nat) : State :=
  if field value.toNat 60 4 = op then s.writeAt .node none (xlBase p + 0x108) width.toNat value.toNat else s
/-- INV_CTL with OP 1h (R255). -/
def execInvCtlRange (p : Fin 8) (width : BitVec 4) (value : BitVec 64) (s : State) : Answer := .next (s.invWrite p.val width value 1)
/-- INV_CTL with OP 2h. -/
def execInvCtlContext (p : Fin 8) (width : BitVec 4) (value : BitVec 64) (s : State) : Answer := .next (s.invWrite p.val width value 2)
/-- INV_CTL with OP 3h. -/
def execInvCtlPartition (p : Fin 8) (width : BitVec 4) (value : BitVec 64) (s : State) : Answer := .next (s.invWrite p.val width value 3)

/-- RESUME with FAIL 0 (R264). -/
def execResumeRetry (p : Fin 8) (width : BitVec 4) (value : BitVec 64) (s : State) : Answer :=
  .next (if value.getLsbD 63 then s else s.writeAt .node none (xlBase p.val + 0x200) width.toNat value.toNat)
/-- RESUME with FAIL 1. -/
def execResumeFail (p : Fin 8) (width : BitVec 4) (value : BitVec 64) (s : State) : Answer :=
  .next (if value.getLsbD 63 then s.writeAt .node none (xlBase p.val + 0x200) width.toNat value.toNat else s)

/-- A read of some bytes of FQ_LOST[k]: the whole counter clears (R8, R254). -/
def execFqLostRead (p k : Fin 8) (off : BitVec 3) (width : BitVec 4) (s : State) : Answer :=
  let (s, v) := s.readAt .node (xlBase p.val + 0x40 + 8 * k.val + off.toNat) width.toNat
  .next (s.send (.registerRead (BitVec.ofNat 64 v)))

/-- A write in the TALLY_ADD registers of a Kysar die (R215). -/
def execTallyAdd (die : Fin 4) (off : BitVec 17) (width : BitVec 4) (value : BitVec 64) (s : State) : Answer :=
  .next (s.writeAt .node none (blockBase die.val + 0x40020000 + off.toNat) width.toNat value.toNat)

/-- A write through the register window, a function's BAR0, or its BAR2 at 2^32 plus the offset. -/
def execRegisterWrite (via : Requester) (addr : BitVec 48) (width : BitVec 4) (value : BitVec 64) (s : State) : Answer :=
  .next (s.writeAt via none addr.toNat width.toNat value.toNat)

/-- A write of REC_GO (R416). -/
def execRecGo (width : BitVec 4) (s : State) : Answer := .next (if width = 4 then s.recGo else s)

end Sys2Proof.Machine
end

