-- ==== Sys2Proof/Machine/Resets.lean ====
section
/-! DEFINITION. The power sequencer and the reset pins (R425, R438, R442, R446 to R448), thermal thresholds
and the trip (R357), the flush handshake (R433, R434) and the test access port (R449 to R451). -/
namespace Sys2Proof.Machine

/-! ### Power and reset pins -/

/-- The rails are removed: node reset asserts at once and PGOOD falls (R447). -/
def State.powerDown (s : State) : State :=
  let s := s.nodeReset true
  { s with pins := { s.pins with pgood := false, railsRising := false }, taps := [] }

/-- Rails rise once PWR_EN is asserted with the input in range and no trip latched (R446, R448). -/
def State.tryPower (s : State) : State :=
  if s.pins.pwrEn && s.pins.inputInRange && !s.pins.tripLatched && !s.pins.pgood then
    { s with pins := { s.pins with railsRising := true } }
  else s

/-- PWR_EN_ASSERT, after its debounce. -/
def execPwrEnAssert (s : State) : Answer := .next ({ s with pins := { s.pins with pwrEn := true } }).tryPower

/-- PWR_EN_DEASSERT: power-down; held for 10 ms it clears a latched trip (R447, R448). -/
def execPwrEnDeassert (tenMs : Bool) (s : State) : Answer :=
  let s := { s with pins := { s.pins with pwrEn := false, tripLatched := s.pins.tripLatched && !tenMs } }
  .next (if s.pins.pgood || s.pins.railsRising then s.powerDown else s)

/-- RAILS_IN_TOLERANCE: PGOOD asserts, and node reset is released unless MOD_RESET_N holds it (R446, R448). -/
def execRailsInTolerance (s : State) : Answer :=
  .next (if s.pins.railsRising then ({ s with pins := { s.pins with railsRising := false, pgood := true } }).tryRelease else s)

/-- MOD_RESET_N_ASSERT: node reset with power held; with PGOOD deasserted only the level counts (R448). -/
def execModResetAssert (s : State) : Answer :=
  let t := { s with pins := { s.pins with modResetN := false } }
  .next (if s.pins.modResetN && s.pins.pgood then t.nodeReset false else t)

/-- Test-Logic-Reset of both TAP controllers selects IDCODE (R449). -/
def State.testLogicReset (s : State) : State :=
  { s with taps := s.taps.map fun e => (e.1, { e.2 with ir := 0x01 }) }

/-- MOD_RESET_N_RELEASE: an instruction that drives pins ends first (R450), then the boot starts. -/
def execModResetRelease (s : State) : Answer :=
  let driving := s.taps.any fun e => decide (3 ≤ e.2.ir.toNat) && decide (e.2.ir.toNat ≤ 7)
  let s := { s with pins := { s.pins with modResetN := true } }
  .next (if driving then s.testLogicReset else s).tryRelease

/-- An undervoltage or overvoltage shutdown: as PWR_EN deasserted, with the cause of an input power fault
(R438, R361).
(DEDUCED, log 87.) -/
def State.inputShutdown (s : State) : State :=
  let s := { s with pins := { s.pins with inputInRange := false } }
  if s.pins.pgood || s.pins.railsRising then (s.setCounter 0x3041 1 3).powerDown else s
def execUndervoltageShutdown (s : State) : Answer := .next s.inputShutdown
def execOvervoltageShutdown (s : State) : Answer := .next s.inputShutdown
/-- INPUT_RESTART: the input has been in range for 10 ms. -/
def execInputRestart (s : State) : Answer := .next ({ s with pins := { s.pins with inputInRange := true } }).tryPower

/-- OSCILLATOR_LOSS: the clock monitor holds node reset (R425). -/
def execOscillatorLoss (s : State) : Answer :=
  let t := { s with pins := { s.pins with oscillator := false } }
  .next (if s.pins.pgood && !s.pins.nodeReset then t.nodeReset false else t)
def execOscillatorReturn (s : State) : Answer := .next ({ s with pins := { s.pins with oscillator := true } }).tryRelease

/-! ### Temperatures (R357) -/

/-- Key of a part's thermal state, the die it counts for, and its thresholds in tenths of a degree:
throttle, its release, limit, shutdown. -/
def thermalKey : ThermalPart → Nat
  | .die d => d.val
  | .baseDie st => 16 + st.val
  | .dram st => 32 + st.val
def thermalDie : ThermalPart → Nat
  | .die d => d.val
  | .baseDie st | .dram st => st.val / 4
def isDram : ThermalPart → Bool
  | .dram _ => true
  | _ => false
def thresholds (p : ThermalPart) : Int × Int × Int × Int :=
  if isDram p then (850, 820, 950, 1050) else (950, 920, 1050, 1150)

/-- The thermal trip removes every rail and stays latched; its cause and event appear after the next
power-on. -/
def State.thermalTrip (s : State) (p : ThermalPart) : State :=
  let cause := if isDram p then 2 else 1
  let s := s.setCounter 0x3041 1 cause
  let s := { s with boot := { s.boot with tripEvent := some (thermalDie p, cause) }, pins := { s.pins with tripLatched := true } }
  s.powerDown

/-- A sample against a part's thresholds. A limit is held until 20 samples (1 ms) in a row lie below 100 °C;
when DRAM below its limit is released is not stated and free (DESIGN CHOICE, log 68). -/
def State.thermalStep (s : State) (p : ThermalPart) (t : Int) : State × Thermal :=
  let x := s.thermal (thermalKey p)
  let (th, rel, lim, _) := thresholds p
  let throttle := decide (th ≤ t) || (x.throttle && decide (rel ≤ t))
  let x' := { x with temp := some t, throttle := throttle }
  if lim ≤ t then (s, { x' with limit := true, cool := 0 })
  else if !x.limit then (s, x')
  else if isDram p then (s.useFree, { x' with limit := s.freeNat % 2 = 1 })
  else if 1000 ≤ t then (s, { x' with cool := 0 })
  else (s, { x' with cool := x.cool + 1, limit := decide (x.cool + 1 < 20) })

/-- THERMAL_SAMPLE. -/
def execThermalSample (part : ThermalPart) (deciC : Int) (s : State) : Answer :=
  .next (if !s.pins.pgood then s
    else
      let old := s.thermal (thermalKey part)
      let (s, x) := s.thermalStep part deciC
      let s := { s with power := { s.power with thermal := sput s.power.thermal (thermalKey part) x {} } }
      let s := if x.throttle && !old.throttle then s.count 0x3040 3 1 else s
      let s := if x.limit && !old.limit then s.count 0x3040 4 1 else s
      let s := s.powerSettle
      if (thresholds part).2.2.2 ≤ deciC then s.thermalTrip part else s)

/-! ### The flush handshake (R433) -/

/-- A domain may reset: a cluster only when no kernel runs on it (R432). -/
def State.mayReset (s : State) : Boundary → Bool
  | .cluster c => match (s.cluster c.val).kernel.bind s.kernel? with
    | some k => k.phase != .running
    | none => true
  | _ => true

/-- What the other side flushes: a cluster's write buffer is drained, a PCIe port's outstanding reads end
poisoned, packets on a network port move to other ports (R161, R292, R331). -/
def State.flushSide (s : State) : Boundary → State
  | .cluster c => (s.drainAll c.val).getD s
  | .pcie p => s.endReads p.val
  | .network p => ((List.range 4).foldl (fun s j => s.portDown (4 * p.val + j)) s).pumpAll

/-- The resetting side enters reset: a cluster loses its groups, registers, tiles, chain slots and L1 and
keeps its scratchpad; a PCIe port's functions return to their reset values. -/
def State.resetSide (s : State) : Boundary → State
  | .cluster c =>
    let s := { s with groups := s.groups.filter fun e => gcluster e.1 ≠ c.val }
    s.modCluster c.val fun x => { kernel := x.kernel, lastQueue := x.lastQueue, lastCtx := x.lastCtx, l1size := x.l1size, spad := x.spad }
  | .pcie p => s.hostReset p.val false
  | .network _ => s

/-- RESET_REQUEST: the other side stops and flushes. -/
def execResetRequest (b : Boundary) (s : State) : Answer :=
  .next (if s.flushes.contains b || !s.mayReset b then s else ({ s with flushes := s.flushes ++ [b] }).flushSide b)

/-- The handshake of a boundary ends in the reset. -/
def State.endFlush (s : State) (b : Boundary) : State :=
  ({ s with flushes := s.flushes.filter fun x => x != b }).resetSide b

/-- FLUSH_ACKNOWLEDGEMENT. -/
def execFlushAcknowledgement (b : Boundary) (s : State) : Answer := .next (if s.flushes.contains b then s.endFlush b else s)
/-- FLUSH_TIMEOUT: no acknowledgement within 20 µs; the reset happens and the timeout is counted. -/
def execFlushTimeout (b : Boundary) (s : State) : Answer :=
  .next (if s.flushes.contains b then (s.count 0x8032 1 1).endFlush b else s)

/-! ### The test access port (R449 to R451) -/

/-- Cells of a die's boundary register: HB0, then HB1. -/
def boundaryCells (die : Nat) : Nat := if die = 0 then 860 else 812

/-- Load a TAP instruction: while PGOOD is asserted and TRST_N high; one that drives pins acts as BYPASS
while MOD_RESET_N is deasserted (R450). Cells shifted in take effect where they fill the register.
(DESIGN CHOICE, log 91.) -/
def State.tapLoad (s : State) (die : Nat) (code : BitVec 8) (cells : Option (List Bool)) : State :=
  if !s.pins.pgood || s.trstHeld then s
  else
    let drives := decide (3 ≤ code.toNat) && decide (code.toNat ≤ 7)
    let bypass := drives && s.pins.modResetN
    let x := sgetD s.taps die {}
    let x := { x with
      ir := if bypass then 0xFF else code
      boundary := match cells with
        | some c => if !bypass && c.length = boundaryCells die then c else x.boundary
        | none => x.boundary }
    { s with taps := sput s.taps die x {} }

/-- Scan the boundary register with an instruction that selects it: what the cells captured is shifted out, and which
level a cell captures is a free value (R451; DESIGN CHOICE, log 91). -/
def State.tapScan (s : State) (die : Nat) (code : BitVec 8) (cells : List Bool) : State :=
  let t := s.tapLoad die code (some cells)
  if s.pins.pgood && !s.trstHeld && (sgetD t.taps die {}).ir = code then
    let (u, n) := t.freeBits ((boundaryCells die + 63) / 64)
    u.send (.tdo die ((List.range (boundaryCells die)).map fun i => n.testBit i))
  else t

/-- IDCODE: the die's 32-bit code is shifted out, least significant bit first. -/
def execTapIdcode (die : Fin 2) (s : State) : Answer :=
  .next (if !s.pins.pgood || s.trstHeld then s
    else (s.tapLoad die.val 0x01 none).send (.tdo die.val ((List.range 32).map fun i => (0x14623DC7 : Nat).testBit i)))
def execTapSamplePreload (die : Fin 2) (cells : List Bool) (s : State) : Answer := .next (s.tapScan die.val 0x02 cells)
def execTapExtest (die : Fin 2) (cells : List Bool) (s : State) : Answer := .next (s.tapScan die.val 0x03 cells)
def execTapExtestPulse (die : Fin 2) (cells : List Bool) (s : State) : Answer := .next (s.tapScan die.val 0x04 cells)
def execTapExtestTrain (die : Fin 2) (cells : List Bool) (s : State) : Answer := .next (s.tapScan die.val 0x05 cells)
def execTapClamp (die : Fin 2) (s : State) : Answer := .next (s.tapLoad die.val 0x06 none)
def execTapHighz (die : Fin 2) (s : State) : Answer := .next (s.tapLoad die.val 0x07 none)
def execTapBypass (die : Fin 2) (s : State) : Answer := .next (s.tapLoad die.val 0xFF none)

/-- TRST_N low holds both controllers in Test-Logic-Reset. -/
def execTrstAssert (s : State) : Answer := .next ({ s with trstHeld := true }).testLogicReset
def execTrstRelease (s : State) : Answer := .next { s with trstHeld := false }

end Sys2Proof.Machine
end

