-- ==== Sys2Proof/Machine/Spdm.lean ====
section
/-! DEFINITION. The SPDM responder (R422): negotiation, certificates, challenge, measurements and chunking.
The layout of the messages is DMTF's DSP0274 1.3, which the spec names and does not print (PRESUMED, log 69). -/
namespace Sys2Proof.Machine

/-! ### Measurements and secrets -/

/-- The settings section as flash holds it (R402): header, entries by rising object, check word, and the
commit word in its last 4 bytes; erased bytes read FFh. -/
def settingsSection (stored : Option (Sparse Nat)) : Bytes :=
  match stored with
  | none => List.replicate 65536 0xFF
  | some v =>
    let entry := fun (e : Nat × Nat) =>
      let n := match objInfo (e.1 / 256) (e.1 % 256) with
        | some (_, n, _) => n
        | none => 0
      toLE 2 (e.1 / 256) ++ toLE 1 (e.1 % 256) ++ toLE 1 n ++ toLE n e.2 ++ List.replicate ((4 - n % 4) % 4) 0
    let entries := (v.map entry).flatten
    let body := toLE 4 0x4F445354 ++ toLE 2 1 ++ toLE 2 0 ++ toLE 4 entries.length ++ toLE 4 v.length ++ entries
    let head := body ++ toLE 4 (crc32c body)
    head ++ List.replicate (65532 - head.length) 0xFF ++ toLE 4 0x434F4D54

/-- Whether a measurement is raw, and its value (R422). -/
def State.measurement (s : State) (i : Nat) : Bool × Bytes :=
  let (_, svn, digest) := s.boot.running.getD (0, 0, 0)
  match i with
  | 1 => (true, toLE 2 1 ++ hashBytes Config.vendorKeyHash)
  | 2 => (false, hashBytes digest)
  | 3 => (true, toLE 4 svn ++ toLE 4 s.boot.counter0)
  | 4 => (true, hashBytes s.ownerHash)
  | 5 => (false, match s.dict.loaded with
      | some v => hashBytes (Config.sha3_512 (settingsSection v))
      | none => List.replicate 64 0)
  | 6 => (true, match (s.link 18).caps with
      | some (a, b) => toLE 8 a.toNat ++ toLE 8 b.toNat
      | none => List.replicate 16 0)
  | _ => (false, hashBytes (sgetD s.boot.osDigests (i - 7) 0))

/-- A measurement block. The kind of value beside the raw bit is free: the spec does not give it. -/
def State.measurementBlock (s : State) (i : Nat) : Bytes :=
  let (raw, v) := s.measurement i
  let kind := Config.freeNat (s.free + i) % 128 + (if raw then 128 else 0)
  toLE 1 i ++ [1] ++ toLE 2 (v.length + 3) ++ toLE 1 kind ++ toLE 2 v.length ++ v

/-- The certificate chain of slot 0 (R421). -/
def State.chain (s : State) : Bytes := Config.certificateChain (s.boot.running.getD (0, 0, 0)).2.2

/-- The alias key's seed (R420): the first 32 bytes of the derived secret. -/
def State.aliasSeed (s : State) : BitVec 512 :=
  let h := Config.sha3_512 (hashBytes Config.pufRoot ++ ascii "ALIAS" ++ hashBytes (s.boot.running.getD (0, 0, 0)).2.2)
  BitVec.ofNat 512 (fromBE ((hashBytes h).take 32))

/-- The alias key's signature over a transcript, under a signing context of 36 bytes. -/
def State.spdmSign (s : State) (context : String) (transcript : Bytes) : Bytes :=
  let c := ascii context
  let v := ascii "dmtf-spdm-v1.3.*"
  Config.mldsaSign s.aliasSeed
    (v ++ v ++ v ++ v ++ List.replicate (36 - c.length) 0 ++ c ++ hashBytes (Config.sha3_512 transcript))

/-! ### Connections -/

def State.spdmConn (s : State) (t : SpdmTransport) : SpdmConn :=
  (s.boot.spdm.find? fun c => c.transport = t).getD { transport := t }
def State.setSpdmConn (s : State) (c : SpdmConn) : State :=
  { s with boot := { s.boot with spdm := c :: s.boot.spdm.filter fun x => x.transport ≠ c.transport } }

/-- An ERROR response. -/
def spdmError (code data : Nat) : Bytes := [0x13, 0x7F] ++ toLE 1 code ++ toLE 1 data

/-- Free bytes: `n` of them, and the state that has used them. -/
def State.freeBytes (s : State) (n : Nat) : State × Bytes :=
  ({ s with free := s.free + n }, (List.range n).map fun i => Config.freeByte (s.free + i))

/-- A message that belongs to the version and negotiation part of the transcript. -/
def State.spdmNegotiate (s : State) (t : SpdmTransport) (phase : Nat) (req rsp : Bytes) : State × Bytes :=
  let c := s.spdmConn t
  let vca := if phase = 1 then req ++ rsp else c.vca ++ req ++ rsp
  (s.setSpdmConn { transport := t, phase := phase, vca := vca }, rsp)

/-! ### What each request is answered with -/

/-- GET_VERSION: 1.3 alone; the connection starts again. -/
def State.spdmVersion (s : State) (t : SpdmTransport) (req : Bytes) : State × Bytes :=
  s.spdmNegotiate t 1 req [0x10, 0x04, 0, 0, 0, 1, 0x00, 0x13]

/-- GET_CAPABILITIES: certificates, challenge, signed measurements, chunking; no session and no mutual
authentication. The response time exponent, and the sizes that R422 does not limit, are free. -/
def State.spdmCapabilities (s : State) (t : SpdmTransport) (req : Bytes) : State × Bytes :=
  if (s.spdmConn t).phase = 0 then (s, spdmError 4 0)
  else
    let (s, free) := s.freeBytes 9
    let size := match t with
      | .ethernet _ _ => toLE 4 1024
      | .doe _ => slice free 1 4
    s.spdmNegotiate t 2 req ([0x13, 0x61, 0, 0, 0] ++ free.take 1 ++ [0, 0] ++ toLE 4 0x20016 ++ size ++ slice free 5 4)

/-- NEGOTIATE_ALGORITHMS: SHA3-512, no base asymmetric algorithm, ML-DSA-87 as the one ExtAsym entry; a
requester that does not offer these gets ERROR. -/
def State.spdmAlgorithms (s : State) (t : SpdmTransport) (req : Bytes) : State × Bytes :=
  if (s.spdmConn t).phase ≠ 2 then (s, spdmError 4 0)
  else
    let n := le req 28 1
    let mlDsa := (List.range n).any fun i => slice req (32 + 4 * i) 4 = [0, 0, 0x87, 0]
    if (le req 12 4).testBit 5 && (le req 6 1).testBit 0 && mlDsa then
      s.spdmNegotiate t 3 req ([0x13, 0x63, 0, 0] ++ toLE 2 40 ++ [1, 0] ++ toLE 4 0x40 ++ toLE 4 0 ++ toLE 4 0x20
        ++ List.replicate 12 0 ++ [1, 0, 0, 0] ++ [0, 0, 0x87, 0])
    else (s, spdmError 1 0)

/-- A message of the certificate part of the transcript. -/
def State.spdmCerts (s : State) (t : SpdmTransport) (req rsp : Bytes) : State × Bytes :=
  let c := s.spdmConn t
  (s.setSpdmConn { c with certs := c.certs ++ req ++ rsp }, rsp)

/-- GET_DIGESTS: slot 0 alone. -/
def State.spdmDigests (s : State) (t : SpdmTransport) (req : Bytes) : State × Bytes :=
  s.spdmCerts t req ([0x13, 0x01, 1, 1] ++ hashBytes (Config.sha3_512 s.chain))

/-- GET_CERTIFICATE: the portion asked for of slot 0's chain, as far as it reaches. -/
def State.spdmCertificate (s : State) (t : SpdmTransport) (req : Bytes) : State × Bytes :=
  let off := le req 4 2
  let all := s.chain
  if le req 2 1 % 16 ≠ 0 ∨ all.length ≤ off then (s, spdmError 1 0)
  else
    let part := slice all off (le req 6 2)
    s.spdmCerts t req ([0x13, 0x02, 0, 0] ++ toLE 2 part.length ++ toLE 2 (all.length - off - part.length) ++ part)

/-- All fourteen measurement blocks. -/
def State.allMeasurements (s : State) : Bytes := ((List.range 14).map fun i => s.measurementBlock (i + 1)).flatten

/-- CHALLENGE: the chain's hash, a nonce, a measurement summary where it is asked for, signed with the alias
key. Which measurements count as of the trusted computing base is not given: that summary is free. -/
def State.spdmChallenge (s : State) (t : SpdmTransport) (req : Bytes) : State × Bytes :=
  let kind := le req 3 1
  if le req 2 1 ≠ 0 ∨ (kind ≠ 0 ∧ kind ≠ 1 ∧ kind ≠ 0xFF) ∨ req.length < 44 then (s, spdmError 1 0)
  else
    let all := s.allMeasurements
    let (s, free) := s.freeBytes 96
    let summary := if kind = 0 then [] else if kind = 1 then slice free 32 64 else hashBytes (Config.sha3_512 all)
    let rsp := [0x13, 0x03, 0, 1] ++ hashBytes (Config.sha3_512 s.chain) ++ free.take 32 ++ summary ++ toLE 2 0 ++ slice req 36 8
    let c := s.spdmConn t
    let sig := s.spdmSign "responder-challenge_auth signing" (c.vca ++ c.certs ++ req ++ rsp)
    (s.setSpdmConn { c with certs := [], measured := [] }, rsp ++ sig)

/-- GET_MEASUREMENTS: the count, one block, or all; signed where it is asked for. -/
def State.spdmMeasurements (s : State) (t : SpdmTransport) (req : Bytes) : State × Bytes :=
  let signed := (le req 2 1).testBit 0
  let op := le req 3 1
  let blocks := if op = 0 then [] else if op = 0xFF then (List.range 14).map (· + 1) else [op]
  if (op ≠ 0xFF ∧ 14 < op) ∨ req.length < (if signed then 45 else 12) ∨ (signed ∧ le req 36 1 % 16 ≠ 0) then (s, spdmError 1 0)
  else
    let data := (blocks.map fun i => s.measurementBlock i).flatten
    let (s, nonce) := s.freeBytes 32
    let rsp := [0x13, 0x60] ++ toLE 1 (if op = 0 then 14 else 0) ++ [0] ++ toLE 1 blocks.length ++ toLE 3 data.length ++ data
      ++ nonce ++ toLE 2 0 ++ slice req (if signed then 37 else 4) 8
    let c := s.spdmConn t
    let l := c.measured ++ req ++ rsp
    if signed then
      (s.setSpdmConn { c with measured := [] }, rsp ++ s.spdmSign "responder-measurements signing" (c.vca ++ l))
    else (s.setSpdmConn { c with measured := l }, rsp)

/-- The answer to a request other than the two of chunking: version, then how far negotiation has come. -/
def State.spdmServe (s : State) (t : SpdmTransport) (req : Bytes) : State × Bytes :=
  let code := le req 1 1
  if code = 0x84 then s.spdmVersion t req
  else if code = 0xE1 ∨ code = 0xE3 ∨ code = 0x81 ∨ code = 0x82 ∨ code = 0x83 ∨ code = 0xE0 then
    if le req 0 1 ≠ 0x13 then (s, spdmError 0x41 0)
    else if code = 0xE1 then s.spdmCapabilities t req
    else if code = 0xE3 then s.spdmAlgorithms t req
    else if (s.spdmConn t).phase ≠ 3 then (s, spdmError 4 0)
    else if code = 0x81 then s.spdmDigests t req
    else if code = 0x82 then s.spdmCertificate t req
    else if code = 0x83 then s.spdmChallenge t req
    else s.spdmMeasurements t req
  else (s, spdmError 7 code)

/-! ### Chunking -/

/-- The longest message a transport carries; none where the spec gives no limit. -/
def spdmLimit : SpdmTransport → Option Nat
  | .ethernet _ _ => some 1024
  | .doe _ => none

/-- A response too large for its transport is announced and fetched with CHUNK_GET; the handle is free. -/
def State.spdmFit (s : State) (t : SpdmTransport) (rsp : Bytes) : State × Bytes :=
  match spdmLimit t with
  | none => (s, rsp)
  | some m =>
    if rsp.length ≤ m then (s, rsp)
    else
      let h := s.freeNat % 256
      let c := s.spdmConn t
      (s.useFree.setSpdmConn { c with largeOut := some (h, 0, rsp) }, spdmError 0x0F 0 ++ toLE 1 h)

/-- CHUNK_GET: the next chunk of the response being fetched. -/
def State.spdmChunkGet (s : State) (t : SpdmTransport) (req : Bytes) : State × Bytes :=
  let c := s.spdmConn t
  match c.largeOut with
  | none => (s, spdmError 4 0)
  | some (h, n, rsp) =>
    if le req 3 1 ≠ h ∨ le req 4 2 ≠ n then (s, spdmError 1 0)
    else
      let room := (spdmLimit t).getD 65536 - (if n = 0 then 16 else 12)
      let start := if n = 0 then 0 else (spdmLimit t).getD 65536 - 16 + (n - 1) * room
      let part := slice rsp start room
      let last := decide (rsp.length ≤ start + part.length)
      let head := [0x13, 0x06] ++ toLE 1 (b2n last) ++ toLE 1 h ++ toLE 2 n ++ toLE 2 0 ++ toLE 4 part.length
      let total := if n = 0 then toLE 4 rsp.length else []
      (s.setSpdmConn { c with largeOut := if last then none else some (h, n + 1, rsp) }, head ++ total ++ part)

/-- CHUNK_SEND: a chunk of a large request; the last one is acknowledged with the request's response. -/
def State.spdmChunkSend (s : State) (t : SpdmTransport) (req : Bytes) : State × Bytes :=
  let c := s.spdmConn t
  let h := le req 3 1
  let n := le req 4 2
  let part := slice req (if n = 0 then 16 else 12) (le req 8 4)
  let last := (le req 2 1).testBit 0
  let before := match c.largeIn with
    | some (h', n', b) => if h' = h ∧ n' = n ∧ n ≠ 0 then some b else none
    | none => none
  match (if n = 0 then some [] else before) with
  | none => (s.setSpdmConn { c with largeIn := none }, spdmError 1 0)
  | some b =>
    let all := b ++ part
    let ack := [0x13, 0x05, 0] ++ toLE 1 h ++ toLE 2 n
    if last then
      let (s, rsp) := (s.setSpdmConn { c with largeIn := none }).spdmServe t all
      let (s, rsp) := s.spdmFit t rsp
      (s, ack ++ rsp)
    else (s.setSpdmConn { c with largeIn := some (h, n + 1, all) }, ack)

/-- A request's answer, and the large response of an earlier one dropped. -/
def State.spdmAnswer (s : State) (t : SpdmTransport) (req : Bytes) : State × Bytes :=
  let code := le req 1 1
  if code = 0x86 ∨ code = 0x85 then
    if (s.spdmConn t).phase < 2 then (s, spdmError 4 0)
    else if le req 0 1 ≠ 0x13 then (s, spdmError 0x41 0)
    else if code = 0x86 then s.spdmChunkGet t req
    else s.spdmChunkSend t req
  else
    let (s, rsp) := s.spdmServe t req
    s.spdmFit t rsp

/-- Serve a message: the responder runs from handover on, and a frame of either management port holds at
most 1,024 bytes. -/
def State.spdmMessage (s : State) (t : SpdmTransport) (req : Bytes) : State :=
  let (s, rsp) := s.spdmAnswer t req
  (s.count 0x9060 2 1).send (.spdm t rsp)

/-- A row of one request code serves messages of that code. -/
def State.spdmRow (s : State) (code : Nat) (t : SpdmTransport) (req : Bytes) : Answer :=
  .next (if s.dictUp && 4 ≤ req.length && req.length ≤ (spdmLimit t).getD req.length && le req 1 1 = code then
    s.spdmMessage t req else s)

def execSpdmGetVersion (t : SpdmTransport) (req : Bytes) (s : State) : Answer := s.spdmRow 0x84 t req
def execSpdmGetCapabilities (t : SpdmTransport) (req : Bytes) (s : State) : Answer := s.spdmRow 0xE1 t req
def execSpdmNegotiateAlgorithms (t : SpdmTransport) (req : Bytes) (s : State) : Answer := s.spdmRow 0xE3 t req
def execSpdmGetDigests (t : SpdmTransport) (req : Bytes) (s : State) : Answer := s.spdmRow 0x81 t req
def execSpdmGetCertificate (t : SpdmTransport) (req : Bytes) (s : State) : Answer := s.spdmRow 0x82 t req
def execSpdmChallenge (t : SpdmTransport) (req : Bytes) (s : State) : Answer := s.spdmRow 0x83 t req
def execSpdmGetMeasurements (t : SpdmTransport) (req : Bytes) (s : State) : Answer := s.spdmRow 0xE0 t req
def execSpdmChunkGet (t : SpdmTransport) (req : Bytes) (s : State) : Answer := s.spdmRow 0x86 t req
def execSpdmChunkSend (t : SpdmTransport) (req : Bytes) (s : State) : Answer := s.spdmRow 0x85 t req
/-- UNSUPPORTED_SPDM_REQUEST: any code that no other row serves. -/
def execSpdmUnsupported (t : SpdmTransport) (req : Bytes) (s : State) : Answer :=
  .next (if s.dictUp && 4 ≤ req.length && req.length ≤ (spdmLimit t).getD req.length
      && !([0x81, 0x82, 0x83, 0x84, 0x85, 0x86, 0xE0, 0xE1, 0xE3].contains (le req 1 1)) then
    s.spdmMessage t req else s)

end Sys2Proof.Machine
end

