-- ==== Sys2Proof/Machine/Sync.lean ====
section
/-! DEFINITION. The synchronisation instructions (R206 to R216). -/
namespace Sys2Proof.Machine

/-- SY operands (R206): RRR, TYPE, HINT and SPACE zero, a defined scope. -/
def sySig (w : Fields) (rd rs1 rs2 : Opnd) : Sig :=
  { legal := !w.ri && w.ty = 0 && w.hint = 0 && !w.space && w.scope ≤ 4 && w.aux = 0, rd := rd, rs1 := rs1, rs2 := rs2 }

/-- Add a fence to a group; fences with nothing left to wait for are dropped. -/
def State.addFence (s : State) (gk : Nat) (g : Group) (f : Fence) : Group :=
  { g with fences := (g.fences.filter fun x => s.earlierWork gk x.no || s.netWritesBefore gk x.no) ++ [f] }

/-- A fence that orders and does not stall. -/
def State.syFence (s : State) (id : GroupId) (w : Fields) (op : Nat) (writesBefore readsAfter : Bool) : State :=
  s.issue id 0xC op w (sySig w .zero .zero .zero) false (fun _ => none) (fun _ _ => none) fun s gk g _ =>
    match (if writesBefore then s.drainGroup gk else some s) with
    | none => .hold s
    | some s =>
      let g := (s.group? gk).getD g
      let g := s.addFence gk g { no := g.issued, scope := w.scope, writesBefore := writesBefore, readsAfter := readsAfter }
      .done (s.setGroup gk g.next)

/-- SY 01h: every earlier access before every later one, but for an earlier write and a later read. -/
def execSyFence (g : GroupId) (w : Fields) (s : State) : Answer := .next (s.syFence g w 0x01 true true)
/-- SY 02h: every earlier access before every later write. -/
def execSyRel (g : GroupId) (w : Fields) (s : State) : Answer := .next (s.syFence g w 0x02 true false)
/-- SY 03h: every earlier read before every later access; CLUSTER scope or wider invalidates the L1. While an
earlier read is still in an engine, the invalidation waits for it (R209). -/
def execSyAcq (id : GroupId) (w : Fields) (s : State) : Answer :=
  .next (s.issue id 0xC 0x03 w (sySig w .zero .zero .zero) false (fun _ => none) (fun _ _ => none) fun s gk g _ =>
    let later := s.earlierWork gk g.issued
    let g := s.addFence gk g { no := g.issued, scope := w.scope, writesBefore := false, readsAfter := true, acquires := later }
    let s := s.setGroup gk g.next
    .done (if later then s else s.acquire gk w.scope))

/-- SY 04h: the group stalls until every earlier access is visible at the scope; at SYSTEM a failed
network write faults with REMOTE_INCOMPLETE (R222, R224). -/
def execSyFencec (id : GroupId) (w : Fields) (s : State) : Answer :=
  .next (s.issue id 0xC 0x04 w (sySig w .zero .zero .zero) false (fun _ => none) (fun _ _ => none) fun s gk g kn =>
    let word := w.word 0xC 0x04
    match (if w.scope = 4 then kn.remoteFail else none) with
    | some (a, n) => .fault s { code := 0x606, arg0 := a, arg1 := n }
    | none => match s.drainGroup gk with
      | none => s.stallIn gk g word
      | some s =>
        if s.earlierWork gk g.issued || (w.scope = 4 && s.netWritesBefore gk g.issued) then s.stallIn gk g word
        else
          let s := if w.scope = 4 then s.count 0xA072 3 1 else s
          .done ((s.setGroup gk g.next).acquire gk w.scope))

/-- TALLY_RANGE of an index or a reference (R224). -/
def tallyRange (x : Nat) (kn : Kernel) : FaultInfo := { code := 0x604, arg0 := x, arg1 := kn.man.tallies }

/-- The physical tally of a group's own die that an index names (R211). -/
def Kernel.ownTally (kn : Kernel) (gk i : Nat) : Option (Nat × Nat) :=
  let d := clusterDie (gcluster gk)
  if i ≥ kn.man.tallies then none else (sget? d kn.tallyBase).map fun b => (d, b + i)

/-- The value of a physical tally. -/
def State.tallyNow (s : State) (d i : Nat) : Nat := (sgetD (s.tally d).vals i 0).toNat

/-- SY 10h: the group stalls until the tally is at least the awaited value, then acquires (R214). -/
def execSyTally (id : GroupId) (w : Fields) (s : State) : Answer :=
  .next (s.issue id 0xC 0x10 w (sySig w .zero .r .p) false (fun _ => none) (fun _ _ => none) fun s gk g kn =>
    let i := g.reg g.lead w.rs1.toNat
    match kn.ownTally gk i with
    | none => .fault s (tallyRange i kn)
    | some (d, t) =>
      if s.tallyNow d t ≥ g.pair g.lead w.rs2 then .done ((s.setGroup gk g.next).acquire gk w.scope)
      else s.stallIn gk g (w.word 0xC 0x10))

/-- SY 11h: the tally's value to the pair RD of every lane, without ordering. -/
def execSyTrd (id : GroupId) (w : Fields) (s : State) : Answer :=
  .next (s.issue id 0xC 0x11 w (sySig w .p .r .zero) false (fun _ => none) (fun _ _ => none) fun s gk g kn =>
    let i := g.reg g.lead w.rs1.toNat
    match kn.ownTally gk i with
    | none => .fault s (tallyRange i kn)
    | some (d, t) => .done (s.setGroup gk (g.setAll w.rd.toNat true (s.tallyNow d t)).next))

/-- SY 12h: an amount added to the tally that a reference names, as a release at the scope (R213). -/
def execSyTadd (id : GroupId) (w : Fields) (s : State) : Answer :=
  .next (s.issue id 0xC 0x12 w (sySig w .zero .r .p) false (fun _ => none) (fun _ _ => none) fun s gk g kn =>
    let ref := g.reg g.lead w.rs1.toNat
    match kn.tallyOf ref (clusterDie (gcluster gk)) with
    | none => .fault s (tallyRange ref kn)
    | some (d, t) =>
      match s.drainGroup gk with
      | none => .hold s
      | some s =>
        if s.releaseHeldBack gk g w.scope then .hold s
        else .done ((s.modGroup gk fun g => g.next).tallyInc d t (g.pair g.lead w.rs2)))

/-- TALLY_WAIT_TIMEOUT: with a wait limit set, a SYTALLY still below its value faults (R216). -/
def execTallyWaitTimeout (id : GroupId) (s : State) : Answer :=
  let gk := gkey id
  .next (match s.group? gk with
    | none => s
    | some g => match g.wait, s.kernel? g.kernel with
      | .stall word, some kn =>
        let x := word.toNat
        let i := g.reg g.lead (field x 24 8)
        let want := g.pair g.lead (field x 16 8)
        if setting s 0xA071 1 = 0 ∨ field x 52 12 ≠ 0xC10 ∨ g.halted then s
        else match kn.ownTally gk i with
          | some (d, t) =>
            if s.tallyNow d t ≥ want then s
            else (s.count 0xA072 5 1).takeFault gk g word { code := 0x605, arg0 := i, arg1 := want }
          | none => s
      | _, _ => s)

end Sys2Proof.Machine
end

