-- ==== Sys2Proof/Machine/Transfer.lean ====
section
/-! DEFINITION. The transfer unit (R123 to R126, R174 to R176, R217, R218): the checks at issue, and the
line parts it performs. -/
namespace Sys2Proof.Machine

/-! ### Fields of a transfer's word -/

def txOp (w : W64) : Nat := field w.toNat 52 8
def txTranspose (w : W64) : Bool := w.toNat.testBit 0
def txSpace (w : W64) : Bool := w.toNat.testBit 40
def txHint (w : W64) : Nat := field w.toNat 44 2
def txScope (w : W64) : Nat := field w.toNat 41 3
def txTallied (w : W64) : Bool := (txOp w = 0x10 || txOp w = 0x11) && w.toNat.testBit 0
/-- Whether a transfer moves a tile, and whether it writes its address side. -/
def txTile (w : W64) : Bool := txOp w = 1 || txOp w = 2
def txWrites (w : W64) : Bool := txOp w ≠ 1 && txOp w ≠ 3
/-- The access code of its translations (R262). -/
def txAccess (w : W64) : Nat := if txOp w = 0x11 then 2 else if txWrites w then 5 else 4

/-- Storage unit of a tile's format in bytes (R125). -/
def storageUnit (h : Nat) : Nat := if elemBits (hFormat h) = 4 then 1 else elemBits (hFormat h) / 8

/-! ### Line parts (R205) -/

/-- One line part: the row of the address side and the byte offset in it, its address, its length. -/
structure TxPart where
  row : Nat
  off : Nat
  addr : Nat
  len : Nat
  deriving DecidableEq, Repr

/-- The rows of the address side: start and length. With TRANSPOSE a row holds one column of the tile
(R124). -/
def Xfer.rows (x : Xfer) : List (Nat × Nat) :=
  let h := x.handle.toNat
  if txTile x.word then
    let n := if txTranspose x.word then hCols h else hRows h
    let bytes := if txTranspose x.word then hRows h * storageUnit h else (hCols h * elemBits (hFormat h) + 7) / 8
    (List.range n).map fun (r : Nat) => (wrap 64 ((x.addr.toNat : Int) + (r : Int) * x.stride.toInt), bytes)
  else [(x.addr.toNat, x.count)]

/-- The line parts of a transfer in order. -/
def Xfer.parts (x : Xfer) : List TxPart :=
  (x.rows.zipIdx).flatMap fun ((a, n), r) =>
    (lineParts (n / 128 + 2) a n).map fun (p, k) => { row := r, off := p - a, addr := p % 2 ^ 64, len := k }

/-- The scratchpad pieces of a part: offset and length, in the order of the part's bytes. -/
def Xfer.pieces (x : Xfer) (p : TxPart) : List (Nat × Nat) :=
  let h := x.handle.toNat
  if !txTile x.word then [(x.off + p.off, p.len)]
  else if txTranspose x.word then
    let u := storageUnit h
    (List.range (p.len / u)).map fun j => (hBase h + (p.off / u + j) * hPitch h + p.row * u, u)
  else [(hBase h + p.row * hPitch h + p.off, p.len)]

/-- The bytes of a part from scratchpad. -/
def State.gather (s : State) (cl : Nat) (x : Xfer) (p : TxPart) : Bytes :=
  (x.pieces p).flatMap fun (o, n) => (s.cluster cl).spadBytes o n
/-- The bytes of a part into scratchpad. -/
def State.scatter (s : State) (gk : Nat) (x : Xfer) (p : TxPart) (b : Bytes) : State :=
  ((x.pieces p).foldl (fun (s, b) (o, n) => (s.spadStore gk (n / 256 + 2) o (b.take n), b.drop n)) (s, b)).1

/-! ### Issue -/

/-- Lowest and highest scratchpad offset of the address side when it lies in scratchpad: from its lowest to
its highest byte, the gaps of its stride included; an end below zero is out of range (DEDUCED, log 136). -/
def Xfer.span (x : Xfer) : Int × Int :=
  let h := x.handle.toNat
  let a : Int := (x.addr.toNat % 2 ^ 32 : Nat)
  if txTile x.word then
    let n : Int := (if txTranspose x.word then hCols h else hRows h : Nat)
    let bytes : Int := (if txTranspose x.word then hRows h * storageUnit h else (hCols h * elemBits (hFormat h) + 7) / 8 : Nat)
    let e := a + (n - 1) * x.stride.toInt
    (min a e, max a e + bytes)
  else (a, a + x.count)
/-- The range of the scratchpad side: a tile's rows with their padding (DEDUCED, log 136). -/
def Xfer.local (x : Xfer) : Int × Int :=
  let h := x.handle.toNat
  if txTile x.word then ((hBase h : Nat), (hBase h + hElemEnd h : Nat)) else ((x.off : Nat), (x.off + x.count : Nat))

/-- The scratchpad range of the address side, and the overlap of the two sides (R125). -/
def Xfer.spaceChecks (x : Xfer) (size : Nat) : Option FaultInfo × Option FaultInfo :=
  if !txSpace x.word then (none, none)
  else
    let (lo, hi) := x.span
    let (l, h) := x.local
    let a := x.addr.toNat % 2 ^ 32
    (if lo < 0 ∨ hi > size then some { code := 0x308, arg0 := wrap 64 hi, arg1 := size } else none,
     if lo < h ∧ l < hi then some { code := 0x383, arg0 := if txWrites x.word then l.toNat else a, arg1 := if txWrites x.word then a else l.toNat } else none)

/-- TX_ALIGN at the first value that is not a multiple, or a scratchpad offset with a high half (R123). -/
def alignFault (x : Xfer) (vals : List (Nat × Nat)) : Option FaultInfo :=
  if txSpace x.word ∧ x.addr.toNat ≥ 2 ^ 32 then some { code := 0x381, arg0 := x.addr.toNat }
  else (vals.find? fun v => v.1 % v.2 ≠ 0).map fun v => { code := 0x381, arg0 := v.1 }

/-- The checks of TXLD and TXST in the order of R127's codes. -/
def Xfer.tileChecks (x : Xfer) (size : Nat) : Option FaultInfo :=
  let h := x.handle.toNat
  let u := storageUnit h
  let reserved := hFormat h ≥ 13
  let four := elemBits (hFormat h) = 4
  let (range, overlap) := x.spaceChecks size
  let lay : FaultInfo := { code := 0x382, arg0 := h, arg1 := field x.word.toNat 0 8 }
  if hTop h ≠ 0 then some { code := 0x301, arg0 := h, arg1 := 3 }
  else if reserved then firstFault (asCheck (alignFault x []) ++ [(true, lay)])
  else firstFault
    (asCheck (scratchFault h (hElemEnd h) size) ++ asCheck range ++ asCheck (alignFault x [(x.addr.toNat, u), (x.stride.toNat, u)])
      ++ ([(four && (txTranspose x.word || hCols h % 2 ≠ 0), lay)] : List Check) ++ asCheck overlap)

/-- The checks of a linear transfer: count limits, alignment, scratchpad range (R125, R217). -/
def Xfer.linearChecks (x : Xfer) (size unit : Nat) : Option FaultInfo :=
  let (range, overlap) := x.spaceChecks size
  let off := if x.off + x.count > size then some { code := 0x308, arg0 := x.off + x.count, arg1 := size : FaultInfo } else none
  firstFault
    (asCheck off ++ asCheck range
      ++ asCheck (alignFault x [(x.addr.toNat, unit), (x.count, unit), (x.off, 4)]) ++ asCheck overlap
      ++ ([(decide (x.count < 4 ∨ x.count > 65536), { code := 0x384, arg0 := x.count })] : List Check))

/-- Hand a transfer to the unit; 16 in progress hold the group (R126), whose instruction has been checked
before it waits (DEDUCED, log 137). -/
def State.txPush (s : State) (gk : Nat) (g : Group) (x : Xfer) : Eff :=
  if (s.cluster (gcluster gk)).xfers.length ≥ 16 then .hold s
  else .done ((s.modCluster (gcluster gk) fun c => { c with xfers := c.xfers ++ [x] }).setGroup gk g.next)

/-- A transfer as its operands stand at issue, read from the lowest lane of the launch mask. -/
def Group.xfer (g : Group) (gk : Nat) (word : W64) (w : Fields) : Xfer :=
  let base : Xfer := { group := gk % 64, no := g.issued, kernel := g.kernel, word := word, pc := g.pc
                       addr := BitVec.ofNat 64 (g.pair g.lead w.rs1.toNat), stride := 0, count := 0, handle := 0, off := 0 }
  if txTile word then { base with stride := BitVec.ofNat 64 (g.pair g.lead w.rs2), handle := BitVec.ofNat 64 (g.pair g.lead w.rs3) }
  else { base with count := g.reg g.lead w.rs2, off := if txOp word = 0x12 then 0 else g.reg g.lead w.rs3
                   tally := if txTallied word then some (BitVec.ofNat 32 (g.reg g.lead w.rd.toNat)) else none }

/-- Issue a tile placement. -/
def State.txTileIssue (s : State) (id : GroupId) (w : Fields) (op : Nat) : State :=
  let word := w.word 0xD op
  let sig : Sig := { legal := !w.ri && w.ty = 0 && w.scope = 0 && w.hint ≠ 3 && w.aux ≤ 1, rs1 := .p, rs2 := .p, rs3 := .p }
  s.issue id 0xD op w sig true (fun _ => none) (fun _ _ => none) fun s gk g _ =>
    let x := g.xfer gk word w
    match x.tileChecks (s.cluster (gcluster gk)).spadSize with
    | some f => .fault s f
    | none => s.txPush gk g x

/-- Issue a linear transfer. -/
def State.txLinear (s : State) (id : GroupId) (w : Fields) (op : Nat) : State :=
  let word := w.word 0xD op
  let sig : Sig := { legal := !w.ri && w.ty = 0 && w.scope = 0 && w.hint ≠ 3 && w.aux = 0, rs1 := .p, rs2 := .r, rs3 := .r }
  s.issue id 0xD op w sig true (fun _ => none) (fun _ _ => none) fun s gk g _ =>
    let x := g.xfer gk word w
    match x.linearChecks (s.cluster (gcluster gk)).spadSize 4 with
    | some f => .fault s f
    | none => s.txPush gk g x

/-- TX 01h to 04h. -/
def execTxLd (g : GroupId) (w : Fields) (s : State) : Answer := .next (s.txTileIssue g w 0x01)
def execTxSt (g : GroupId) (w : Fields) (s : State) : Answer := .next (s.txTileIssue g w 0x02)
def execTxLdl (g : GroupId) (w : Fields) (s : State) : Answer := .next (s.txLinear g w 0x03)
def execTxStl (g : GroupId) (w : Fields) (s : State) : Answer := .next (s.txLinear g w 0x04)

/-- A tally reference no node accepts (R212). -/
def badReference (r : Nat) : Bool := r ≥ 2 ^ 20 || (field r 16 4 ≥ 4 && field r 16 4 ≠ 15)

/-- Issue TXPUT or TXRED: the range and alignment checks, then ATOMIC_FORMAT and an invalid reference. -/
def State.txTalliedIssue (s : State) (id : GroupId) (w : Fields) (op : Nat) (legal : Bool) (unit : Nat) (format : Option FaultInfo) : State :=
  let word := w.word 0xD op
  let sig : Sig := { legal := !w.ri && !w.space && w.scope ≤ 4 && legal
                     rd := if w.aux.testBit 0 then .r else .zero, rs1 := .p, rs2 := .r, rs3 := .r }
  s.issue id 0xD op w sig true (fun _ => none) (fun _ _ => none) fun s gk g kn =>
    let x := g.xfer gk word w
    let bad := match x.tally with
      | some r => if badReference r.toNat then some (tallyRange r.toNat kn) else none
      | none => none
    match firstFault (asCheck (x.linearChecks (s.cluster (gcluster gk)).spadSize unit) ++ asCheck format ++ asCheck bad) with
    | some f => .fault s f
    | none => match (if w.scope ≥ 1 then s.drainGroup gk else some s) with
      | none => .hold s
      | some s => s.txPush gk ((s.group? gk).getD g) x

/-- TX 10h: a copy to memory, then the tally's increment (R218). -/
def execTxPut (g : GroupId) (w : Fields) (s : State) : Answer :=
  .next (s.txTalliedIssue g w 0x10 (w.ty = 0 && w.hint ≠ 3 && w.aux < 2) 4 none)

/-- TX 11h: reduce-writes of the operation in AUX 7:5 (R218; DEDUCED, log 42 on the multiples of 4). -/
def State.txRed (s : State) (g : GroupId) (w : Fields) (op : Nat) : State :=
  s.txTalliedIssue g w 0x11 (w.ty < 8 && w.hint = 0 && field w.aux 5 3 = op && field w.aux 1 4 = 0) (Nat.max 4 (adderSize w.ty))
    (if adderAllows op w.ty then none else some { code := 0x602, arg0 := w.ty, arg1 := w.aux })
def execTxRedAdd (g : GroupId) (w : Fields) (s : State) : Answer := .next (s.txRed g w 0)
def execTxRedMin (g : GroupId) (w : Fields) (s : State) : Answer := .next (s.txRed g w 1)
def execTxRedMax (g : GroupId) (w : Fields) (s : State) : Answer := .next (s.txRed g w 2)
def execTxRedAnd (g : GroupId) (w : Fields) (s : State) : Answer := .next (s.txRed g w 3)
def execTxRedOr (g : GroupId) (w : Fields) (s : State) : Answer := .next (s.txRed g w 4)
def execTxRedXor (g : GroupId) (w : Fields) (s : State) : Answer := .next (s.txRed g w 5)

/-- TX 12h: address and count multiples of 128, count from 128 to 65,536 (R174). -/
def execTxDead (id : GroupId) (w : Fields) (s : State) : Answer :=
  let sig : Sig := { legal := !w.ri && w.ty = 0 && w.mod = 0 && w.aux = 0, rs1 := .p, rs2 := .r }
  .next (s.issue id 0xD 0x12 w sig true (fun kn => if kn.feature 4 then none else some 4) (fun _ _ => none) fun s gk g _ =>
    let x := g.xfer gk (w.word 0xD 0x12) w
    match firstFault (asCheck (alignFault x [(x.addr.toNat, 128), (x.count, 128)])
        ++ ([(decide (x.count < 128 ∨ x.count > 65536), { code := 0x384, arg0 := x.count })] : List Check)) with
    | some f => .fault s f
    | none => s.txPush gk g x)

/-! ### Performing line parts -/

/-- What performing a part comes to. -/
inductive PartResult where
  | done
  | fault (f : FaultInfo)
  /-- an answer is awaited, or the home answered RETRY -/
  | later

/-- A mask of the sectors a byte range of a line touches. -/
def sectorMask (o n : Nat) : Nat := maskOf ((List.range 4).filter fun i => decide (o / 32 ≤ i) && decide (i ≤ (o + n - 1) / 32))

/-- POISON_CONSUMED of a transfer at the lowest poisoned byte of a part. -/
def partPoison (pa va poison source : Nat) : FaultInfo :=
  let o := pa % 128
  let sec := ((List.range 4).find? fun i => poison.testBit i).getD 0
  let skip := if 32 * sec > o then 32 * sec - o else 0
  poisonFault source 4 (pa + skip) (va + skip)

/-- Mark the read of a transfer's part as sent. -/
def State.markAwaiting (s : State) (cl g no : Nat) : State :=
  s.modCluster cl fun c => { c with xfers := c.xfers.map fun x => if x.group = g ∧ x.no = no then { x with awaiting := true } else x }

/-- Read the bytes of a part at a physical address. -/
def State.txRead (s : State) (gk : Nat) (x : Xfer) (pa va n : Nat) (uncached translated : Bool) :
    State × PartResult × Bytes :=
  let cl := gcluster gk
  let die := clusterDie cl
  let info := s.allocInfo cl (txHint x.word) ((s.group? gk).map fun g => (g.kernel, g.landing))
  let took := fun (source : Nat) => match x.arrived with
    | some (b, false) => some (s, PartResult.done, b)
    | some (_, true) => some (s, PartResult.fault (partPoison pa va 15 source), [])
    | none => if x.awaiting then some (s, PartResult.later, []) else none
  if !s.clusterReaches cl pa then (s, .fault (partPoison pa va 15 4), [])
  else match window pa with
  | .regs _ => let (s, b) := s.regRead 64 pa n; (s, .done, b)
  | .companion _ => (s.useFree, .done, toLE n s.freeNat)
  | .reserved => (s, .fault (partPoison pa va 15 4), [])
  | .host port off => (match took 3 with
    | some r => r
    | none => ((s.markAwaiting cl x.group x.no).hostRead (s.clusterPart cl) port off n (.xfer cl x.group x.no) translated, .later, []))
  | .net off =>
    let lo := pa % 128 / 32 * 32
    let hi := (pa % 128 + n + 31) / 32 * 32
    let cache := s.remoteCaching cl && !uncached
    (match took 2 with
    | some (s, .done, b) =>
      if cache then
        (if x.keepRemote then s.keepRemote cl (lineOf pa) (sectorMask (pa % 128) n) (fromLE b * 2 ^ (8 * lo)) info else s,
         .done, slice b (pa % 128 - lo) n)
      else (s, .done, b)
    | some r => r
    | none => match s.remoteLookup cl pa n info with
      | (s, some d) => (s, .done, toLE n d)
      | (s, none) =>
        let s := s.markAwaiting cl x.group x.no
        (if cache then s.windowGet die (off - pa % 128 + lo) (hi - lo) (.xferRead cl x.group x.no)
         else s.windowGet die off n (.xferRead cl x.group x.no), .later, []))
  | _ => match s.keyAddr pa with
    | none => (s, .fault (partPoison pa va 15 4), [])
    | some k => match s.clusterRead cl (lineOf k) (BitVec.ofNat 4 (sectorMask (k % 128) n)) info uncached with
      | none => (s.retryMet, .later, [])
      | some (s, r) =>
        if r.poison ≠ 0 then (s, .fault (partPoison pa va r.poison (if s.reachesLine die (lineOf k) then poisonSource pa else 4)), [])
        else if r.tomb then (s, .fault { code := 0x801, arg0 := lineOf pa }, [])
        else (s, .done, toLE n (field r.data (8 * (k % 128)) (8 * n)))

/-- The tally reference a packet carries: DIE Fh stands for the issuing group's die, which the sender puts
there (R212; DEDUCED, log 50). -/
def sentTally (ref die : Nat) : Nat := if field ref 16 4 = 15 then setField ref 16 4 die else ref

/-- Write the bytes of a part at a physical address; a network window carries the tally reference. What cannot be
reached is discarded (R14). -/
def State.txWrite (s : State) (gk : Nat) (x : Xfer) (pa : Nat) (b : Bytes) (uncached translated : Bool) : State × PartResult :=
  let cl := gcluster gk
  let die := clusterDie cl
  let n := b.length
  let owner := (s.group? gk).map fun g => (g.kernel, g.landing)
  if !s.clusterReaches cl pa then (s, .done)
  else match window pa with
  | .regs _ => (s.regWrite (s.clusterPart cl) 128 pa b, .done)
  | .companion off => (s.send (.companionWrite off b), .done)
  | .host port off => (s.hostWrite (s.clusterPart cl) port off b translated, .done)
  | .net off =>
    ((s.updateRemote cl pa (2 ^ n - 1) (fromLE b) n).windowPut die off (2 ^ n - 1) (fromLE b) n
      (.store x.kernel [(gk, x.no)] pa) (x.tally.map fun r => sentTally r.toNat die), .done)
  | .reserved => (s, .done)
  | _ => match s.keyAddr pa with
    | none => (s, .done)
    | some k => match s.clusterWrite cl (lineOf k) ((2 ^ n - 1) <<< (k % 128)) (fromLE b <<< (8 * (k % 128))) (s.allocInfo cl (txHint x.word) owner) uncached with
      | none => (s.retryMet, .later)
      | some s => (s, .done)

/-- The reduce-write of a part (R186, R189): false where it met poison and was not applied.
(DEDUCED, log 119.) -/
def State.txReduce (s : State) (gk : Nat) (x : Xfer) (pa va : Nat) (b : Bytes) : State × PartResult × Bool :=
  let cl := gcluster gk
  let op := field x.word.toNat 5 3
  let fmt := field x.word.toNat 48 4
  match window pa with
  | .net off => if !s.clusterReaches cl pa then (s, .done, false) else
    let (fk, key, addr) := s.apertureTarget (clusterDie cl) off
    (s.startOp fk (.store x.kernel [(gk, x.no)] pa) false
      [(6, if x.tally.isSome then 0x80 else 0, key, addr, b.length, (x.tally.map fun r => sentTally r.toNat (clusterDie cl)).getD 0, op <<< 60 ||| fmt <<< 56, b)], .done, true)
  | _ => match s.keyAddr pa with
    | none => (s, .done, false)
    | some k => match s.adderReduce (clusterHalf cl) k op fmt b with
      | none => (s.retryMet, .later, false)
      | some (s, .error) => (s, .fault { code := 0x603, arg0 := va }, false)
      | some (s, .poison) => (s, .done, false)
      | some (s, .old _) => (s, .done, true)

/-- Declare one line dead (R174 to R176): every coherent copy goes without write-back; with the trap on a
tombstone stays in the half that caches the line for the issuing cluster, and in place of the home half's
own copy (R236).
(DEDUCED, log 118.) -/
def State.declareDead (s : State) (gk pa : Nat) : State × PartResult :=
  let cl := gcluster gk
  let s' := fun (s : State) => ((s.dropL1 cl (lineOf (s.location pa))).count 0xA068 5 1, PartResult.done)
  match s.keyAddr pa with
  | none => s' (s.modAgent (clusterHalf cl) fun a => { a with copies := a.copies.filter fun c => !(c.remote && c.line = lineOf pa) })
  | some k =>
    let line := lineOf k
    if !s.reachesLine (clusterDie cl) line then s' s
    else match (s.reclaimNow (s.home line) line).runDead (clusterHalf cl) line with
      | none => (s.retryMet, .later)
      | some s =>
        let half := s.servingHalf cl line
        if setting s 0xA062 1 = 1 ∧ ((s.agent half).cached? line).isNone then
          (match s.makeRoom half line {} with
           | none => s' s
           | some (s, w) => s' (s.modAgent half fun a => a.front { line := line, st := .I, valid := 0, dirty := 0, data := 0, way := w, tomb := true }))
        else s' s

/-- Increment a transfer's tally for bytes made visible in this node (R213). -/
def State.txCount (s : State) (gk : Nat) (x : Xfer) (kn : Kernel) (pa n : Nat) : State :=
  match window pa, x.tally with
  | .net _, _ => s
  | _, some r => (match kn.tallyOf r.toNat (clusterDie (gcluster gk)) with
    | some (d, t) => s.tallyInc d t n
    | none => s)
  | _, none => s

/-- The destination checks of TXPUT and TXRED: ATOMIC_TARGET, then TALLY_RANGE of a local tally (R218). -/
def txTarget (gk : Nat) (x : Xfer) (kn : Kernel) (pa va : Nat) : Option FaultInfo :=
  let op := txOp x.word
  if op ≠ 0x10 ∧ op ≠ 0x11 then none
  else
    let target := match window pa with
      | .host _ _ => if op = 0x10 && x.tally.isNone then none else some 0
      | _ => atomicTarget pa
    match target with
    | some t => some { code := 0x601, arg0 := va, arg1 := t }
    | none => match window pa, x.tally with
      | .net _, _ => none
      | _, some r => if (kn.tallyOf r.toNat (clusterDie (gcluster gk))).isNone then some (tallyRange r.toNat kn) else none
      | _, none => none

/-- Perform one part whose address has been translated. -/
def State.txPart (s : State) (gk : Nat) (x : Xfer) (kn : Kernel) (p : TxPart) (pa : Nat) (uncached translated : Bool) : State × PartResult :=
  let cl := gcluster gk
  match txTarget gk x kn pa p.addr with
  | some f => (s, .fault f)
  | none => match txOp x.word with
    | 0x01 | 0x03 => (match s.txRead gk x pa p.addr p.len uncached translated with
      | (s, .done, b) => ((s.scatter gk x p b).count 0xA041 6 p.len, .done)
      | (s, r, _) => (s, r))
    | 0x11 => (match s.txReduce gk x pa p.addr (s.gather cl x p) with
      | (s, .done, ok) => (if ok then (s.dropL1 cl (lineOf (s.location pa))).txCount gk x kn pa p.len else s, .done)
      | (s, r, _) => (s, r))
    | 0x12 => s.declareDead gk pa
    | op => (match s.txWrite gk x pa (s.gather cl x p) uncached translated with
      | (s, .done) =>
        let s := (s.dropL1 cl (lineOf (s.location pa))).txCount gk x kn pa p.len
        (if op = 0x10 then s else s.count 0xA041 6 p.len, .done)
      | r => r)

/-- A part has been performed: the next one, or the transfer leaves the unit. -/
def State.txAdvance (s : State) (cl : Nat) (x : Xfer) (total : Nat) : State :=
  let mine := fun (y : Xfer) => y.group = x.group && y.no = x.no
  if x.pos + 1 ≥ total then (s.modCluster cl fun c => { c with xfers := c.xfers.filter fun y => !mine y }).settleEnds cl
  else s.modCluster cl fun c => { c with xfers := c.xfers.map fun y => if mine y then { y with pos := x.pos + 1, awaiting := false, arrived := none, keepRemote := true } else y }

/-- Perform the next line part of a transfer. It waits for the group's earlier transfers, for its fences,
for its own release and for the end of a recoverable fault (R204, R208, R217, R263). Every operation writes: to
memory, or to scratchpad.
(DESIGN CHOICE, log 120.) -/
def State.lineStep (s : State) (cl : Nat) (x : Xfer) : State :=
  let gk := 64 * cl + x.group
  let c := s.cluster cl
  match s.kernel? x.kernel with
  | none => s
  | some kn =>
    let earlier := c.xfers.any fun y => y.group = x.group && decide (y.no < x.no)
    let stalled := s.stalled.any fun f => f.group = gk && f.xfer = some x.no
    let release := (txOp x.word = 0x10 || txOp x.word = 0x11) && decide (txScope x.word ≥ 1)
      && (s.earlierWork gk x.no || (txScope x.word = 4 && s.netOpsBefore gk x.no))
    if kn.phase ≠ .running ∨ earlier = true ∨ stalled = true ∨ release = true ∨ s.fenced gk x.no true true = true then s
    else
      let parts := x.parts
      match parts[x.pos]? with
      | none => s.txAdvance cl x parts.length
      | some p =>
        let reads := (if txWrites x.word && txOp x.word ≠ 0x12 then x.pieces p else []) ++ (if txSpace x.word && !txWrites x.word then [(p.addr, p.len)] else [])
        match s.meetScratch cl 5 reads with
        | (s, some f) => (s.engineFault gk x.pc x.word (some x.no) f).1
        | (s, none) =>
        if txSpace x.word then
          let s := if txWrites x.word then
              s.spadStore gk (p.len / 256 + 2) p.addr (s.gather cl x p)
            else s.scatter gk x p (c.spadBytes p.addr p.len)
          (s.count 0xA041 6 p.len).txAdvance cl x parts.length
        else match s.translate cl kn p.addr (txAccess x.word) (gk, some x.no) with
          | (s, .fault f) => (s.engineFault gk x.pc x.word (some x.no) f).1
          | (s, .wait) | (s, .busy) => s
          | (s, .ok pa pbmt t) => match s.txPart gk x kn p pa (pbmt ≠ 0) t with
            | (s, .done) => s.txAdvance cl x parts.length
            | (s, .fault f) => (s.engineFault gk x.pc x.word (some x.no) f).1
            | (s, .later) => s

/-- TRANSFER_LINE_PART: the unit performs the next line part of its i-th transfer. -/
def execTransferLinePart (cl : Fin 512) (i : Fin 16) (s : State) : Answer :=
  .next (match (s.cluster cl.val).xfers[i.val]? with
    | some x => s.lineStep cl.val x
    | none => s)

end Sys2Proof.Machine
end

