-- ==== Sys2Proof/Machine/Dispatch.lean ====
section
/-! DEFINITION. The dispatcher: one arm for each command. -/
namespace Sys2Proof.Machine

def exec (i : Instr) (s : State) : Host.Outcome State Fault Refusal :=
  match i with
  | .intAdd g w => Sys2Proof.Machine.execIntAdd g w s
  | .intSub g w => Sys2Proof.Machine.execIntSub g w s
  | .intAnd g w => Sys2Proof.Machine.execIntAnd g w s
  | .intOr g w => Sys2Proof.Machine.execIntOr g w s
  | .intXor g w => Sys2Proof.Machine.execIntXor g w s
  | .intNot g w => Sys2Proof.Machine.execIntNot g w s
  | .intShl g w => Sys2Proof.Machine.execIntShl g w s
  | .intShr g w => Sys2Proof.Machine.execIntShr g w s
  | .intSra g w => Sys2Proof.Machine.execIntSra g w s
  | .intRot g w => Sys2Proof.Machine.execIntRot g w s
  | .intMov g w => Sys2Proof.Machine.execIntMov g w s
  | .intLih g w => Sys2Proof.Machine.execIntLih g w s
  | .intClz g w => Sys2Proof.Machine.execIntClz g w s
  | .intPopc g w => Sys2Proof.Machine.execIntPopc g w s
  | .imdMul g w => Sys2Proof.Machine.execImdMul g w s
  | .imdMulhi g w => Sys2Proof.Machine.execImdMulhi g w s
  | .imdDiv g w => Sys2Proof.Machine.execImdDiv g w s
  | .imdRem g w => Sys2Proof.Machine.execImdRem g w s
  | .f32Add g w => Sys2Proof.Machine.execF32Add g w s
  | .f32Sub g w => Sys2Proof.Machine.execF32Sub g w s
  | .f32Mul g w => Sys2Proof.Machine.execF32Mul g w s
  | .f32Fma g w => Sys2Proof.Machine.execF32Fma g w s
  | .f32Min g w => Sys2Proof.Machine.execF32Min g w s
  | .f32Max g w => Sys2Proof.Machine.execF32Max g w s
  | .f32Abs g w => Sys2Proof.Machine.execF32Abs g w s
  | .f32Neg g w => Sys2Proof.Machine.execF32Neg g w s
  | .f32Div g w => Sys2Proof.Machine.execF32Div g w s
  | .f32Sqrt g w => Sys2Proof.Machine.execF32Sqrt g w s
  | .f64Add g w => Sys2Proof.Machine.execF64Add g w s
  | .f64Sub g w => Sys2Proof.Machine.execF64Sub g w s
  | .f64Mul g w => Sys2Proof.Machine.execF64Mul g w s
  | .f64Fma g w => Sys2Proof.Machine.execF64Fma g w s
  | .f64Min g w => Sys2Proof.Machine.execF64Min g w s
  | .f64Max g w => Sys2Proof.Machine.execF64Max g w s
  | .f64Abs g w => Sys2Proof.Machine.execF64Abs g w s
  | .f64Neg g w => Sys2Proof.Machine.execF64Neg g w s
  | .f64Div g w => Sys2Proof.Machine.execF64Div g w s
  | .f64Sqrt g w => Sys2Proof.Machine.execF64Sqrt g w s
  | .cmpEq g w => Sys2Proof.Machine.execCmpEq g w s
  | .cmpNe g w => Sys2Proof.Machine.execCmpNe g w s
  | .cmpLt g w => Sys2Proof.Machine.execCmpLt g w s
  | .cmpLe g w => Sys2Proof.Machine.execCmpLe g w s
  | .cmpSel g w => Sys2Proof.Machine.execCmpSel g w s
  | .cvtCvt g w => Sys2Proof.Machine.execCvtCvt g w s
  | .cvtCvte g w => Sys2Proof.Machine.execCvtCvte g w s
  | .cvtEcvt g w => Sys2Proof.Machine.execCvtEcvt g w s
  | .memLd8 g w => Sys2Proof.Machine.execMemLd8 g w s
  | .memLd8u g w => Sys2Proof.Machine.execMemLd8u g w s
  | .memLd16 g w => Sys2Proof.Machine.execMemLd16 g w s
  | .memLd16u g w => Sys2Proof.Machine.execMemLd16u g w s
  | .memLd32 g w => Sys2Proof.Machine.execMemLd32 g w s
  | .memLd64 g w => Sys2Proof.Machine.execMemLd64 g w s
  | .memSt8 g w => Sys2Proof.Machine.execMemSt8 g w s
  | .memSt16 g w => Sys2Proof.Machine.execMemSt16 g w s
  | .memSt32 g w => Sys2Proof.Machine.execMemSt32 g w s
  | .memSt64 g w => Sys2Proof.Machine.execMemSt64 g w s
  | .memPf g w => Sys2Proof.Machine.execMemPf g w s
  | .atomAdd g w order fetch => Sys2Proof.Machine.execAtomAdd g w order fetch s
  | .atomMin g w order fetch => Sys2Proof.Machine.execAtomMin g w order fetch s
  | .atomMax g w order fetch => Sys2Proof.Machine.execAtomMax g w order fetch s
  | .atomAnd g w order fetch => Sys2Proof.Machine.execAtomAnd g w order fetch s
  | .atomOr g w order fetch => Sys2Proof.Machine.execAtomOr g w order fetch s
  | .atomXor g w order fetch => Sys2Proof.Machine.execAtomXor g w order fetch s
  | .atomSwap g w order fetch => Sys2Proof.Machine.execAtomSwap g w order fetch s
  | .atomCas g w order fetch => Sys2Proof.Machine.execAtomCas g w order fetch s
  | .ctlBr g w => Sys2Proof.Machine.execCtlBr g w s
  | .ctlBrmz g w => Sys2Proof.Machine.execCtlBrmz g w s
  | .ctlBrany g w => Sys2Proof.Machine.execCtlBrany g w s
  | .ctlBrall g w => Sys2Proof.Machine.execCtlBrall g w s
  | .ctlBri g w => Sys2Proof.Machine.execCtlBri g w s
  | .ctlCall g w => Sys2Proof.Machine.execCtlCall g w s
  | .ctlExit g w => Sys2Proof.Machine.execCtlExit g w s
  | .ctlTrap g w => Sys2Proof.Machine.execCtlTrap g w s
  | .ctlNop g w => Sys2Proof.Machine.execCtlNop g w s
  | .ctlMif g w => Sys2Proof.Machine.execCtlMif g w s
  | .ctlMelse g w => Sys2Proof.Machine.execCtlMelse g w s
  | .ctlMend g w => Sys2Proof.Machine.execCtlMend g w s
  | .ctlMloop g w => Sys2Proof.Machine.execCtlMloop g w s
  | .ctlMbrk g w => Sys2Proof.Machine.execCtlMbrk g w s
  | .spcRdsr g w => Sys2Proof.Machine.execSpcRdsr g w s
  | .spcShfl g w => Sys2Proof.Machine.execSpcShfl g w s
  | .spcVoteany g w => Sys2Proof.Machine.execSpcVoteany g w s
  | .spcVoteall g w => Sys2Proof.Machine.execSpcVoteall g w s
  | .spcBallot g w => Sys2Proof.Machine.execSpcBallot g w s
  | .spcPhase g w => Sys2Proof.Machine.execSpcPhase g w s
  | .fyResv g w => Sys2Proof.Machine.execFyResv g w s
  | .fyPush g w => Sys2Proof.Machine.execFyPush g w s
  | .fyPop g w => Sys2Proof.Machine.execFyPop g w s
  | .fyFree g w => Sys2Proof.Machine.execFyFree g w s
  | .fyClose g w => Sys2Proof.Machine.execFyClose g w s
  | .mxMma g w => Sys2Proof.Machine.execMxMma g w s
  | .mxDrain g w => Sys2Proof.Machine.execMxDrain g w s
  | .mxLdacc g w => Sys2Proof.Machine.execMxLdacc g w s
  | .matrixEngineStart cl => Sys2Proof.Machine.execMatrixEngineStart cl s
  | .slipPass cl => Sys2Proof.Machine.execSlipPass cl s
  | .vectorEngineStart cl => Sys2Proof.Machine.execVectorEngineStart cl s
  | .vxSetvl g w => Sys2Proof.Machine.execVxSetvl g w s
  | .vxLd g w => Sys2Proof.Machine.execVxLd g w s
  | .vxSt g w => Sys2Proof.Machine.execVxSt g w s
  | .vxBcast g w => Sys2Proof.Machine.execVxBcast g w s
  | .vxAdd g w => Sys2Proof.Machine.execVxAdd g w s
  | .vxSub g w => Sys2Proof.Machine.execVxSub g w s
  | .vxMul g w => Sys2Proof.Machine.execVxMul g w s
  | .vxFma g w => Sys2Proof.Machine.execVxFma g w s
  | .vxMin g w => Sys2Proof.Machine.execVxMin g w s
  | .vxMax g w => Sys2Proof.Machine.execVxMax g w s
  | .vxAbs g w => Sys2Proof.Machine.execVxAbs g w s
  | .vxNeg g w => Sys2Proof.Machine.execVxNeg g w s
  | .vxAnd g w => Sys2Proof.Machine.execVxAnd g w s
  | .vxOr g w => Sys2Proof.Machine.execVxOr g w s
  | .vxXor g w => Sys2Proof.Machine.execVxXor g w s
  | .vxNot g w => Sys2Proof.Machine.execVxNot g w s
  | .vxCvt g w => Sys2Proof.Machine.execVxCvt g w s
  | .vxCmpeq g w => Sys2Proof.Machine.execVxCmpeq g w s
  | .vxCmplt g w => Sys2Proof.Machine.execVxCmplt g w s
  | .vxCmple g w => Sys2Proof.Machine.execVxCmple g w s
  | .vxSel g w => Sys2Proof.Machine.execVxSel g w s
  | .vxMand g w => Sys2Proof.Machine.execVxMand g w s
  | .vxMor g w => Sys2Proof.Machine.execVxMor g w s
  | .vxMxor g w => Sys2Proof.Machine.execVxMxor g w s
  | .vxMnot g w => Sys2Proof.Machine.execVxMnot g w s
  | .vxPerm g w => Sys2Proof.Machine.execVxPerm g w s
  | .vxIota g w => Sys2Proof.Machine.execVxIota g w s
  | .vxRedAdd g w => Sys2Proof.Machine.execVxRedAdd g w s
  | .vxRedProduct g w => Sys2Proof.Machine.execVxRedProduct g w s
  | .vxRedMax g w => Sys2Proof.Machine.execVxRedMax g w s
  | .vxRedMin g w => Sys2Proof.Machine.execVxRedMin g w s
  | .vxRedAnd g w => Sys2Proof.Machine.execVxRedAnd g w s
  | .vxRedOr g w => Sys2Proof.Machine.execVxRedOr g w s
  | .vxRedXor g w => Sys2Proof.Machine.execVxRedXor g w s
  | .vxExp2 g w => Sys2Proof.Machine.execVxExp2 g w s
  | .vxLog2 g w => Sys2Proof.Machine.execVxLog2 g w s
  | .vxRcp g w => Sys2Proof.Machine.execVxRcp g w s
  | .vxRsqrt g w => Sys2Proof.Machine.execVxRsqrt g w s
  | .vxExtr g w => Sys2Proof.Machine.execVxExtr g w s
  | .vxGets g w => Sys2Proof.Machine.execVxGets g w s
  | .vxChld g w => Sys2Proof.Machine.execVxChld g w s
  | .vxChbase g w => Sys2Proof.Machine.execVxChbase g w s
  | .syFence g w => Sys2Proof.Machine.execSyFence g w s
  | .syRel g w => Sys2Proof.Machine.execSyRel g w s
  | .syAcq g w => Sys2Proof.Machine.execSyAcq g w s
  | .syFencec g w => Sys2Proof.Machine.execSyFencec g w s
  | .syTally g w => Sys2Proof.Machine.execSyTally g w s
  | .syTrd g w => Sys2Proof.Machine.execSyTrd g w s
  | .syTadd g w => Sys2Proof.Machine.execSyTadd g w s
  | .tallyWaitTimeout g => Sys2Proof.Machine.execTallyWaitTimeout g s
  | .txLd g w => Sys2Proof.Machine.execTxLd g w s
  | .txSt g w => Sys2Proof.Machine.execTxSt g w s
  | .txLdl g w => Sys2Proof.Machine.execTxLdl g w s
  | .txStl g w => Sys2Proof.Machine.execTxStl g w s
  | .txPut g w => Sys2Proof.Machine.execTxPut g w s
  | .txRedAdd g w => Sys2Proof.Machine.execTxRedAdd g w s
  | .txRedMin g w => Sys2Proof.Machine.execTxRedMin g w s
  | .txRedMax g w => Sys2Proof.Machine.execTxRedMax g w s
  | .txRedAnd g w => Sys2Proof.Machine.execTxRedAnd g w s
  | .txRedOr g w => Sys2Proof.Machine.execTxRedOr g w s
  | .txRedXor g w => Sys2Proof.Machine.execTxRedXor g w s
  | .txDead g w => Sys2Proof.Machine.execTxDead g w s
  | .transferLinePart cl slot => Sys2Proof.Machine.execTransferLinePart cl slot s
  | .l1Fill cl line => Sys2Proof.Machine.execL1Fill cl line s
  | .prefetchFill cl line => Sys2Proof.Machine.execPrefetchFill cl line s
  | .writeBufferAge cl => Sys2Proof.Machine.execWriteBufferAge cl s
  | .streamTrackerExpiry half stream => Sys2Proof.Machine.execStreamTrackerExpiry half stream s
  | .doorbell q via value => Sys2Proof.Machine.execDoorbell q via value s
  | .recordReread q host => Sys2Proof.Machine.execRecordReread q host s
  | .launch q host image => Sys2Proof.Machine.execLaunch q host image s
  | .commandNop q host => Sys2Proof.Machine.execCommandNop q host s
  | .undefinedRecord q host => Sys2Proof.Machine.execUndefinedRecord q host s
  | .qcfgRestart q via value => Sys2Proof.Machine.execQcfgRestart q via value s
  | .kernelCompletion k => Sys2Proof.Machine.execKernelCompletion k s
  | .peerFlushReadDone k ok => Sys2Proof.Machine.execPeerFlushReadDone k ok s
  | .sessionCtlOpen fn => Sys2Proof.Machine.execSessionCtlOpen fn s
  | .sessionCtlReattach fn => Sys2Proof.Machine.execSessionCtlReattach fn s
  | .sessionCtlClose fn => Sys2Proof.Machine.execSessionCtlClose fn s
  | .sessionCtlOpenForce fn => Sys2Proof.Machine.execSessionCtlOpenForce fn s
  | .bar4Read fn off len => Sys2Proof.Machine.execBar4Read fn off len s
  | .bar4Write fn off data => Sys2Proof.Machine.execBar4Write fn off data s
  | .atomicopFetchadd fn off size operand => Sys2Proof.Machine.execAtomicopFetchadd fn off size operand s
  | .atomicopSwap fn off size operand => Sys2Proof.Machine.execAtomicopSwap fn off size operand s
  | .atomicopCas fn off size operand compare => Sys2Proof.Machine.execAtomicopCas fn off size operand compare s
  | .configurationRequest fn off access => Sys2Proof.Machine.execConfigurationRequest fn off access s
  | .hostWindowReadCompletion port tag result => Sys2Proof.Machine.execHostWindowReadCompletion port tag result s
  | .completionTimeout port tag => Sys2Proof.Machine.execCompletionTimeout port tag s
  | .hostReset port linkLost => Sys2Proof.Machine.execHostReset port linkLost s
  | .flr fn => Sys2Proof.Machine.execFlr fn s
  | .rootPortInboundRequest port req => Sys2Proof.Machine.execRootPortInboundRequest port req s
  | .rootPortRetrain port trained => Sys2Proof.Machine.execRootPortRetrain port trained s
  | .atsTranslationCompletion fn tag c => Sys2Proof.Machine.execAtsTranslationCompletion fn tag c s
  | .atsInvalidationRequest fn itag va log2size => Sys2Proof.Machine.execAtsInvalidationRequest fn itag va log2size s
  | .prgResponseSuccess fn tag => Sys2Proof.Machine.execPrgResponseSuccess fn tag s
  | .prgResponseInvalidRequest fn tag => Sys2Proof.Machine.execPrgResponseInvalidRequest fn tag s
  | .prgResponseFailure fn tag => Sys2Proof.Machine.execPrgResponseFailure fn tag s
  | .priResponseTimeout fn tag => Sys2Proof.Machine.execPriResponseTimeout fn tag s
  | .intsend value => Sys2Proof.Machine.execIntsend value s
  | .claim hart => Sys2Proof.Machine.execClaim hart s
  | .hartStart writer hart addr => Sys2Proof.Machine.execHartStart writer hart addr s
  | .invCtlRange p width value => Sys2Proof.Machine.execInvCtlRange p width value s
  | .invCtlContext p width value => Sys2Proof.Machine.execInvCtlContext p width value s
  | .invCtlPartition p width value => Sys2Proof.Machine.execInvCtlPartition p width value s
  | .invalidationComplete p => Sys2Proof.Machine.execInvalidationComplete p s
  | .resumeRetry p width value => Sys2Proof.Machine.execResumeRetry p width value s
  | .resumeFail p width value => Sys2Proof.Machine.execResumeFail p width value s
  | .fqLostRead p k off width => Sys2Proof.Machine.execFqLostRead p k off width s
  | .tallyAdd die off width value => Sys2Proof.Machine.execTallyAdd die off width value s
  | .registerWrite via addr width value => Sys2Proof.Machine.execRegisterWrite via addr width value s
  | .cohRds a addr mask => Sys2Proof.Machine.execCohRds a addr mask s
  | .cohRdu a addr mask => Sys2Proof.Machine.execCohRdu a addr mask s
  | .cohUpg a addr => Sys2Proof.Machine.execCohUpg a addr s
  | .cohWbk a addr => Sys2Proof.Machine.execCohWbk a addr s
  | .cohEvc a addr => Sys2Proof.Machine.execCohEvc a addr s
  | .cohRdn a addr mask => Sys2Proof.Machine.execCohRdn a addr mask s
  | .cohWrn a addr bytes data tally => Sys2Proof.Machine.execCohWrn a addr bytes data tally s
  | .cohDead a addr => Sys2Proof.Machine.execCohDead a addr s
  | .cohAddop a addr arg operand compare => Sys2Proof.Machine.execCohAddop a addr arg operand compare s
  | .cohSnps a addr => Sys2Proof.Machine.execCohSnps a addr s
  | .cohSnpu a addr => Sys2Proof.Machine.execCohSnpu a addr s
  | .cohSnpi a addr => Sys2Proof.Machine.execCohSnpi a addr s
  | .cohSnpd a addr => Sys2Proof.Machine.execCohSnpd a addr s
  | .cohSnpc a addr => Sys2Proof.Machine.execCohSnpc a addr s
  | .cohSrsp a addr => Sys2Proof.Machine.execCohSrsp a addr s
  | .cohCmp addr => Sys2Proof.Machine.execCohCmp addr s
  | .cohCmpack addr => Sys2Proof.Machine.execCohCmpack addr s
  | .cohRetry a addr => Sys2Proof.Machine.execCohRetry a addr s
  | .cohCmpe addr status => Sys2Proof.Machine.execCohCmpe addr status s
  | .cohData addr => Sys2Proof.Machine.execCohData addr s
  | .cohWbd a addr => Sys2Proof.Machine.execCohWbd a addr s
  | .agentDeath home a => Sys2Proof.Machine.execAgentDeath home a s
  | .directoryScan home => Sys2Proof.Machine.execDirectoryScan home s
  | .ncrRegisterRead src addr width => Sys2Proof.Machine.execNcrRegisterRead src addr width s
  | .ncrRegisterWrite src addr width value => Sys2Proof.Machine.execNcrRegisterWrite src addr width value s
  | .ncrScratchpadWrite cl off data commit => Sys2Proof.Machine.execNcrScratchpadWrite cl off data commit s
  | .ncrInterrupt src source => Sys2Proof.Machine.execNcrInterrupt src source s
  | .ncp die txid data => Sys2Proof.Machine.execNcp die txid data s
  | .telemetryRecord die t => Sys2Proof.Machine.execTelemetryRecord die t s
  | .powerManagerCommand die heartbeat => Sys2Proof.Machine.execPowerManagerCommand die heartbeat s
  | .linkFrd d dst msg => Sys2Proof.Machine.execLinkFrd d dst msg s
  | .dataFlit d flit vcs => Sys2Proof.Machine.execDataFlit d flit vcs s
  | .nullFlit d flit => Sys2Proof.Machine.execNullFlit d flit s
  | .linkNak d flit => Sys2Proof.Machine.execLinkNak d flit s
  | .linkCaps link a b => Sys2Proof.Machine.execLinkCaps link a b s
  | .creditInit d counts => Sys2Proof.Machine.execCreditInit d counts s
  | .laneCheck d flit => Sys2Proof.Machine.execLaneCheck d flit s
  | .linkRetrain flit => Sys2Proof.Machine.execLinkRetrain flit s
  | .linkDetect link sensed => Sys2Proof.Machine.execLinkDetect link sensed s
  | .linkLock d errors => Sys2Proof.Machine.execLinkLock d errors s
  | .linkDeskew link aligned => Sys2Proof.Machine.execLinkDeskew link aligned s
  | .trainingStateTimeout link => Sys2Proof.Machine.execTrainingStateTimeout link s
  | .replayTimeout due => Sys2Proof.Machine.execReplayTimeout due s
  | .linkAckTimer d => Sys2Proof.Machine.execLinkAckTimer d s
  | .nakAckTimeout d => Sys2Proof.Machine.execNakAckTimeout d s
  | .retrainLimitExpiry link => Sys2Proof.Machine.execRetrainLimitExpiry link s
  | .requestTimeout source txid => Sys2Proof.Machine.execRequestTimeout source txid s
  | .fordEngage d => Sys2Proof.Machine.execFordEngage d s
  | .fordDisengage d => Sys2Proof.Machine.execFordDisengage d s
  | .nctPut port pkt => Sys2Proof.Machine.execNctPut port pkt s
  | .nctGet port pkt => Sys2Proof.Machine.execNctGet port pkt s
  | .nctGetresp port pkt => Sys2Proof.Machine.execNctGetresp port pkt s
  | .nctAtomic port pkt => Sys2Proof.Machine.execNctAtomic port pkt s
  | .nctAtomicresp port pkt => Sys2Proof.Machine.execNctAtomicresp port pkt s
  | .nctReducePut port pkt => Sys2Proof.Machine.execNctReducePut port pkt s
  | .nctTadd port pkt => Sys2Proof.Machine.execNctTadd port pkt s
  | .nctTile port pkt => Sys2Proof.Machine.execNctTile port pkt s
  | .nctCredit port pkt => Sys2Proof.Machine.execNctCredit port pkt s
  | .nctConnect port pkt => Sys2Proof.Machine.execNctConnect port pkt s
  | .nctEnd port pkt => Sys2Proof.Machine.execNctEnd port pkt s
  | .nctAbandon port pkt => Sys2Proof.Machine.execNctAbandon port pkt s
  | .nctAck port pkt => Sys2Proof.Machine.execNctAck port pkt s
  | .nctError port pkt => Sys2Proof.Machine.execNctError port pkt s
  | .nctMgmt port pkt => Sys2Proof.Machine.execNctMgmt port pkt s
  | .nctAckTimer f => Sys2Proof.Machine.execNctAckTimer f s
  | .retransmissionTimeout f => Sys2Proof.Machine.execRetransmissionTimeout f s
  | .operationTimeout f psn => Sys2Proof.Machine.execOperationTimeout f psn s
  | .flowStateExpiry f => Sys2Proof.Machine.execFlowStateExpiry f s
  | .portLinkLoss sp => Sys2Proof.Machine.execPortLinkLoss sp s
  | .portLinkUp sp => Sys2Proof.Machine.execPortLinkUp sp s
  | .portHoldExpiry sp => Sys2Proof.Machine.execPortHoldExpiry sp s
  | .networkLaneRetire lane cause => Sys2Proof.Machine.execNetworkLaneRetire lane cause s
  | .lldpTransmit sp => Sys2Proof.Machine.execLldpTransmit sp s
  | .lldpFrame sp chassis portId => Sys2Proof.Machine.execLldpFrame sp chassis portId s
  | .neighborSolicitation sp target sender => Sys2Proof.Machine.execNeighborSolicitation sp target sender s
  | .routerAdvertisement sp mac => Sys2Proof.Machine.execRouterAdvertisement sp mac s
  | .echoRequest sp dst src data => Sys2Proof.Machine.execEchoRequest sp dst src data s
  | .pauseFrame sp => Sys2Proof.Machine.execPauseFrame sp s
  | .peerCappedExpiry grp => Sys2Proof.Machine.execPeerCappedExpiry grp s
  | .networkReferenceLoss => Sys2Proof.Machine.execNetworkReferenceLoss s
  | .groupStateOpen via grp => Sys2Proof.Machine.execGroupStateOpen via grp s
  | .groupStateClosing via grp => Sys2Proof.Machine.execGroupStateClosing via grp s
  | .groupStateClosed via grp => Sys2Proof.Machine.execGroupStateClosed via grp s
  | .groupClosingDone grp => Sys2Proof.Machine.execGroupClosingDone grp s
  | .keyEntryValid via key word => Sys2Proof.Machine.execKeyEntryValid via key word s
  | .seqGo hub slot width => Sys2Proof.Machine.execSeqGo hub slot width s
  | .scheduleNop hub slot => Sys2Proof.Machine.execScheduleNop hub slot s
  | .schedulePut hub slot => Sys2Proof.Machine.execSchedulePut hub slot s
  | .scheduleReduce hub slot => Sys2Proof.Machine.execScheduleReduce hub slot s
  | .scheduleTadd hub slot => Sys2Proof.Machine.execScheduleTadd hub slot s
  | .scheduleWait hub slot => Sys2Proof.Machine.execScheduleWait hub slot s
  | .pcStatus stack => Sys2Proof.Machine.execPcStatus stack s
  | .repairInfo stack => Sys2Proof.Machine.execRepairInfo stack s
  | .rowRepair stack => Sys2Proof.Machine.execRowRepair stack s
  | .bankRepair stack => Sys2Proof.Machine.execBankRepair stack s
  | .wrapperBypass stack => Sys2Proof.Machine.execWrapperBypass stack s
  | .wrapperInstructionDone stack => Sys2Proof.Machine.execWrapperInstructionDone stack s
  | .wrapperTimeout stack => Sys2Proof.Machine.execWrapperTimeout stack s
  | .patrolScrub addr e => Sys2Proof.Machine.execPatrolScrub addr e s
  | .fillGranule stack e => Sys2Proof.Machine.execFillGranule stack e s
  | .tier2PackageFailure pkg => Sys2Proof.Machine.execTier2PackageFailure pkg s
  | .stackOfflineRequest role value => Sys2Proof.Machine.execStackOfflineRequest role value s
  | .spareSlotFree role sub => Sys2Proof.Machine.execSpareSlotFree role sub s
  | .controlPeriod power => Sys2Proof.Machine.execControlPeriod power s
  | .limiterPeriod half p q => Sys2Proof.Machine.execLimiterPeriod half p q s
  | .pwrAlertAssert => Sys2Proof.Machine.execPwrAlertAssert s
  | .pwrAlertRelease => Sys2Proof.Machine.execPwrAlertRelease s
  | .alertHoldExpiry => Sys2Proof.Machine.execAlertHoldExpiry s
  | .telemetryMissing die => Sys2Proof.Machine.execTelemetryMissing die s
  | .dieFallback die => Sys2Proof.Machine.execDieFallback die s
  | .managerTakeover => Sys2Proof.Machine.execManagerTakeover s
  | .capDisengage p => Sys2Proof.Machine.execCapDisengage p s
  | .thermalSample part deciC => Sys2Proof.Machine.execThermalSample part deciC s
  | .pwrEnAssert => Sys2Proof.Machine.execPwrEnAssert s
  | .pwrEnDeassert tenMs => Sys2Proof.Machine.execPwrEnDeassert tenMs s
  | .railsInTolerance => Sys2Proof.Machine.execRailsInTolerance s
  | .modResetAssert => Sys2Proof.Machine.execModResetAssert s
  | .modResetRelease => Sys2Proof.Machine.execModResetRelease s
  | .undervoltageShutdown => Sys2Proof.Machine.execUndervoltageShutdown s
  | .overvoltageShutdown => Sys2Proof.Machine.execOvervoltageShutdown s
  | .inputRestart => Sys2Proof.Machine.execInputRestart s
  | .oscillatorLoss => Sys2Proof.Machine.execOscillatorLoss s
  | .resetRequest b => Sys2Proof.Machine.execResetRequest b s
  | .flushTimeout b => Sys2Proof.Machine.execFlushTimeout b s
  | .trstAssert => Sys2Proof.Machine.execTrstAssert s
  | .tapIdcode die => Sys2Proof.Machine.execTapIdcode die s
  | .tapSamplePreload die cells => Sys2Proof.Machine.execTapSamplePreload die cells s
  | .tapExtest die cells => Sys2Proof.Machine.execTapExtest die cells s
  | .tapExtestPulse die cells => Sys2Proof.Machine.execTapExtestPulse die cells s
  | .tapExtestTrain die cells => Sys2Proof.Machine.execTapExtestTrain die cells s
  | .tapClamp die => Sys2Proof.Machine.execTapClamp die s
  | .tapHighz die => Sys2Proof.Machine.execTapHighz die s
  | .tapBypass die => Sys2Proof.Machine.execTapBypass die s
  | .bootRom => Sys2Proof.Machine.execBootRom s
  | .bootIdentity pufOk => Sys2Proof.Machine.execBootIdentity pufOk s
  | .bootImage => Sys2Proof.Machine.execBootImage s
  | .bootHandover => Sys2Proof.Machine.execBootHandover s
  | .bootPackageLinks links companion => Sys2Proof.Machine.execBootPackageLinks links companion s
  | .bootMemory stacksFailed packagesFailed => Sys2Proof.Machine.execBootMemory stacksFailed packagesFailed s
  | .bootProcessorDies failed => Sys2Proof.Machine.execBootProcessorDies failed s
  | .bootHostPorts => Sys2Proof.Machine.execBootHostPorts s
  | .bootNetwork failed => Sys2Proof.Machine.execBootNetwork failed s
  | .memoryClearingDone ms => Sys2Proof.Machine.execMemoryClearingDone ms s
  | .recGo width => Sys2Proof.Machine.execRecGo width s
  | .recoveryChunkResponse chunk data => Sys2Proof.Machine.execRecoveryChunkResponse chunk data s
  | .recoveryRetry => Sys2Proof.Machine.execRecoveryRetry s
  | .bootNow role p value => Sys2Proof.Machine.execBootNow role p value s
  | .dictRead ch frame => Sys2Proof.Machine.execDictRead ch frame s
  | .dictWriteFrame ch frame => Sys2Proof.Machine.execDictWriteFrame ch frame s
  | .dictDescribe ch frame => Sys2Proof.Machine.execDictDescribe ch frame s
  | .dictNext ch frame => Sys2Proof.Machine.execDictNext ch frame s
  | .sessionOpen ch frame => Sys2Proof.Machine.execSessionOpen ch frame s
  | .sessionClose ch frame => Sys2Proof.Machine.execSessionClose ch frame s
  | .sessionIdleTimeout id => Sys2Proof.Machine.execSessionIdleTimeout id s
  | .resourceHoldExpiry row => Sys2Proof.Machine.execResourceHoldExpiry row s
  | .storeCommand role value => Sys2Proof.Machine.execStoreCommand role value s
  | .storeSaveDone ok => Sys2Proof.Machine.execStoreSaveDone ok s
  | .restoreCommand role value => Sys2Proof.Machine.execRestoreCommand role value s
  | .nodeRecordWrite => Sys2Proof.Machine.execNodeRecordWrite s
  | .slackWater role p step => Sys2Proof.Machine.execSlackWater role p step s
  | .twinFlip p => Sys2Proof.Machine.execTwinFlip p s
  | .hubDrainEnd twin ok ms => Sys2Proof.Machine.execHubDrainEnd twin ok ms s
  | .drainDone role twin => Sys2Proof.Machine.execDrainDone role twin s
  | .drainDoneFailed role twin => Sys2Proof.Machine.execDrainDoneFailed role twin s
  | .groupImageAddress role p addr => Sys2Proof.Machine.execGroupImageAddress role p addr s
  | .groupImageDone p => Sys2Proof.Machine.execGroupImageDone p s
  | .directoryProbeAddress role src addr => Sys2Proof.Machine.execDirectoryProbeAddress role src addr s
  | .directoryProbeDone => Sys2Proof.Machine.execDirectoryProbeDone s
  | .partitionSailing role p value => Sys2Proof.Machine.execPartitionSailing role p value s
  | .recoveryRequest role value => Sys2Proof.Machine.execRecoveryRequest role value s
  | .updateFromAddress role addr => Sys2Proof.Machine.execUpdateFromAddress role addr s
  | .updateFromNetwork role value => Sys2Proof.Machine.execUpdateFromNetwork role value s
  | .updateDone image => Sys2Proof.Machine.execUpdateDone image s
  | .commitFloor role value => Sys2Proof.Machine.execCommitFloor role value s
  | .ownerKeyHashEnrol role hash => Sys2Proof.Machine.execOwnerKeyHashEnrol role hash s
  | .releaseOwnership role value => Sys2Proof.Machine.execReleaseOwnership role value s
  | .ownerRoleKey role key => Sys2Proof.Machine.execOwnerRoleKey role key s
  | .operatorRoleKey role key => Sys2Proof.Machine.execOperatorRoleKey role key s
  | .spdmGetVersion t req => Sys2Proof.Machine.execSpdmGetVersion t req s
  | .spdmGetCapabilities t req => Sys2Proof.Machine.execSpdmGetCapabilities t req s
  | .spdmNegotiateAlgorithms t req => Sys2Proof.Machine.execSpdmNegotiateAlgorithms t req s
  | .spdmGetDigests t req => Sys2Proof.Machine.execSpdmGetDigests t req s
  | .spdmGetCertificate t req => Sys2Proof.Machine.execSpdmGetCertificate t req s
  | .spdmChallenge t req => Sys2Proof.Machine.execSpdmChallenge t req s
  | .spdmGetMeasurements t req => Sys2Proof.Machine.execSpdmGetMeasurements t req s
  | .spdmChunkGet t req => Sys2Proof.Machine.execSpdmChunkGet t req s
  | .spdmChunkSend t req => Sys2Proof.Machine.execSpdmChunkSend t req s
  | .spdmUnsupported t req => Sys2Proof.Machine.execSpdmUnsupported t req s
  | .coreAccess hart a => Sys2Proof.Machine.execCoreAccess hart a s
  | .coreFence hart pred succ => Sys2Proof.Machine.execCoreFence hart pred succ s
  | .cboFlush hart op addr => Sys2Proof.Machine.execCboFlush hart op addr s
  | .stimecmpMatch hart => Sys2Proof.Machine.execStimecmpMatch hart s
  | .inEndTimeout k ferry => Sys2Proof.Machine.execInEndTimeout k ferry s
  | .pseudoChannelHardFailure pc => Sys2Proof.Machine.execPseudoChannelHardFailure pc s
  | .recoveryImageWritten readback => Sys2Proof.Machine.execRecoveryImageWritten readback s
  | .pcieLinkUp port rate lanes => Sys2Proof.Machine.execPcieLinkUp port rate lanes s
  | .trstRelease => Sys2Proof.Machine.execTrstRelease s
  | .oscillatorReturn => Sys2Proof.Machine.execOscillatorReturn s
  | .networkReferenceReturn => Sys2Proof.Machine.execNetworkReferenceReturn s
  | .stackZeroed stack => Sys2Proof.Machine.execStackZeroed stack s
  | .nonCoherentTagStateRelease => Sys2Proof.Machine.execNonCoherentTagStateRelease s
  | .flushAcknowledgement b => Sys2Proof.Machine.execFlushAcknowledgement b s
  | .osImageLoaded p image => Sys2Proof.Machine.execOsImageLoaded p image s

end Sys2Proof.Machine
end

