-- ==== Sys2Proof/Safety.lean ====
section
/-! DEFINITION. What counts as a safe step and a safe run of the node. -/
namespace Sys2Proof.Machine

/-- A step that answers a next state: neither a fault nor a refusal. -/
def stepSafe (s : State) : Prop := ∃ t, step s = .next t

/-- Every one of the next `n` steps from `s` answers a next state. -/
def runSafe : Nat → State → Prop
  | 0, _ => True
  | n + 1, s => ∃ t, step s = .next t ∧ runSafe n t

/-- The order of the power sequence (R425, R446 to R448): node reset is released only with PGOOD,
MOD_RESET_N deasserted and the oscillator running; rails rise or stay in tolerance only while PWR_EN is
asserted, the input is in range and no trip is latched; and PGOOD waits for the rails. -/
def PowerOrder (p : Pins) : Prop :=
  (p.nodeReset = false → p.pgood = true ∧ p.modResetN = true ∧ p.oscillator = true) ∧
  (p.pgood = true ∨ p.railsRising = true → p.pwrEn = true ∧ p.inputInRange = true ∧ p.tripLatched = false) ∧
  (p.pgood = true → p.railsRising = false)

/-! ### Words the statements about instructions share -/

/-- The instruction `w` of class `cls` and operation `op` passes every check that comes before its
execution (R70, R73, R78): it is the group's turn, the fetch at the program counter is granted and leaves
`t`, the encoding is defined, every register it names is one the group has, and no
on-die array holds an error (R365). -/
structure Passes (s : State) (id : GroupId) (cls op : Nat) (w : Fields) (sig : Sig) (g : Group) (kn : Kernel)
    (t : State) : Prop where
  turn : s.issuable (gkey id) (w.word cls op) = some (g, kn)
  fetched : ∃ pa b x, s.fetchCheck (gkey id) g kn = (t, .ok pa b x)
  legal : sig.illegal w = false
  inRange : sig.range w g = none
  sound : t.mem.arrays = []

/-- The group after an instruction that changes lane registers and sticky flags alone: the registers
are `regs`, the flags `fl`, the program counter moves on by 8, and nothing else of the group changes. -/
def Group.stepped (g : Group) (regs : Sparse W32) (fl : Flags) : Group :=
  { g with regs := regs, flags := fl, pc := g.pc + 8, issued := g.issued + 1, wait := .ready }

/-- An instruction ran: every active lane's RD (the pair RD, RD + 1 where `wd`) holds the lane's value,
every other register of every lane holds what it held, each lane's flags are ORed into the sticky flags,
the group moves on, and nothing else of the node has changed since the fetch. -/
def LaneResult (o : Answer) (t : State) (id : GroupId) (g : Group) (rd : Nat) (wd : Bool)
    (v : Nat → Nat × Flags) : Prop :=
  ∃ regs, o = .next (t.setGroup (gkey id) (g.stepped regs (g.lanes.foldl (fun f l => f ||| (v l).2) g.flags))) ∧
    ∀ l < 32, ∀ r < 256, sgetD regs (256 * l + r) 0 =
      if g.active.getLsbD l = true ∧ r = rd then BitVec.ofNat 32 (v l).1
      else if g.active.getLsbD l = true ∧ wd = true ∧ r = rd + 1 then BitVec.ofNat 32 ((v l).1 / 2 ^ 32)
      else sgetD g.regs (256 * l + r) 0

/-- Group `gk` is now `g`, and every other group is what it was. -/
def GroupNow (u t : State) (gk : Nat) (g : Group) : Prop :=
  u.group? gk = some g ∧ ∀ k, k ≠ gk → u.group? k = t.group? k

/-- Cluster `c` is now `x`, and every other cluster is what it was. -/
def ClusterNow (u t : State) (c : Nat) (x : Cluster) : Prop :=
  u.cluster c = x ∧ ∀ k, k ≠ c → u.cluster k = t.cluster k

/-- Every active lane's RD (the pair where `wd`) holds the lane's value and every other register of every
lane what it held. -/
def LaneRegs (regs : Sparse W32) (g : Group) (rd : Nat) (wd : Bool) (v : Nat → Nat) : Prop :=
  ∀ l < 32, ∀ r < 256, sgetD regs (256 * l + r) 0 =
    if g.active.getLsbD l = true ∧ r = rd then BitVec.ofNat 32 (v l)
    else if g.active.getLsbD l = true ∧ wd = true ∧ r = rd + 1 then BitVec.ofNat 32 (v l / 2 ^ 32)
    else sgetD g.regs (256 * l + r) 0

/-- The last of the group's active lanes, in rising order, whose `n` bytes from `at_ l` include `a`. -/
def Group.lastAt (g : Group) (at_ : Nat → Nat) (n a : Nat) : Option Nat :=
  g.lanes.reverse.find? fun l => decide (at_ l ≤ a) && decide (a < at_ l + n)

/-- The byte of address `a` that the write buffer holds, if it holds one (R160). -/
def Cluster.buffered (c : Cluster) (a : Nat) : Option Byte :=
  (c.wb.find? fun e => e.sector = a / 32).bind fun e =>
    if e.mask.getLsbD (a % 32) then some (BitVec.ofNat 8 (e.data.toNat >>> (8 * (a % 32)))) else none

/-- An L1 with at most eight lines of each set and no line twice (R155). -/
def Cluster.l1Fits (c : Cluster) : Prop :=
  (c.l1.map (·.line)).Nodup ∧
  ∀ n, (c.l1.filter fun x => x.line / 128 % (c.l1size / 1024) = n).length ≤ 8

/-- The line of an address as the L1 holds it. -/
def Cluster.l1At (c : Cluster) (pa : Nat) : Option LineData := (c.l1.find? fun x => x.line = lineOf pa).map (·.data)


/-- The operation code of a MEM atomic (R219). -/
def atomicCode (order : BitVec 2) (fetch : Bool) (op : Nat) : Nat := 64 + 16 * order.toNat + 8 * b2n fetch + op
/-- The operand form of a MEM atomic (R219). -/
def atomicSig (w : Fields) (order : BitVec 2) (op : Nat) : Sig :=
  let o : Opnd := if adderSize w.ty = 8 then .p else .r
  { legal := w.ri && w.ty < 8 && w.hint = 0 && !w.space && (if order = 0 then w.scope = 0 else w.scope ≤ 4)
    rd := o, rs1 := .p
    extra := if op = 7 then [(o, w.rd.toNat + if adderSize w.ty = 8 then 2 else 1)] else [] }


/-- The pair RD of every lane of the launch mask holds `v`; every other register what it held (R77). -/
def LaunchRegs (regs : Sparse W32) (g : Group) (rd v : Nat) : Prop :=
  ∀ l < 32, ∀ r < 256, sgetD regs (256 * l + r) 0 =
    if g.launch.getLsbD l = true ∧ r = rd then BitVec.ofNat 32 v
    else if g.launch.getLsbD l = true ∧ r = rd + 1 then BitVec.ofNat 32 (v / 2 ^ 32)
    else sgetD g.regs (256 * l + r) 0

/-- Kernel `k` is now `x`, and every other kernel is what it was. -/
def KernelNow (u t : State) (k : Nat) (x : Kernel) : Prop :=
  u.kernel? k = some x ∧ ∀ j, j ≠ k → u.kernel? j = t.kernel? j

/-- The queues `qs` of ferry `fi` change by `f`, and every other queue and everything else of the kernel stays. -/
def QueuesChanged (kn' kn : Kernel) (fi : Nat) (qs : List Nat) (f : FerryQueue → FerryQueue) : Prop :=
  (∀ q ∈ qs, kn'.fq fi q = f (kn.fq fi q)) ∧ (∀ k, (∀ q ∈ qs, k ≠ ferryKey fi q) → sget? k kn'.ferries = sget? k kn.ferries) ∧
  kn' = { kn with ferries := kn'.ferries }



end Sys2Proof.Machine
end

