-- ==== Sys2Proof/Certificates/Slice0/Obligations.lean ====
section
/-! DEFINITION. The statements: what each command of the table does, what every step keeps, what reset leaves. -/
open Sys2Proof Sys2Proof.Machine

/-- R60, R64, R65: addition, subtraction and the bitwise operations of class INT, for every active lane, in the RRR form
and with IMM24 sign-extended (arithmetic) or zero-extended (logic); R77 leaves inactive lanes. Shifts and rotates by
the low bits of one 32-bit register or of IMM24; copies, the high immediate, leading zeros and set bits. The low and
high halves of the product, and quotient and remainder with their corners: division by zero gives all ones and the
dividend, the most negative value by −1 gives itself and 0. -/
def Obligations.IntegerOperations : Prop :=
  (∀ (s t : State) (id : GroupId) (w : Fields) (g : Group) (kn : Kernel),
     let n := intWidth w.ty
     let a := fun l => BitVec.ofNat n (g.get l w.rs1.toNat (wide w.ty))
     let b := fun l => if w.ri then BitVec.ofInt n w.imm else BitVec.ofNat n (g.get l w.rs2 (wide w.ty))
     let u := fun l => if w.ri then BitVec.ofNat n w.immU else BitVec.ofNat n (g.get l w.rs2 (wide w.ty))
     let two := fun (c : Instr) (op : Nat) (v : Nat → BitVec n) =>
       Passes s id 0 op w (intSig w true true true true) g kn t →
         LaneResult (exec c s) t id g w.rd.toNat (wide w.ty) fun l => ((v l).toNat, 0)
     two (.intAdd id w) 0x01 (fun l => a l + b l) ∧ two (.intSub id w) 0x02 (fun l => a l - b l) ∧
     two (.intAnd id w) 0x03 (fun l => a l &&& u l) ∧ two (.intOr id w) 0x04 (fun l => a l ||| u l) ∧
     two (.intXor id w) 0x05 (fun l => a l ^^^ u l) ∧
     (Passes s id 0 0x06 w (intSig w true false true false) g kn t →
       LaneResult (exec (.intNot id w) s) t id g w.rd.toNat (wide w.ty) fun l => ((~~~ a l).toNat, 0))) ∧
  (∀ (s t : State) (id : GroupId) (w : Fields) (g : Group) (kn : Kernel),
     let n := intWidth w.ty
     let a := fun l => BitVec.ofNat n (g.get l w.rs1.toNat (wide w.ty))
     let c := fun l => (if w.ri then w.immU else g.reg l w.rs2) % n
     let shift := fun (i : Instr) (op : Nat) (v : Nat → BitVec n) =>
       Passes s id 0 op w { intSig w true true true false with rs2 := .r } g kn t →
         LaneResult (exec i s) t id g w.rd.toNat (wide w.ty) fun l => ((v l).toNat, 0)
     let one := fun (i : Instr) (op : Nat) (v : Nat → Nat) =>
       Passes s id 0 op w (intSig w true false true false) g kn t →
         LaneResult (exec i s) t id g w.rd.toNat (wide w.ty) fun l => (v l, 0)
     shift (.intShl id w) 0x07 (fun l => a l <<< c l) ∧ shift (.intShr id w) 0x08 (fun l => a l >>> c l) ∧
     shift (.intSra id w) 0x09 (fun l => (a l).sshiftRight (c l)) ∧
     shift (.intRot id w) 0x0A (fun l => (a l).rotateLeft (c l)) ∧
     (Passes s id 0 0x0B w (intSig w true true (!w.ri) false) g kn t →
       LaneResult (exec (.intMov id w) s) t id g w.rd.toNat (wide w.ty) fun l =>
         ((if w.ri then BitVec.ofInt n w.imm else a l).toNat, 0)) ∧
     (Passes s id 0 0x0C w { intSig w false true false false with
         legal := (intSig w false true false false).legal && w.ty ≤ 1 && w.immU < 65536 } g kn t →
       LaneResult (exec (.intLih id w) s) t id g w.rd.toNat false fun _ => ((BitVec.ofNat 32 w.immU <<< 16).toNat, 0)) ∧
     one (.intClz id w) 0x0D (fun l => (a l).clz.toNat) ∧
     one (.intPopc id w) 0x0E (fun l => (List.range n).countP fun i => (a l).getLsbD i)) ∧
  (∀ (s t : State) (id : GroupId) (w : Fields) (g : Group) (kn : Kernel),
     let n := intWidth w.ty
     let a := fun l => BitVec.ofNat n (g.get l w.rs1.toNat (wide w.ty))
     let b := fun l => if w.ri then BitVec.ofInt n w.imm else BitVec.ofNat n (g.get l w.rs2 (wide w.ty))
     let signed := w.ty = 0 ∨ w.ty = 2
     let op := fun (i : Instr) (op : Nat) (v : Nat → BitVec n) =>
       Passes s id 1 op w (intSig w true true true true) g kn t →
         LaneResult (exec i s) t id g w.rd.toNat (wide w.ty) fun l => ((v l).toNat, 0)
     op (.imdMul id w) 0x01 (fun l => a l * b l) ∧
     op (.imdMulhi id w) 0x02 (fun l =>
       if signed then (((a l).signExtend (2 * n) * (b l).signExtend (2 * n)).extractLsb' n n)
       else (((a l).setWidth (2 * n) * (b l).setWidth (2 * n)).extractLsb' n n)) ∧
     op (.imdDiv id w) 0x03 (fun l =>
       if b l = 0 then BitVec.allOnes n else if signed then (a l).sdiv (b l) else (a l).udiv (b l)) ∧
     op (.imdRem id w) 0x04 (fun l =>
       if b l = 0 then a l else if signed then (a l).srem (b l) else (a l).umod (b l)))

/-- R64, R87, R93: the floating-point operations of classes F32 and F64 on every active lane, rounded once, with the
lanes' flags ORed into the group's sticky flags. ABS and NEG change the sign of a number, give the canonical NaN
with the operand's sign, and with FLUSH replace a subnormal by zero (R85, R92; the model's reading of R64: log 14). -/
def Obligations.FloatOperations : Prop :=
  ∀ (s t : State) (id : GroupId) (w : Fields) (g : Group) (kn : Kernel),
    let op := fun (dbl : Bool) (c : Instr) (op : Nat) (two three : Bool) (v : Nat → Nat → Nat → Nat × Flags) =>
      Passes s id (if dbl then 3 else 2) op w (floatSig w (if dbl then 5 else 4) two three) g kn t →
        LaneResult (exec c s) t id g w.rd.toNat dbl fun l =>
          v (g.get l w.rs1.toNat dbl) (g.get l w.rs2 dbl) (g.get l w.rs3 dbl)
    let f := Fmt.fp32
    let d := Fmt.fp64
    let z := kn.flush
    let signed := fun (f : Fmt) (v : Nat → Nat) (a : Nat) =>
      if (f.decode a).isNan then (f.pack (f.decode a).neg? f.canonNan, (0 : Flags))
      else if z && f.isSubnormal a then (v (if (f.decode a).neg? then 2 ^ (f.width - 1) else 0), fSubflush) else (v a, 0)
    op false (.f32Add id w) 1 true false (fun a b _ => f.add z a b) ∧
    op false (.f32Sub id w) 2 true false (fun a b _ => f.sub z a b) ∧
    op false (.f32Mul id w) 3 true false (fun a b _ => f.mul z a b) ∧
    op false (.f32Fma id w) 4 true true (fun a b c => f.fma z a b c) ∧
    op false (.f32Min id w) 5 true false (fun a b _ => f.minMax z false a b) ∧
    op false (.f32Max id w) 6 true false (fun a b _ => f.minMax z true a b) ∧
    op false (.f32Abs id w) 7 false false (fun a _ _ => signed f (fun x => (BitVec.ofNat 32 x &&& 0x7FFFFFFF#32).toNat) a) ∧
    op false (.f32Neg id w) 8 false false (fun a _ _ => signed f (fun x => (BitVec.ofNat 32 x ^^^ 0x80000000#32).toNat) a) ∧
    op false (.f32Div id w) 9 true false (fun a b _ => f.div z a b) ∧
    op false (.f32Sqrt id w) 10 false false (fun a _ _ => f.sqrt z a) ∧
    op true (.f64Add id w) 1 true false (fun a b _ => d.add z a b) ∧
    op true (.f64Sub id w) 2 true false (fun a b _ => d.sub z a b) ∧
    op true (.f64Mul id w) 3 true false (fun a b _ => d.mul z a b) ∧
    op true (.f64Fma id w) 4 true true (fun a b c => d.fma z a b c) ∧
    op true (.f64Min id w) 5 true false (fun a b _ => d.minMax z false a b) ∧
    op true (.f64Max id w) 6 true false (fun a b _ => d.minMax z true a b) ∧
    op true (.f64Abs id w) 7 false false (fun a _ _ => signed d (fun x => (BitVec.ofNat 64 x &&& 0x7FFFFFFFFFFFFFFF#64).toNat) a) ∧
    op true (.f64Neg id w) 8 false false (fun a _ _ => signed d (fun x => (BitVec.ofNat 64 x ^^^ 0x8000000000000000#64).toNat) a) ∧
    op true (.f64Div id w) 9 true false (fun a b _ => d.div z a b) ∧
    op true (.f64Sqrt id w) 10 false false (fun a _ _ => d.sqrt z a)

/-- R84 to R87: what the operations of F32 and F64 give for NaN operands and for the invalid cases. A NaN operand gives
the canonical NaN with the sign of the first NaN in operand order and no flag; 0 × ∞, ∞ − ∞, 0 / 0, ∞ / ∞ and the
square root of a value below −0 give the NaN of sign 0 with INVALID; a finite non-zero value divided by zero gives
an infinity with DIVZERO. a rounding keeps the value nearest to the exact one, and of two equally near the even one;
and a finite value that fp32 or fp64 holds is what its own rounding gives, with no flag. -/
def Obligations.FloatSpecialsAndRounding : Prop :=
  (∀ f : Fmt, (f = .fp32 ∨ f = .fp64) → ∀ (z : Bool) (a b c : Nat),
     let nan := fun x => (f.decode x).isNan
     let neg := fun x => (f.decode x).neg?
     let quiet := fun x => (f.pack (neg x) f.canonNan, (0 : Flags))
     let invalid := (f.pack false f.canonNan, fInvalid)
     let zero := fun x => f.decode x = .fin (neg x) 0 f.qmin
     let inf := fun x => f.decode x = .inf (neg x)
     (nan a → f.add z a b = (quiet a).map id (· ||| (f.read z b).2) ∧ f.sub z a b = (quiet a).map id (· ||| (f.read z b).2) ∧
       f.mul z a b = (quiet a).map id (· ||| (f.read z b).2) ∧ f.div z a b = (quiet a).map id (· ||| (f.read z b).2) ∧
       f.minMax z false a b = (quiet a).map id (· ||| (f.read z b).2) ∧
       f.minMax z true a b = (quiet a).map id (· ||| (f.read z b).2) ∧ f.sqrt z a = quiet a) ∧
     (¬ nan a → nan b → f.add z a b = (quiet b).map id (· ||| (f.read z a).2) ∧
       f.sub z a b = (quiet b).map id (· ||| (f.read z a).2) ∧ f.mul z a b = (quiet b).map id (· ||| (f.read z a).2) ∧
       f.div z a b = (quiet b).map id (· ||| (f.read z a).2) ∧
       f.minMax z false a b = (quiet b).map id (· ||| (f.read z a).2) ∧
       f.minMax z true a b = (quiet b).map id (· ||| (f.read z a).2)) ∧
     (¬ nan a → ¬ nan b → nan c →
       f.fma z a b c = (quiet c).map id (· ||| (f.read z a).2 ||| (f.read z b).2)) ∧
     (zero a → inf b → f.mul z a b = invalid ∧ f.mul z b a = invalid) ∧
     (inf a → inf b → f.div z a b = invalid ∧ (neg a = neg b → f.sub z a b = invalid) ∧
       (neg a ≠ neg b → f.add z a b = invalid)) ∧
     (zero a → zero b → f.div z a b = invalid) ∧
     (neg a = true → ¬ nan a → ¬ zero a → (z && f.isSubnormal a) = false → f.sqrt z a = invalid) ∧
     (¬ nan a → ¬ inf a → ¬ zero a → (z && f.isSubnormal a) = false → zero b →
       f.div z a b = (f.pack (neg a != neg b) (f.emaxField <<< f.mbits), fDivzero))) ∧
  ((∀ m k : Nat, 2 * (rne m k * 2 ^ k) ≤ 2 * m + 2 ^ k ∧ 2 * m ≤ 2 * (rne m k * 2 ^ k) + 2 ^ k ∧
     (2 * (rne m k * 2 ^ k) = 2 * m + 2 ^ k ∨ 2 * m = 2 * (rne m k * 2 ^ k) + 2 ^ k → rne m k % 2 = 0)) ∧
   ∀ f : Fmt, (f = .fp32 ∨ f = .fp64) → ∀ c < 2 ^ f.width, ∀ neg m e,
     f.decode c = .fin neg m e → f.round false neg m e = (c, 0))

/-- R64, R77: the comparisons of every scalar type give 1 or 0 in one register of every active lane, and SEL gives RS1
or RS2 by RS3; integers are compared by TYPE's sign, floats by value, where a NaN makes EQ, LT and LE false and NE
true. -/
def Obligations.CompareAndSelect : Prop :=
  ∀ (s t : State) (id : GroupId) (w : Fields) (g : Group) (kn : Kernel),
    let o := Opnd.ofType w.ty
    let sig : Sig := { legal := w.ty ≤ 5 && w.mod = 0 && (if w.ri then w.ty ≤ 3 else w.aux = 0), rd := .r, rs1 := o, rs2 := o }
    let n := intWidth w.ty
    let a := fun l => BitVec.ofNat n (g.get l w.rs1.toNat (wide w.ty))
    let b := fun l => if w.ri then BitVec.ofInt n w.imm else BitVec.ofNat n (g.get l w.rs2 (wide w.ty))
    let f := if w.ty = 5 then Fmt.fp64 else .fp32
    let x := fun l => f.read kn.flush (a l).toNat
    let y := fun l => f.read kn.flush (b l).toNat
    let number := fun l => !(x l).1.isNan && !(y l).1.isNan
    let cmp := fun (c : Instr) (op : Nat) (ints : BitVec n → BitVec n → Bool) (floats : Nat → Bool) =>
      Passes s id 4 op w sig g kn t →
        LaneResult (exec c s) t id g w.rd.toNat false fun l =>
          if w.ty ≤ 3 then (b2n (ints (a l) (b l)), 0) else (b2n (floats l), (x l).2 ||| (y l).2)
    let signed := w.ty = 0 ∨ w.ty = 2
    cmp (.cmpEq id w) 1 (fun p q => p == q) (fun l => number l && cmpNum (x l).1 (y l).1 == .eq) ∧
    cmp (.cmpNe id w) 2 (fun p q => p != q) (fun l => !(number l && cmpNum (x l).1 (y l).1 == .eq)) ∧
    cmp (.cmpLt id w) 3 (fun p q => if signed then p.slt q else p.ult q)
      (fun l => number l && cmpNum (x l).1 (y l).1 == .lt) ∧
    cmp (.cmpLe id w) 4 (fun p q => if signed then p.sle q else p.ule q)
      (fun l => number l && (cmpNum (x l).1 (y l).1 == .lt || cmpNum (x l).1 (y l).1 == .eq)) ∧
    (Passes s id 4 5 w { legal := w.ty ≤ 5 && w.mod = 0 && !w.ri && w.aux = 0, rd := o, rs1 := o, rs2 := o, rs3 := .r } g kn t →
      LaneResult (exec (.cmpSel id w) s) t id g w.rd.toNat (wide w.ty) fun l =>
        (g.get l (if g.reg l w.rs3 ≠ 0 then w.rs1.toNat else w.rs2) (wide w.ty), 0))

/-- R64, R81, R82, R84, R88, R90: CVT, CVTE and ECVT convert between the scalar type and the type or element format that
AUX names, by the classes of R88 and R89. The corners of conversion to an integer: out of range and infinite values
give the nearest end with OVERFLOW, a NaN gives the end its sign names with INVALID, and a value in range its
rounding. -/
def Obligations.Conversions : Prop :=
  (∀ (s t : State) (id : GroupId) (w : Fields) (g : Group) (kn : Kernel) (src dst : NumType),
     let sig := fun (rd rs1 : Opnd) =>
       ({ legal := w.ty ≤ 5 && w.mod = 0 && !w.ri && w.aux < 16, rd := rd, rs1 := rs1 } : Sig)
     let op := fun (c : Instr) (op : Nat) (rd rs1 : Opnd) =>
       Passes s id 5 op w (sig rd rs1) g kn t →
         LaneResult (exec c s) t id g w.rd.toNat (rd = .p) fun l =>
           convert kn.flush src dst (g.get l w.rs1.toNat (rs1 = .p))
     (scalarType w.aux = some src → scalarType w.ty = some dst →
       op (.cvtCvt id w) 1 (Opnd.ofType w.ty) (Opnd.ofType w.aux)) ∧
     (scalarType w.ty = some src → elemType w.aux = some dst →
       op (.cvtCvte id w) 2 (elemOpnd w.aux) (Opnd.ofType w.ty)) ∧
     (elemType w.aux = some src → scalarType w.ty = some dst →
       op (.cvtEcvt id w) 3 (Opnd.ofType w.ty) (elemOpnd w.aux))) ∧
  (∀ (signed : Bool) (w : Nat), (w = 4 ∨ w = 8 ∨ w = 32 ∨ w = 64) → ∀ (neg : Bool) (m : Nat) (e : Int),
     let lo := intMin signed w
     let hi := intMax signed w
     let v : Int := if neg then -((roundAt m e 0 : Nat) : Int) else ((roundAt m e 0 : Nat) : Int)
     numToInt signed w (.nan neg) = (wrap w (if neg then lo else hi), fInvalid) ∧
     numToInt signed w (.inf neg) = (wrap w (if neg then lo else hi), fOverflow) ∧
     (v < lo → numToInt signed w (.fin neg m e) = (wrap w lo, fOverflow)) ∧
     (hi < v → numToInt signed w (.fin neg m e) = (wrap w hi, fOverflow)) ∧
     (lo ≤ v → v ≤ hi → intValue signed w (numToInt signed w (.fin neg m e)).1 = v ∧ (numToInt signed w (.fin neg m e)).2 = 0))

/-- R64, R66: the loads with SPACE at 1 take their bytes from the cluster's scratchpad, little-endian, with sign or zero
extension to 32 bits; they change the destination alone. The stores with SPACE at 1 write the low bytes of RD to the
cluster's scratchpad, the highest lane last; every other byte of scratchpad, every other cluster and the memory
stay. (A slot of another cluster that the group holds reserved takes its writes elsewhere: R33, log 18.) -/
def Obligations.ScratchpadAccesses : Prop :=
  (∀ (s t : State) (id : GroupId) (w : Fields) (g : Group) (kn : Kernel),
     let c := t.cluster (gcluster (gkey id))
     let load := fun (i : Instr) (op n : Nat) (v : Nat → Nat) =>
       Passes s id 6 op w (memSig w (if n = 8 then .p else .r)) g kn t → w.space = true →
       t.fenced (gkey id) g.issued true false = false →
       (∀ l ∈ g.lanes, g.memOff w l % n = 0 ∧ g.memOff w l + n ≤ 524288 - c.l1size) →
         LaneResult (exec i s) t id g w.rd.toNat (n = 8) fun l => (v (fromLE (readBytes c.spad (g.memOff w l) n)), 0)
     load (.memLd8 id w) 1 1 (fun x => ((BitVec.ofNat 8 x).signExtend 32).toNat) ∧ load (.memLd8u id w) 2 1 (fun x => x) ∧
     load (.memLd16 id w) 3 2 (fun x => ((BitVec.ofNat 16 x).signExtend 32).toNat) ∧
     load (.memLd16u id w) 4 2 (fun x => x) ∧ load (.memLd32 id w) 5 4 (fun x => x) ∧ load (.memLd64 id w) 6 8 (fun x => x)) ∧
  (∀ (s t : State) (id : GroupId) (w : Fields) (g : Group) (kn : Kernel),
     let c := gcluster (gkey id)
     let x := t.cluster c
     let store := fun (i : Instr) (op n : Nat) =>
       Passes s id 6 op w (memSig w (if n = 8 then .p else .r)) g kn t → t.group? (gkey id) = some g → w.space = true →
       t.fenced (gkey id) g.issued false true = false →
       (∀ l ∈ g.lanes, g.memOff w l % n = 0 ∧ g.memOff w l + n ≤ 524288 - x.l1size ∧
         t.spadTargets (gkey id) (g.memOff w l / 256) = [c]) →
         ∃ u spad, exec i s = .next u ∧ GroupNow u t (gkey id) (g.stepped g.regs g.flags) ∧
           ClusterNow u t c { x with spad := spad } ∧
           (∀ a, readByte spad a = match g.lastAt (g.memOff w) n a with
             | some l => BitVec.ofNat 8 (g.storeValue w n l >>> (8 * (a - g.memOff w l)))
             | none => readByte x.spad a) ∧
           u = { t with groups := u.groups, clusters := u.clusters }
     store (.memSt8 id w) 0x09 1 ∧ store (.memSt16 id w) 0x0A 2 ∧ store (.memSt32 id w) 0x0B 4 ∧ store (.memSt64 id w) 0x0C 8)

/-- R66, R155 to R158: a load whose lines the L1 all holds, none of them poisoned in the bytes it reads, writes its
destination and goes on; the L1 keeps every line it held. A load of one line that the cluster does not hold blocks
its group until L1_FILL brings the line: the request takes an entry, and the arriving line writes the destination
and enters the L1. -/
def Obligations.LoadsAndTheL1 : Prop :=
  (∀ (s t v : State) (id : GroupId) (w : Fields) (g : Group) (kn : Kernel) (xs : List LaneXl),
     let c := gcluster (gkey id)
     let load := fun (i : Instr) (op n : Nat) (ext : Nat → Nat) =>
       Passes s id 6 op w (memSig w (if n = 8 then .p else .r)) g kn t → w.space = false →
       t.fenced (gkey id) g.issued true false = false → (∀ l ∈ g.lanes, g.memAddr w l % n = 0) →
       t.translateLanes (gkey id) g kn w 0 = (v, .ok xs) → v.mem.arrays = [] → (v.cluster c).l1Fits →
       (∀ x ∈ xs, x.uncached = false ∧ isRegs x.acc.pa = false ∧ isRegs (lineOf x.acc.loc) = false ∧
         ∃ d, (v.cluster c).l1At x.acc.loc = some d ∧ d.poison.toNat.testBit (x.acc.loc % 128 / 32) = false) →
         ∃ u regs l1 val, exec i s = .next u ∧ GroupNow u v (gkey id) (g.stepped regs g.flags) ∧
           (∀ x ∈ xs, ∀ d, (v.cluster c).l1At x.acc.loc = some d →
             val x.acc.lane = ext (field d.data.toNat (8 * (x.acc.loc % 128)) (8 * n))) ∧
           LaneRegs regs g w.rd.toNat (n = 8) val ∧ ClusterNow u v c { v.cluster c with l1 := l1 } ∧
           (∀ pa, ({ v.cluster c with l1 := l1 } : Cluster).l1At pa = (v.cluster c).l1At pa) ∧
           u = { v with groups := u.groups, clusters := u.clusters }
     load (.memLd8 id w) 1 1 (fun x => ((BitVec.ofNat 8 x).signExtend 32).toNat) ∧ load (.memLd8u id w) 2 1 (fun x => x) ∧
     load (.memLd16 id w) 3 2 (fun x => ((BitVec.ofNat 16 x).signExtend 32).toNat) ∧
     load (.memLd16u id w) 4 2 (fun x => x) ∧ load (.memLd32 id w) 5 4 (fun x => x) ∧ load (.memLd64 id w) 6 8 (fun x => x)) ∧
  (∀ (s t v : State) (id : GroupId) (w : Fields) (g : Group) (kn : Kernel) (xs : List LaneXl) (line : BitVec 48),
     let cl := gcluster (gkey id)
     let c := v.cluster cl
     let b := fun (op n : Nat) (signed : Bool) =>
       ({ word := w.word 6 op, rd := w.rd.toNat, bytes := n, signed := signed, lanes := xs.map (·.acc), need := [line.toNat], got := [], later := [] } : LoadBlock)
     let load := fun (i : Instr) (op n : Nat) (signed : Bool) =>
       Passes s id 6 op w (memSig w (if n = 8 then .p else .r)) g kn t → w.space = false →
       t.fenced (gkey id) g.issued true false = false → (∀ l ∈ g.lanes, g.memAddr w l % n = 0) →
       t.translateLanes (gkey id) g kn w 0 = (v, .ok xs) → v.mem.arrays = [] → xs ≠ [] →
       (∀ x ∈ xs, x.uncached = false ∧ lineOf x.acc.loc = line.toNat) → (∃ st o, window line.toNat = .hbm st o) →
       c.l1size ≠ 0 → c.fills.length < 64 → c.wb = [] → c.l1.all (fun x => x.line ≠ line.toNat) = true →
       c.pf.all (fun x => x.line ≠ line.toNat) = true → c.fills.all (fun x => x.line ≠ line.toNat) = true →
         ∃ u, exec i s = .next u ∧ GroupNow u v (gkey id) { g with wait := .load (b op n signed) } ∧
           ClusterNow u v cl { c with fills := c.fills ++ [{ line := line.toNat, hint := w.hint, owner := some (g.kernel, g.landing) }] } ∧
           u = { v.count 0xA068 1 1 with groups := u.groups, clusters := u.clusters }
     load (.memLd8 id w) 1 1 true ∧ load (.memLd8u id w) 2 1 false ∧ load (.memLd16 id w) 3 2 true ∧
     load (.memLd16u id w) 4 2 false ∧ load (.memLd32 id w) 5 4 false ∧ load (.memLd64 id w) 6 8 false ∧
     (∀ (cf : Fin 512) (op n : Nat) (signed : Bool) (f : Fill) (u : State) (d : LineData),
       cf.val = cl → isRegs line.toNat = false → c.fills.find? (fun f => f.line = line.toNat) = some f → f.keep = true →
       v.takeLine cl line.toNat f.hint f.owner f.uncached f.data f.keepRemote = (u, .data d false false) → d.poison = 0 →
       (u.clusterGroups cl) = [(gkey id, { g with wait := .load (b op n signed) })] → u.group? (gkey id) = some { g with wait := .load (b op n signed) } →
       (∀ x ∈ xs, lineOf x.acc.loc = line.toNat ∧ isRegs x.acc.pa = false) →
         ∃ z g', exec (.l1Fill cf line) v = .next z ∧ GroupNow z u (gkey id) g' ∧
           g' = g.stepped g'.regs g.flags ∧
           g'.regs = (xs.foldl (fun (h : Group) x =>
             let a := field d.data.toNat (8 * (x.acc.loc % 128)) (8 * n)
             h.set x.acc.lane w.rd.toNat (n = 8) (if signed then wrap 32 (sext (8 * n) a) else a)) g).regs ∧
           ClusterNow z u cl ({ u.cluster cl with fills := (u.cluster cl).fills.filter fun f => f.line ≠ line.toNat }.l1Insert { line := line.toNat, data := d }) ∧
           z = { u with groups := z.groups, clusters := z.clusters }))

/-- R66, R159, R160, R163, R208: the stores with SPACE at 0 enter the write buffer, byte by byte, the highest lane last;
memory is not yet written while at most 16 entries are occupied. PF writes no register and never faults on its
address: each line of the active lanes is prefetched once and the group goes on. A prefetch behind a fence that
keeps it back, or whose translation is on its way, is kept and tried again; one that cannot be translated is dropped
and counted; a line of the L1, of the side buffer or on its way is left alone, and a free entry takes a new one. -/
def Obligations.StoresAndPrefetches : Prop :=
  (∀ (s t v : State) (id : GroupId) (w : Fields) (g : Group) (kn : Kernel) (xs : List LaneXl),
     let c := gcluster (gkey id)
     let x := v.cluster c
     let store := fun (i : Instr) (op n : Nat) =>
       Passes s id 6 op w (memSig w (if n = 8 then .p else .r)) g kn t → w.space = false →
       t.fenced (gkey id) g.issued false true = false → (∀ l ∈ g.lanes, g.memAddr w l % n = 0) →
       t.translateLanes (gkey id) g kn w 1 = (v, .ok xs) → (∀ y ∈ xs, y.acc.loc % n = 0) →
       (∀ y ∈ xs, x.inFlight (lineOf y.acc.loc) = false) → x.wb.length + xs.length ≤ 16 →
         ∃ u y, exec i s = .next u ∧ GroupNow u v (gkey id) (g.stepped g.regs g.flags) ∧ ClusterNow u v c y ∧
           (∀ a, y.buffered a =
             match xs.reverse.find? (fun e => decide (e.acc.loc ≤ a) && decide (a < e.acc.loc + n)) with
             | some e => some (BitVec.ofNat 8 (g.storeValue w n e.acc.lane >>> (8 * (a - e.acc.loc))))
             | none => x.buffered a) ∧
           y = { x with wb := y.wb, l1 := y.l1, pf := y.pf } ∧ (y.l1.map (·.line)).Sublist (x.l1.map (·.line)) ∧
           u = { v with groups := u.groups, clusters := u.clusters }
     store (.memSt8 id w) 0x09 1 ∧ store (.memSt16 id w) 0x0A 2 ∧ store (.memSt32 id w) 0x0B 4 ∧ store (.memSt64 id w) 0x0C 8) ∧
  ((∀ (s t : State) (id : GroupId) (w : Fields) (g : Group) (kn : Kernel),
     let one := fun va => ({ group := gkey id, kernel := g.kernel, landing := g.landing, no := g.issued, hint := w.hint, va := va } : PfWait)
     Passes s id 6 0x10 w { memSig w .zero with legal := (memSig w .zero).legal && !w.space } g kn t →
       exec (.memPf id w) s = .next ((((g.lanes.map fun l => g.memAddr w l / 128 * 128).eraseDups.foldl
         (fun s va => s.tryPrefetch (gcluster (gkey id)) (one va)) t)).modGroup (gkey id) fun g => g.stepped g.regs g.flags)) ∧
   ∀ (s : State) (cl : Nat) (p : PfWait) (kn : Kernel), s.kernel? p.kernel = some kn →
     let keep := fun (v : State) => v.setCluster cl { v.cluster cl with
       pfWait := if p ∈ (v.cluster cl).pfWait then (v.cluster cl).pfWait else (v.cluster cl).pfWait ++ [p] }
     let off := fun (v : State) => v.setCluster cl { v.cluster cl with pfWait := (v.cluster cl).pfWait.filter fun x => x ≠ p }
     (s.fenced p.group p.no true false = true → s.tryPrefetch cl p = keep s) ∧
     (s.fenced p.group p.no true false = false →
       (∀ v, s.translate cl kn p.va 0 (prefetchWaiter cl, none) = (v, .wait) → s.tryPrefetch cl p = keep v) ∧
       (∀ v, s.translate cl kn p.va 0 (prefetchWaiter cl, none) = (v, .busy) → s.tryPrefetch cl p = keep (v.count 0x7101 4 1)) ∧
       (∀ v f, s.translate cl kn p.va 0 (prefetchWaiter cl, none) = (v, .fault f) → s.tryPrefetch cl p = (off v).count 0xA068 3 1) ∧
       (∀ v pa pbmt x, s.translate cl kn p.va 0 (prefetchWaiter cl, none) = (v, .ok pa pbmt x) →
         (pbmt ≠ 0 ∨ isRegs pa = true → s.tryPrefetch cl p = off v) ∧
         (pbmt = 0 → isRegs pa = false →
           let c := v.cluster cl
           let line := lineOf (v.location pa)
           let here := c.l1.any (fun y => y.line = line) || c.pf.any (fun y => y.line = line) || c.fills.any (fun y => y.line = line)
           (here = true → s.tryPrefetch cl p = off v) ∧
           (here = false → c.l1size ≠ 0 → c.pf.length = 16 → (∀ y ∈ c.pf, y.data = none) → s.tryPrefetch cl p = (off v).count 0xA068 3 1) ∧
           (here = false → (∃ st o, window line = .hbm st o) → c.wb = [] → c.l1size ≠ 0 → c.pf.length < 16 →
             s.tryPrefetch cl p = v.setCluster cl { c with
               pfWait := c.pfWait.filter fun x => x ≠ p
               pf := c.pf ++ [{ line := line, hint := p.hint, owner := some (p.kernel, p.landing), asked := true, translated := x, by' := some (p.group, p.no) }] })))))

/-- R65, R186, R187, R219 to R221: an atomic of one active lane on node memory. The adders apply its operation; with
FETCH the lane's RD takes the old value; the L1 drops the line; an acquire follows, and a release has first drained
the group's stores. The integer operations of the adders, as bit patterns of the format's width. -/
def Obligations.MemoryAtomics : Prop :=
  (∀ (s t v v1 z : State) (id : GroupId) (w : Fields) (g h : Group) (kn : Kernel) (order : BitVec 2) (fetch : Bool)
     (x : LaneXl) (k old : Nat),
     let gk := gkey id
     let wd : Bool := adderSize w.ty = 8
     let operand := g.get x.acc.lane w.rd.toNat wd % 2 ^ (8 * adderSize w.ty)
     let compare := g.get x.acc.lane (w.rd.toNat + if wd then 2 else 1) wd % 2 ^ (8 * adderSize w.ty)
     let atomic := fun (i : Instr) (op : Nat) =>
       let word := w.word 6 (atomicCode order fetch op)
       let b : AtomicBlock := { lane := x.acc.lane, addr := x.acc.va.toNat, pa := x.acc.pa, loc := x.acc.loc, lanes := [x.acc.lane] }
       Passes s id 6 (atomicCode order fetch op) w (atomicSig w order op) g kn t →
       (∀ l ∈ g.lanes, g.memAddr w l % adderSize w.ty = 0) →
       t.translateLanes gk g kn w 2 = (v, .ok [x]) → g.lanes = [x.acc.lane] → atomicTarget x.acc.pa = none →
       (∀ off, window x.acc.pa ≠ .net off) → v1.keyAddr x.acc.pa = some k →
       adderAllows op w.ty = true →
       (if order.toNat ≥ 2 then v.drainGroup gk else some v) = some v1 → v1.fenced gk g.issued true true = false →
       (order.toNat ≥ 2 → v1.releaseHeldBack gk g w.scope = false) → (v1.cluster (gcluster gk)).wb = [] →
       (v1.setGroup gk { g with wait := .atomics word [b] }).adderAtomic (clusterHalf (gcluster gk)) k op w.ty operand compare
         = some (z, .old old) → z.group? gk = some h → h.halted = false →
         ∃ regs, (if fetch then LaneRegs regs g w.rd.toNat wd (fun _ => old) else regs = g.regs) ∧
           let u := (z.dropL1 (gcluster gk) (lineOf x.acc.loc)).setGroup gk (g.stepped regs g.flags)
           exec i s = .next (if order.toNat % 2 = 1 then u.acquire gk w.scope else u)
     atomic (.atomAdd id w order fetch) 0 ∧ atomic (.atomMin id w order fetch) 1 ∧ atomic (.atomMax id w order fetch) 2 ∧
     atomic (.atomAnd id w order fetch) 3 ∧ atomic (.atomOr id w order fetch) 4 ∧ atomic (.atomXor id w order fetch) 5 ∧
     atomic (.atomSwap id w order fetch) 6 ∧ atomic (.atomCas id w order fetch) 7) ∧
  (∀ (fmt old x cmp : Nat), (fmt = 4 ∨ fmt = 5 ∨ fmt = 6 ∨ fmt = 7) →
     let n := 8 * adderSize fmt
     old < 2 ^ n → x < 2 ^ n → cmp < 2 ^ n →
     let a := BitVec.ofNat n old
     let b := BitVec.ofNat n x
     let r := fun op => BitVec.ofNat n (adderStep op fmt old x cmp).1
     let signed := fmt = 4 ∨ fmt = 5
     (∀ op < 8, (adderStep op fmt old x cmp).1 < 2 ^ n ∧ (adderStep op fmt old x cmp).2 = 0) ∧
     r 0 = a + b ∧ r 1 = (if (if signed then b.slt a else b.ult a) then b else a) ∧
     r 2 = (if (if signed then a.slt b else a.ult b) then b else a) ∧ r 3 = a &&& b ∧ r 4 = a ||| b ∧ r 5 = a ^^^ b ∧
     r 6 = b ∧ r 7 = (if old = cmp then b else a))

/-- R157, R160, R163, R172, R240, R365: what arrives for a cluster or leaves it by itself. A prefetched line that no
load waits for stands in its entry; the oldest write-buffer entry drains, to a host window as one posted write of
its bytes; an unmatched stream tracker is freed. An access meets the errors of the on-die arrays it reads, and none
of them stays: single-bit errors are corrected and counted, except under parity. An L1 or side-buffer line in error
is dropped, a sector of a cache no longer held, in memory poisoned where it was dirty; the holders of a line whose
tag or directory entry is lost hold it no more, and an owner's line is poisoned; a buffered sector is written
poisoned; a scratchpad read names the lowest byte; a drain whose staging SRAM fails is broken; a replay from a
buffer in error retrains the link. How the errors of an array are met is the model's (log 162). -/
def Obligations.ClusterMemoryEvents : Prop :=
  ((∀ (s u : State) (c : Fin 512) (line : BitVec 48) (f : PfEntry) (d : LineData),
     (s.cluster c.val).pf.find? (fun f => f.line = line.toNat && f.data.isNone) = some f → f.keep = true →
     (s.cluster c.val).pfWait = [] → f.asked = true →
     s.takeLine c.val line.toNat f.hint f.owner false f.came f.keepRemote = (u, .data d false false) → u.lineWaiters c.val line.toNat = [] →
       exec (.prefetchFill c line) s = .next (u.setCluster c.val { u.cluster c.val with
         pf := (u.cluster c.val).pf.map fun e => if e.line = line.toNat then { e with data := some d } else e })) ∧
   (∀ (s : State) (c : Fin 512) (e : WbEntry) (r : List WbEntry) (port off : Nat), s.mem.arrays = [] → (s.cluster c.val).wb = e :: r →
     window (32 * e.sector) = .host port off → e.mask = BitVec.allOnes 32 → s.clusterReaches c.val (32 * e.sector) = true →
     s.portOpen port = true →
       exec (.writeBufferAge c) s =
         .next { s.setCluster c.val { s.cluster c.val with wb := r } with
           out := .hostWrite port (s.partVf (s.clusterPart c.val)) off (toLE 32 e.data.toNat) e.translated :: s.out }) ∧
   (∀ (s : State) (c : Fin 512), (s.cluster c.val).wb = [] → exec (.writeBufferAge c) s = .next s) ∧
   (∀ (s : State) (half : Fin 8) (i : Fin 32), exec (.streamTrackerExpiry half i) s =
     .next (s.setAgent half.val { s.agent half.val with trackers := (s.agent half.val).trackers.set i.val none }))) ∧
  ((∀ (s u : State) (kind : ArrayKind) (place cls : Nat) (p : Nat → Bool) (lost : List ArrayUpset),
     let hit := fun (x : ArrayUpset) => x.kind = kind && x.place = place && p x.entry
     s.meetArrays kind place cls p = (u, lost) →
       lost = ((s.mem.arrays.filter hit).filter fun x => x.fatal || kind = .l1) ∧ u.mem.arrays = (s.mem.arrays.filter fun x => !hit x) ∧
       u.mem.cells = s.mem.cells ∧ u.mem.poison = s.mem.poison ∧ u.groups = s.groups ∧ u.clusters = s.clusters ∧ u.agents = s.agents ∧
       (s.mem.arrays.filter hit = [] → u = s) ∧
       ∀ x, s.mem.arrays.filter hit = [x] → let c := if x.fatal || kind = .l1 then cls else 1
         u.counter 0x8010 c = (s.counter 0x8010 c + 1) % 2 ^ 64) ∧
   (∀ (s : State) (cl : Nat) (n : LineNeed), n.uncached = false → (∃ x ∈ s.mem.arrays, x.kind = .l1 ∧ x.place = cl ∧ x.entry = n.line) →
     ∃ u, s.l1Lookup cl n = (u, none) ∧ (∀ y ∈ (u.cluster cl).l1, y.line ≠ n.line) ∧ ∀ y ∈ (u.cluster cl).pf, y.line = n.line → y.data = none) ∧
   (∀ (s : State) (agent sector : Nat) (c : Copy), let line := sector / 4 * 128; let bit : BitVec 4 := 1#4 <<< (sector % 4)
     (s.agent agent).cached? line = some c → let u := s.loseSector agent sector
       (c.dirty &&& bit = 0 → u.mem = s.mem) ∧ (c.dirty &&& bit ≠ 0 → s.lossAt (32 * sector) = .none → u.marked (32 * sector) = true) ∧
       (u.agent agent).copies = ((s.agent agent).copies.map fun x =>
         if x.line = line then { c with valid := c.valid &&& ~~~ bit, dirty := c.dirty &&& ~~~ bit, poison := c.poison &&& ~~~ bit } else x)) ∧
   (∀ (s : State) (home line : Nat), home < 12 → line % 128 = 0 → let u := s.loseTag home line
     (∀ a < 13, (u.agent a).holds line = false) ∧ (u.agent home).entry? line = none ∧
     ((∃ d ∈ (s.agent home).dir, d.line = line ∧ d.resp ≠ none ∧ d.st ≠ .F) → ∀ i < 4, s.lossAt (line + 32 * i) = .none → u.marked (line + 32 * i) = true)) ∧
   (∀ (s t u : State) (cl k : Nat) (e : WbEntry), s.keyAddr (32 * e.sector) = some k →
     s.clusterWrite cl (lineOf k) ((2 ^ 32 - 1) <<< (k % 128)) 0 (s.entryInfo cl e) true = some t → t.lossAt k = .none → s.wbLost cl e = some u → u.marked k = true) ∧
   (∀ (s : State) (cl acc : Nat) (ranges : List (Nat × Nat)),
     let hit := fun (x : ArrayUpset) => x.kind = .scratchpad && x.place = cl && ranges.any fun r => decide (r.1 ≤ x.entry) && decide (x.entry < r.1 + r.2)
     ((s.mem.arrays.filter hit).any (·.fatal) = false → (s.meetScratch cl acc ranges).2 = none) ∧
     ∀ x ∈ s.mem.arrays, hit x = true → x.fatal = true → (∀ y ∈ s.mem.arrays, hit y = true → y.fatal = true → x.entry ≤ y.entry) →
       (s.meetScratch cl acc ranges).2 = some { code := 0x702, detail := some ((x.entry % 2 ^ 48) <<< 64 ||| acc <<< 120 ||| 5 <<< 124) }) ∧
   (∀ (s : State) (t : Nat), (∃ x ∈ s.mem.arrays, x.kind = .staging ∧ x.place = hubOfDie (s.backingDie (s.twin t).backing) ∧ x.entry = 0 ∧ x.fatal = true) →
     ((s.startDrain t).twin t).broken = true ∧ ((s.startDrain t).twin t).stage = 1 ∧ (s.startDrain t).mem.cells = s.mem.cells) ∧
   (∀ (s : State) (d : LinkDir) (seq old : Nat), (s.link d.link.val).active = true →
     (∃ x ∈ s.mem.arrays, x.kind = .replay ∧ x.place = dirSender d ∧ x.entry = 2 * d.link.val + b2n d.rev ∧ x.fatal = true) →
     ((s.replayFrom d seq old).link d.link.val).state = .retraining))

/-- R64, R73: the branches. BR always, BRMZ on an empty active mask, BRANY and BRALL on RS1 of the active lanes; the
target is PC + 8 × IMM24. BRI goes to the pair RS1 of the active lanes, is not taken with none, and faults with
DIVERGENT_TARGET where they disagree; CALL writes the address after it to the pair RD of every active lane and
branches. NOP moves on. -/
def Obligations.Branches : Prop :=
  ∀ (s t : State) (id : GroupId) (w : Fields) (g : Group) (kn : Kernel),
    let target : W64 := g.pc + BitVec.ofInt 64 (8 * w.imm)
    let at_ := fun (taken : Prop) [Decidable taken] (to_ : W64) =>
      Host.Outcome.next (t.setGroup (gkey id)
        { g.stepped g.regs g.flags with pc := if taken then to_ else g.pc + 8 } : State) (φ := Fault) (ρ := Refusal)
    let on := fun l => g.active.getLsbD l = true ∧ l < 32
    let rs := w.rs1.toNat
    (Passes s id 7 0x01 w (ctlSig w true .zero .zero false) g kn t → exec (.ctlBr id w) s = at_ True target) ∧
    (Passes s id 7 0x02 w (ctlSig w true .zero .zero false) g kn t → exec (.ctlBrmz id w) s = at_ (g.active = 0) target) ∧
    (Passes s id 7 0x03 w (ctlSig w true .zero .r false) g kn t →
      ((∃ l, on l ∧ g.reg l rs ≠ 0) → exec (.ctlBrany id w) s = at_ True target) ∧
      ((∀ l, on l → g.reg l rs = 0) → exec (.ctlBrany id w) s = at_ False target)) ∧
    (Passes s id 7 0x04 w (ctlSig w true .zero .r false) g kn t →
      (g.active ≠ 0 → (∀ l, on l → g.reg l rs ≠ 0) → exec (.ctlBrall id w) s = at_ True target) ∧
      ((g.active = 0 ∨ ∃ l, on l ∧ g.reg l rs = 0) → exec (.ctlBrall id w) s = at_ False target)) ∧
    (Passes s id 7 0x05 w (ctlSig w false .zero .p false) g kn t →
      (g.active = 0 → exec (.ctlBri id w) s = at_ False target) ∧
      (∀ a : W64, g.active ≠ 0 → (∀ l, on l → g.pair l rs = a.toNat) → exec (.ctlBri id w) s = at_ True a) ∧
      (∀ l m, on l → on m → g.pair l rs ≠ g.pair m rs →
        ∃ a d, exec (.ctlBri id w) s = .next (t.takeFault (gkey id) g (w.word 7 5) { code := 0x109, arg0 := a, arg1 := d }))) ∧
    (Passes s id 7 0x06 w (ctlSig w true .p .zero false) g kn t →
      ∃ regs, exec (.ctlCall id w) s = .next (t.setGroup (gkey id) { g.stepped regs g.flags with pc := target }) ∧
        LaneRegs regs g w.rd.toNat true fun _ => (g.pc + 8).toNat) ∧
    (Passes s id 7 0x09 w (ctlSig w false .zero .zero false) g kn t → exec (.ctlNop id w) s = at_ False target)

/-- R67, R72: the mask stack, top first: the five mask-stack instructions, at every depth, with their two faults. SHFL,
VOTEANY, VOTEALL and BALLOT write RD of every active lane. -/
def Obligations.MasksAndLanes : Prop :=
  ∀ (s t : State) (id : GroupId) (w : Fields) (g : Group) (kn : Kernel) (c : W32),
    (∀ l, l < 32 → c.getLsbD l = (g.active.getLsbD l && decide (g.reg l w.rs1.toNat ≠ 0))) →
    let to_ := fun (am : W32) (stack : List (W32 × W32)) =>
      Host.Outcome.next (t.setGroup (gkey id) { g.stepped g.regs g.flags with active := am, stack := stack } : State) (φ := Fault) (ρ := Refusal)
    let lane := fun (i : Instr) (op : Nat) (rs2 : Opnd) (v : Nat → Nat) =>
      Passes s id 8 op w (laneSig w rs2) g kn t → LaneResult (exec i s) t id g w.rd.toNat false fun l => (v l, 0)
    let fault := fun (op code a0 a1 : Nat) =>
      Host.Outcome.next (t.takeFault (gkey id) g (w.word 7 op) { code := code, arg0 := a0, arg1 := a1 } : State) (φ := Fault) (ρ := Refusal)
    (Passes s id 7 0x10 w (ctlSig w false .zero .r false) g kn t →
      (g.stack.length < 16 → exec (.ctlMif id w) s = to_ (g.active &&& c) ((g.active, g.active &&& ~~~ c) :: g.stack)) ∧
      (16 ≤ g.stack.length → exec (.ctlMif id w) s = fault 0x10 0x10A 16 0)) ∧
    (Passes s id 7 0x11 w (ctlSig w false .zero .zero false) g kn t →
      (∀ sv pe r, g.stack = (sv, pe) :: r → exec (.ctlMelse id w) s = to_ pe ((sv, 0) :: r)) ∧
      (g.stack = [] → exec (.ctlMelse id w) s = fault 0x11 0x10B 0 0)) ∧
    (Passes s id 7 0x12 w (ctlSig w false .zero .zero false) g kn t →
      (∀ sv pe r, g.stack = (sv, pe) :: r → exec (.ctlMend id w) s = to_ sv r) ∧
      (g.stack = [] → exec (.ctlMend id w) s = fault 0x12 0x10B 0 0)) ∧
    (Passes s id 7 0x13 w (ctlSig w false .zero .zero false) g kn t →
      (g.stack.length < 16 → exec (.ctlMloop id w) s = to_ g.active ((g.active, 0) :: g.stack)) ∧
      (16 ≤ g.stack.length → exec (.ctlMloop id w) s = fault 0x13 0x10A 16 0)) ∧
    (Passes s id 7 0x14 w (ctlSig w false .zero .r true) g kn t →
      (∀ top rest, g.stack = top ++ rest → top.length = w.aux → rest ≠ [] →
        exec (.ctlMbrk id w) s =
          to_ (g.active &&& ~~~ (g.active &&& c))
            (top.map (fun e => (e.1 &&& ~~~ (g.active &&& c), e.2 &&& ~~~ (g.active &&& c))) ++ rest)) ∧
      (g.stack.length ≤ w.aux → exec (.ctlMbrk id w) s = fault 0x14 0x10B g.stack.length w.aux)) ∧
    lane (.spcShfl id w) 0x02 .r (fun l => g.reg (g.reg l w.rs2 % 32) w.rs1.toNat) ∧
    lane (.spcVoteany id w) 0x03 .zero (fun _ => if c = 0 then 0 else 1) ∧
    lane (.spcVoteall id w) 0x04 .zero (fun _ => if c = g.active then 1 else 0) ∧
    lane (.spcBallot id w) 0x05 .zero (fun _ => c.toNat)

/-- R74, R75: EXIT clears the active lanes from the masks and from every stack entry, and the stack goes with the last
lane; TRAP takes the fault TRAP with IMM24. -/
def Obligations.ExitAndTrap : Prop :=
  ∀ (s t : State) (id : GroupId) (w : Fields) (g : Group) (kn : Kernel),
    (Passes s id 7 0x07 w (ctlSig w false .zero .zero false) g kn t →
      exec (.ctlExit id w) s = .next ((t.setGroup (gkey id) { g.stepped g.regs g.flags with
        launch := g.launch &&& ~~~ g.active, active := 0
        stack := if g.launch &&& ~~~ g.active = 0 then [] else
          g.stack.map fun e => (e.1 &&& ~~~ g.active, e.2 &&& ~~~ g.active) }).settleEnds id.cluster.val)) ∧
    (Passes s id 7 0x08 w (ctlSig w true .zero .zero false) g kn t →
      exec (.ctlTrap id w) s = .next (t.takeFault (gkey id) g (w.word 7 8) { code := 0x10F, arg0 := w.low.toNat }))

/-- R39, R78, R79, R266: a fault that is not a recoverable page fault halts its group and every group of its kernel and
resets their registers, aborts the kernel with the fault's code as the reason, leaves every other group alone, and,
with the fault queue not enabled, counts the fault in FQ_LOST of its class and writes no byte of memory. -/
def Obligations.TakingAFault : Prop :=
  ∀ (t : State) (gk : Nat) (g : Group) (word : W64) (f : FaultInfo) (k : Kernel),
    t.kernel? g.kernel = some k → k.phase = .running → f.pageFault = false →
    let u := t.takeFault gk g word f
    (∀ j h, (t.setGroup gk g).group? j = some h →
      u.group? j = some (if h.kernel = g.kernel then { h with
        halted := true, wait := .ready, stack := [], regs := [], vregs := [], vl := 128, vmask := [], empty := false, fences := [] } else h)) ∧
    (∃ k', u.kernel? g.kernel = some k' ∧ k'.phase = .aborted ∧ k'.reason = f.code ∧ k'.boundGroups = [] ∧
      ∀ x ∈ k'.ferries, x.2.fifo = [] ∧ ∀ y ∈ x.2.slots, y = .free) ∧
    (∀ j, j ≠ g.kernel → u.kernel? j = t.kernel? j) ∧
    ((t.xl k.part).enable = false → u.mem.cells = t.mem.cells ∧ (u.xl k.part).fqTail = (t.xl k.part).fqTail ∧
      sgetD (u.xl k.part).fqLost (f.code / 256 - 1) 0 = sgetD (t.xl k.part).fqLost (f.code / 256 - 1) 0 + 1)

/-- R58, R60, R61, R64, R73, R78, R247, R365: the checks before execution, in their order: CODE_RANGE with the program
counter, ILLEGAL_INSTRUCTION, FEATURE_DISABLED, the register ranges, the further ranges, DIVERGENT_GROUP_OP. A check
that fails takes its fault; a fetch that fails has no word, so that its record's INSTR is a free value (the model's
choice, log 109); a reserved CLASS or OP is ILLEGAL_INSTRUCTION (R60, R61); and a group whose turn it is not, and
the word of another row's operation, change nothing (the model's form of a command that is not ready, and of one
that the word does not spell). REGISTER_RANGE names a scalar register at or beyond REGS, before REGISTER_PAIR names
an odd pair, before VREG_RANGE names a vector register at or beyond VREGS; with none of them there is no fault.
Fetching through the TLBs changes no group, no kernel, no network, power, pin or boot state; through an entry of the
micro-TLB it changes no memory and no cache either. The word of a group's instruction. Its CLASS in bits 63:60 and
its OP in bits 59:52 choose the command, whose fields are the bits below; an atomic's OP holds ORDER and FETCH,
VXRED's and TXRED's operation stands in AUX; a reserved CLASS or OP chooses none, and is the refused word that comes
under NOP (the model's form of it, log 1). A reserved word comes under NOP (log 1), a failed fetch leaves INSTR free
(log 109). -/
def Obligations.InstructionChecks : Prop :=
  (∀ (s t : State) (id : GroupId) (cls op : Nat) (w : Fields) (sig : Sig) (wideOp : Bool) (feature : Kernel → Option Nat)
     (ranges : Kernel → Group → Option FaultInfo) (run : State → Nat → Group → Kernel → Eff) (g : Group) (kn : Kernel),
     let it := s.issue id cls op w sig wideOp feature ranges run
     let word := w.word cls op
     let base := kn.image.toNat + kn.header.codeOff
     let fault := fun (u : State) (f : FaultInfo) => u.takeFault (gkey id) g word f
     (s.issuable (gkey id) word = none → it = s) ∧
     (s.issuable (gkey id) word = some (g, kn) →
       (g.pc.toNat % 8 ≠ 0 ∨ g.pc.toNat < base ∨ base + kn.header.codeSize ≤ g.pc.toNat →
         it = s.useFree.takeFault (gkey id) g s.freeWord { code := 0x101, arg0 := g.pc.toNat }) ∧
       (∀ f, s.fetchCheck (gkey id) g kn = (t, .fault f) → it = t.useFree.takeFault (gkey id) g t.freeWord f) ∧
       ∀ pa b x, s.fetchCheck (gkey id) g kn = (t, .ok pa b x) →
         (∀ c, w.other = some c → rowOf (c.toNat / 256) (c.toNat % 256) w = none → it = fault t { code := 0x102 }) ∧
         (sig.illegal w = true → it = if foreignWord w then s else fault t { code := 0x102 }) ∧
         (sig.illegal w = false → ∀ n, feature kn = some n → it = fault t { code := 0x103, arg0 := n }) ∧
         (sig.illegal w = false → feature kn = none → ∀ f, sig.range w g = some f → it = fault t f) ∧
         (sig.illegal w = false → feature kn = none → sig.range w g = none → ∀ f, ranges kn g = some f → it = fault t f) ∧
         (sig.illegal w = false → feature kn = none → sig.range w g = none → ranges kn g = none →
           wideOp = true → g.active ≠ g.launch → it = fault t { code := 0x108 }) ∧
         (sig.illegal w = false → feature kn = none → sig.range w g = none → ranges kn g = none → (wideOp = true → g.active = g.launch) →
           let hit := fun (e : ArrayUpset) => e.kind = .registers && e.place = gkey id && (sig.reads cls op w).contains e.entry
           ((∃ e ∈ t.mem.arrays, hit e = true ∧ e.fatal = true) →
             ∃ u, it = fault u { code := 0x702, detail := some (6 <<< 124) } ∧ u.groups = t.groups ∧ u.clusters = t.clusters ∧ u.mem.cells = t.mem.cells) ∧
           (t.mem.arrays.filter hit = [] → it = match run t (gkey id) g kn with
             | .done u => u
             | .fault u f => fault u f
             | .hold u => u)))) ∧
  (∀ (sig : Sig) (w : Fields) (g : Group),
     let beyond := fun (e : Opnd × Nat) => (e.1 = .r ∨ e.1 = .p) ∧ g.regCount ≤ e.2
     let odd := fun (e : Opnd × Nat) => e.1 = .p ∧ e.2 % 2 = 1
     let vbeyond := fun (e : Opnd × Nat) => e.1 = .v ∧ g.vregCount ≤ e.2
     let none_ := fun (p : Opnd × Nat → Prop) => ∀ e ∈ sig.fields w, ¬ p e
     ((∃ e ∈ sig.fields w, beyond e) → ∃ e ∈ sig.fields w, beyond e ∧
       sig.range w g = some { code := 0x104, arg0 := e.2, arg1 := g.regCount }) ∧
     (none_ beyond → (∃ e ∈ sig.fields w, odd e) → ∃ e ∈ sig.fields w, odd e ∧
       sig.range w g = some { code := 0x105, arg0 := e.2 }) ∧
     (none_ beyond → none_ odd → (∃ e ∈ sig.fields w, vbeyond e) → ∃ e ∈ sig.fields w, vbeyond e ∧
       sig.range w g = some { code := 0x106, arg0 := e.2, arg1 := g.vregCount }) ∧
     (none_ beyond → none_ odd → none_ vbeyond → sig.range w g = none)) ∧
  (∀ (s : State) (gk : Nat) (g : Group) (kn : Kernel),
     let u := (s.fetchCheck gk g kn).1
     u.groups = s.groups ∧ u.kernels = s.kernels ∧ u.tallies = s.tallies ∧ u.net = s.net ∧ u.power = s.power ∧
     u.pins = s.pins ∧ u.boot = s.boot ∧ u.taps = s.taps ∧ u.links = s.links ∧ u.pending = s.pending ∧ u.xlate = s.xlate ∧
     (((s.cluster (gcluster gk)).utlb.any fun e => e.host.isNone && e.covers kn.part (s.ctxAsid kn.part kn.ctx) (g.pc.toNat / 4096 % 2 ^ 45)) = true →
       u.mem = s.mem ∧ u.agents = s.agents ∧ u.txns = s.txns)) ∧
  (∀ (g : GroupId) (w : W64),
     let n := w.toNat
     let cls := n / 2 ^ 60
     let op := n / 2 ^ 52 % 256
     let f : Fields := {
       type := BitVec.ofNat 4 (n / 2 ^ 48)
       form := BitVec.ofNat 2 (n / 2 ^ 46)
       mod := BitVec.ofNat 6 (n / 2 ^ 40)
       rd := BitVec.ofNat 8 (n / 2 ^ 32)
       rs1 := BitVec.ofNat 8 (n / 2 ^ 24)
       low := BitVec.ofNat 24 n }
     let order : BitVec 2 := BitVec.ofNat 2 (op / 16)
     let fetch := op.testBit 3
     let tables : List (Nat × Nat × List (GroupId → Fields → Instr)) := [
       (0x0, 0x01, [.intAdd, .intSub, .intAnd, .intOr, .intXor, .intNot, .intShl, .intShr, .intSra, .intRot, .intMov, .intLih, .intClz, .intPopc]),
       (0x1, 0x01, [.imdMul, .imdMulhi, .imdDiv, .imdRem]),
       (0x2, 0x01, [.f32Add, .f32Sub, .f32Mul, .f32Fma, .f32Min, .f32Max, .f32Abs, .f32Neg, .f32Div, .f32Sqrt]),
       (0x3, 0x01, [.f64Add, .f64Sub, .f64Mul, .f64Fma, .f64Min, .f64Max, .f64Abs, .f64Neg, .f64Div, .f64Sqrt]),
       (0x4, 0x01, [.cmpEq, .cmpNe, .cmpLt, .cmpLe, .cmpSel]),
       (0x5, 0x01, [.cvtCvt, .cvtCvte, .cvtEcvt]),
       (0x6, 0x01, [.memLd8, .memLd8u, .memLd16, .memLd16u, .memLd32, .memLd64]),
       (0x6, 0x09, [.memSt8, .memSt16, .memSt32, .memSt64]),
       (0x6, 0x10, [.memPf]),
       (0x7, 0x01, [.ctlBr, .ctlBrmz, .ctlBrany, .ctlBrall, .ctlBri, .ctlCall, .ctlExit, .ctlTrap, .ctlNop]),
       (0x7, 0x10, [.ctlMif, .ctlMelse, .ctlMend, .ctlMloop, .ctlMbrk]),
       (0x8, 0x01, [.spcRdsr, .spcShfl, .spcVoteany, .spcVoteall, .spcBallot]),
       (0x8, 0x10, [.spcPhase]),
       (0x9, 0x01, [.mxMma, .mxDrain, .mxLdacc]),
       (0xA, 0x01, [.vxSetvl, .vxLd, .vxSt, .vxBcast]),
       (0xA, 0x10, [.vxAdd, .vxSub, .vxMul, .vxFma, .vxMin, .vxMax, .vxAbs, .vxNeg, .vxAnd, .vxOr, .vxXor, .vxNot, .vxCvt]),
       (0xA, 0x20, [.vxCmpeq, .vxCmplt, .vxCmple, .vxSel, .vxMand, .vxMor, .vxMxor, .vxMnot, .vxPerm, .vxIota]),
       (0xA, 0x38, [.vxExp2, .vxLog2, .vxRcp, .vxRsqrt]),
       (0xA, 0x40, [.vxExtr, .vxGets]),
       (0xA, 0x48, [.vxChld, .vxChbase]),
       (0xB, 0x01, [.fyResv, .fyPush, .fyPop, .fyFree, .fyClose]),
       (0xC, 0x01, [.syFence, .syRel, .syAcq, .syFencec]),
       (0xC, 0x10, [.syTally, .syTrd, .syTadd]),
       (0xD, 0x01, [.txLd, .txSt, .txLdl, .txStl]),
       (0xD, 0x10, [.txPut]),
       (0xD, 0x12, [.txDead])]
     let atomics := cls = 6 ∧ 0x40 ≤ op ∧ op ≤ 0x7F
     (∀ t ∈ tables, ∀ k row, t.2.2[k]? = some row → cls = t.1 → op = t.2.1 + k → decodeWord g w = row g f ∧ f.word cls op = w) ∧
     (atomics → ∀ k row, ([fun g w => .atomAdd g w order fetch, fun g w => .atomMin g w order fetch, fun g w => .atomMax g w order fetch, fun g w => .atomAnd g w order fetch,
       fun g w => .atomOr g w order fetch, fun g w => .atomXor g w order fetch, fun g w => .atomSwap g w order fetch, fun g w => .atomCas g w order fetch] :
       List (GroupId → Fields → Instr))[k]? = some row → op % 8 = k → decodeWord g w = row g f) ∧
     (cls = 0xA → op = 0x30 → ∀ k row, ([.vxRedAdd, .vxRedProduct, .vxRedMax, .vxRedMin, .vxRedAnd, .vxRedOr, .vxRedXor] : List (GroupId → Fields → Instr))[k]? = some row →
       f.aux % 8 = k → decodeWord g w = row g f) ∧
     (cls = 0xD → op = 0x11 → ∀ k row, ([.txRedAdd, .txRedMin, .txRedMax, .txRedAnd, .txRedOr, .txRedXor] : List (GroupId → Fields → Instr))[k]? = some row →
       f.aux / 32 = k → decodeWord g w = row g f) ∧
     ((∀ t ∈ tables, cls = t.1 → op < t.2.1 ∨ t.2.1 + t.2.2.length ≤ op) → ¬ atomics → ¬ (cls = 0xA ∧ op = 0x30) → ¬ (cls = 0xD ∧ op = 0x11) →
       decodeWord g w = .ctlNop g { f with other := some (BitVec.ofNat 12 (n / 2 ^ 52)) } ∧ rowOf cls op f = none))

/-- R68, R347: RDSR writes RD of every active lane. CLOCK is the die's local counter, whose value is free (log 8): it
uses up one free value. PHASE makes its index the group's phase in force and settles the clocks again; an index at
or beyond PHASES faults with PHASE_RANGE. -/
def Obligations.SpecialsAndPhase : Prop :=
  (∀ (s t : State) (id : GroupId) (w : Fields) (g : Group) (kn : Kernel),
     let cl := gcluster (gkey id)
     let code := w.low.toNat % 4096
     let rdsr := { ctlSig w true (if specialWide code then .p else .r) .zero false with
       legal := (ctlSig w true (if specialWide code then .p else .r) .zero false).legal && w.immU < 4096 }
     let reads := fun (k : Nat) (wd : Bool) (v : Nat → Nat) => code = k → Passes s id 8 0x01 w rdsr g kn t →
       LaneResult (exec (.spcRdsr id w) s) t id g w.rd.toNat wd fun l => (v l, 0)
     reads 0x000 false (fun l => l) ∧ reads 0x001 false (fun _ => g.index) ∧
     reads 0x002 false (fun _ => id.sched.val) ∧ reads 0x003 false (fun _ => g.landing) ∧
     reads 0x004 false (fun _ => g.lcluster) ∧ reads 0x005 false (fun _ => (kn.clusters.getD g.landing []).length) ∧
     reads 0x006 false (fun _ => id.cluster.val) ∧ reads 0x007 false (fun _ => kn.kernelId.toNat) ∧
     reads 0x008 true (fun _ => kn.args.toNat) ∧ reads 0x009 false (fun _ => sgetD kn.tallyBase (clusterDie cl) 0) ∧
     reads 0x00A false (fun _ => g.active.toNat) ∧ reads 0x00B false (fun _ => g.launch.toNat) ∧
     reads 0x00C false (fun _ => g.stack.length) ∧ reads 0x00D false (fun _ => g.flags.toNat) ∧
     reads 0x00F false (fun _ => g.phase) ∧
     (code = 0x00E → Passes s id 8 0x01 w rdsr g kn t →
       LaneResult (exec (.spcRdsr id w) s) { t with free := t.free + 1 } id g w.rd.toNat true
         fun _ => ((Config.freeWord t.free).toNat, 0)) ∧
     (∀ n b o, code = 0x100 + n → n < 256 → kn.man.berths[n]? = some b → kn.berthOff[n]? = some o →
       cl ∈ kn.clusters.getD b.landing [] → reads code false (fun _ => o)) ∧
     (Passes s id 8 0x01 w rdsr g kn t → (0x010 ≤ code ∧ code < 0x100 ∨ 0x200 ≤ code ∨ 0x100 + kn.man.berths.length ≤ code) →
       exec (.spcRdsr id w) s = .next (t.takeFault (gkey id) g (w.word 8 1) { code := 0x10E, arg0 := code }))) ∧
  (∀ (s t : State) (id : GroupId) (w : Fields) (g : Group) (kn : Kernel),
     let sig := { ctlSig w true .zero .zero false with legal := (ctlSig w true .zero .zero false).legal && w.immU < 256 }
     Passes s id 8 0x10 w sig g kn t →
       (w.immU < kn.man.phases.length → g.active = g.launch →
         exec (.spcPhase id w) s =
           .next (t.setGroup (gkey id) { g.stepped g.regs g.flags with phase := w.immU }).powerSettle ∧
         (t.setGroup (gkey id) { g.stepped g.regs g.flags with phase := w.immU }).powerSettle.group? (gkey id) =
           some { g.stepped g.regs g.flags with phase := w.immU }) ∧
       (kn.man.phases.length ≤ w.immU → exec (.spcPhase id w) s =
         .next (t.takeFault (gkey id) g (w.word 8 0x10) { code := 0x110, arg0 := w.immU, arg1 := kn.man.phases.length })))

/-- R34, R38, R43, R458: FYRESV takes a position free in every queue the producer feeds, reserves it in each for the
group and gives its handle to RD of every launched lane; with no more free slots than the cycle credit it stalls,
and on a stream the group closed it faults. Which free position it takes is free (log 41). -/
def Obligations.FerryReserve : Prop :=
  ∀ (s t : State) (id : GroupId) (w : Fields) (g : Group) (kn : Kernel) (f : Ferry),
    let fi := w.aux
    let qs := kn.producerQueues f g.lcluster
    let few := qs.any fun q => decide (((kn.fq fi q).slots.filter fun x => x = .free).length ≤ f.cycleCredit)
    let closed := qs.any fun q => g.closed.contains (ferryKey fi q)
    let gone := qs.any fun q => (kn.fq fi q).gone || t.consumersGone g.kernel kn f q
    Passes s id 11 1 w (fySig w .p .zero) g kn t → g.active = g.launch → fyFeature w kn = none →
    t.kernel? g.kernel = some kn → kn.ferryFor fi g.landing true = some f → f.isOut = false → qs.Nodup →
      (closed = true → exec (.fyResv id w) s = .next (t.takeFault (gkey id) g (w.word 11 1) { code := 0x204, arg0 := fi })) ∧
      (closed = false → gone = true →
        exec (.fyResv id w) s = .next (t.takeFault (gkey id) g (w.word 11 1) { code := 0x205, arg0 := fi })) ∧
      (closed = false → gone = false → few = true →
        exec (.fyResv id w) s = .next (t.setGroup (gkey id) { g with wait := .stall (w.word 11 1) })) ∧
      (closed = false → gone = false → few = false → kn.freePositions fi f qs ≠ [] →
        ∃ u i regs kn', i ∈ kn.freePositions fi f qs ∧ exec (.fyResv id w) s = .next u ∧
          GroupNow u t (gkey id) (g.stepped regs g.flags) ∧
          LaunchRegs regs g w.rd.toNat (kn.slotUnit fi f i + 2 ^ 54 * kn.srcOf f g.lcluster) ∧
          KernelNow u t g.kernel kn' ∧
          QueuesChanged kn' kn fi qs (fun x => { x with slots := x.slots.set i (.reserved (gkey id)) }) ∧
          u = { t with groups := u.groups, kernels := u.kernels, free := u.free })

/-- R35 to R40, R42, R122, R302, R312: FYPUSH commits a reserved slot to the tail of every queue with the node's SRC;
FYPOP takes the oldest handle, or END from a closed empty queue, invalidates the L1 as its acquire, and stalls on an
empty open queue; FYFREE returns a held slot; FYCLOSE ends the group's stream. The timeout of an IN end that no OUT
end has joined faults the FYPOPs stalled on it with REMOTE_INCOMPLETE; of any other end it does nothing. A push held
by the group's earlier accesses is the model's reading (log 19). -/
def Obligations.FerryTransfer : Prop :=
  (∀ (s t : State) (id : GroupId) (w : Fields) (g : Group) (kn : Kernel) (f : Ferry) (i : Nat),
     let gk := gkey id
     let fi := w.aux
     let qs := kn.producerQueues f g.lcluster
     let q := g.lcluster
     let x := kn.fq fi q
     let h := g.pair g.lead w.rs1.toNat
     t.kernel? g.kernel = some kn → t.group? gk = some g → g.active = g.launch → fyFeature w kn = none →
     f.isOut = false → f.isIn = false → qs.Nodup → (t.cluster (gcluster gk)).wb = [] →
     (Passes s id 11 2 w (fySig w .zero .p) g kn t → kn.ferryFor fi g.landing true = some f → hTop h = 0 →
       kn.slotIndex fi f h = some i → (∀ q ∈ qs, (kn.fq fi q).slots[i]? = some (.reserved gk)) →
       hFormat h < 13 → hExtent h .whole ≤ 256 * f.tileSize → (∀ q ∈ qs, ferryKey fi q ∉ g.closed) →
       t.earlierWork gk g.issued = false →
         ∃ u kn', exec (.fyPush id w) s = .next u ∧ GroupNow u t gk (g.stepped g.regs g.flags) ∧ KernelNow u t g.kernel kn' ∧
           QueuesChanged kn' kn fi qs (fun x => { x with
             slots := x.slots.set i .committed, fifo := x.fifo ++ [BitVec.ofNat 64 (setField h 54 6 (kn.srcOf f g.lcluster))] }) ∧
           u = { t with groups := u.groups, kernels := u.kernels }) ∧
     (Passes s id 11 3 w (fySig w .p .zero) g kn t → kn.ferryFor fi g.landing false = some f → x.gone = false →
       (∀ e r, x.fifo = e :: r →
         ∃ u regs kn', exec (.fyPop id w) s = .next u ∧ GroupNow u t gk (g.stepped regs g.flags) ∧
           LaunchRegs regs g w.rd.toNat e.toNat ∧ KernelNow u t g.kernel kn' ∧
           QueuesChanged kn' kn fi [q] (fun x => { x with
             fifo := r, slots := x.slots.set ((kn.slotIndex fi f e.toNat).getD 0) (.held gk) }) ∧
           (u.cluster (gcluster gk)).l1 = [] ∧ u.mem = t.mem) ∧
       (x.fifo = [] → t.queueClosed g.kernel kn fi f q = true →
         ∃ u regs, exec (.fyPop id w) s = .next u ∧ GroupNow u t gk (g.stepped regs g.flags) ∧
           LaunchRegs regs g w.rd.toNat (2 ^ 64 - 1) ∧ (u.cluster (gcluster gk)).l1 = [] ∧ u.kernels = t.kernels ∧ u.mem = t.mem) ∧
       (x.fifo = [] → t.queueClosed g.kernel kn fi f q = false →
         exec (.fyPop id w) s = .next (t.setGroup gk { g with wait := .stall (w.word 11 3) }))) ∧
     (Passes s id 11 4 w (fySig w .zero .p) g kn t → kn.ferryFor fi g.landing false = some f → hTop h = 0 →
       kn.slotIndex fi f h = some i → x.slots[i]? = some (.held gk) → t.mxReader gk (hSlot h) = none →
         ∃ u kn', exec (.fyFree id w) s = .next u ∧ GroupNow u t gk (g.stepped g.regs g.flags) ∧ KernelNow u t g.kernel kn' ∧
           QueuesChanged kn' kn fi [q] (fun x => { x with slots := x.slots.set i .free }) ∧
           u = { t with groups := u.groups, kernels := u.kernels }) ∧
     (Passes s id 11 5 w (fySig w .zero .zero) g kn t → kn.ferryFor fi g.landing true = some f →
         ∃ v kn', exec (.fyClose id w) s = .next (v.settleEnds (gcluster gk)) ∧
           GroupNow v t gk { g.stepped g.regs g.flags with closed := (g.closed ++ qs.map (ferryKey fi)).eraseDups } ∧
           KernelNow v t g.kernel kn' ∧
           QueuesChanged kn' kn fi qs (fun x => { x with closedBy := if gk ∈ x.closedBy then x.closedBy else x.closedBy ++ [gk] }) ∧
           v = { t with groups := v.groups, kernels := v.kernels })) ∧
  (∀ (s : State) (k : Nat) (fi : Fin 64) (kn : Kernel) (f : Ferry) (gk : Nat) (g : Group) (word : W64),
     s.kernel? k = some kn → kn.man.ferries[fi.val]? = some f →
     (f.isIn = false → exec (.inEndTimeout k fi) s = .next s) ∧
     (f.isIn = true → s.kernelGroups k = [(gk, g)] → g.wait = .stall word → g.landing = f.consumer →
       field word.toNat 60 4 = 11 → field word.toNat 52 8 = 3 → field word.toNat 0 8 = fi.val →
       ((kn.fq fi.val g.lcluster).matched = true → exec (.inEndTimeout k fi) s = .next s) ∧
       ((kn.fq fi.val g.lcluster).matched = false → exec (.inEndTimeout k fi) s =
         .next (s.takeFault gk g word { code := 0x606, arg0 := f.tag, arg1 := kn.man.netgroups.getD f.netgroup 0 }))))

/-- R97, R106 to R112, R117, R119: an MX instruction whose checks pass takes its place at the tail of the matrix
engine's queue with its operands as read at issue, opens or closes its tile in the group's stream, and lets the
group go on; with four entries queued it is held. -/
def Obligations.MatrixIssue : Prop :=
  ∀ (s t : State) (id : GroupId) (w : Fields) (g : Group) (kn : Kernel),
    let gk := gkey id
    let cl := gcluster gk
    let l := gk % 64
    let c := t.cluster cl
    let acc := w.aux % 16
    let tile := g.accumBase + acc
    let a := g.pair g.lead w.rs1.toNat
    let b := g.pair g.lead w.rs2
    let queued := fun (i : Instr) (code : Nat) (op : MxOp) (x : AccTile) =>
      ∃ u tiles, exec i s = .next u ∧ GroupNow u t gk (g.stepped g.regs g.flags) ∧
        ClusterNow u t cl { c with tiles := tiles, mxq := c.mxq ++ [{ group := l, no := g.issued, op := op, word := w.word 9 code, pc := g.pc }] } ∧
        u.tile cl tile = x ∧ (∀ j, j ≠ tile → u.tile cl j = t.tile cl j) ∧
        u = { t with groups := u.groups, clusters := u.clusters }
    g.active = g.launch → acc < g.accumCount →
    (∀ o, o = (if w.aux.testBit 5 then g.reg g.lead w.rs3 else 0) →
      Passes s id 9 1 w (mxSig w true (w.aux.testBit 5) (w.aux < 64)) g kn t →
      (4 ≤ c.mxq.length → exec (.mxMma id w) s = .next t) ∧
      (c.mxq.length < 4 → (hScaleKind a = 3 ∨ hScaleKind b = 3 → kn.feature 0 = true) →
        t.mmaChecks cl l tile acc w.ty a b o (w.aux.testBit 4) = none →
        let latch := w.aux.testBit 4 || (t.tile cl tile).latchMeta.isNone
        queued (.mxMma id w) 1 (.mma w.ty (BitVec.ofNat 64 a) (BitVec.ofNat 64 b) (BitVec.ofNat 32 o) (w.aux.testBit 4) latch tile)
          { t.tile cl tile with openBy := some (l, accKind w.ty)
                                latchMeta := if latch then some (latchOf a b) else (t.tile cl tile).latchMeta })) ∧
    (∀ o, o = (if w.aux.testBit 5 then g.reg g.lead w.rs3 else 0) →
      Passes s id 9 3 w (mxSig w false (w.aux.testBit 5) (w.aux < 64 && !w.aux.testBit 4)) g kn t → c.mxq.length < 4 →
      hTop b = 0 → w.ty < 2 → hFormat b = w.ty → rectBad b o (if w.ty = 0 then 32 else 64) = false →
      (∀ x k, t.tileOpen cl tile = some (x, k) → x = l) → scratchFault b (hExtent b .plain) c.spadSize = none →
        queued (.mxLdacc id w) 3 (.ldacc (BitVec.ofNat 64 b) (BitVec.ofNat 32 o) tile)
          { t.tile cl tile with openBy := some (l, if w.ty = 0 then .fp64 else .fp32), latchMeta := none }) ∧
    (∀ o k, o = (if w.aux.testBit 7 then g.reg g.lead w.rs3 else 0) →
      Passes s id 9 2 w (mxSig w false (w.aux.testBit 7) true) g kn t → c.mxq.length < 4 → field w.aux 4 3 = 0 →
      hTop b = 0 → w.ty < 12 → hFormat b = w.ty → t.tileOpen cl tile = some (l, k) → rectBad b o k.rows = false →
      hScaleKind b = 0 → scratchFault b (hExtent b .plain) c.spadSize = none →
        queued (.mxDrain id w) 2 (.drain (BitVec.ofNat 64 b) (BitVec.ofNat 32 o) 0 none tile)
          { t.tile cl tile with openBy := none, latchMeta := none }) ∧
    (∀ ty < 12, accKind ty = if ty = 0 then .fp64 else if ty = 10 ∨ ty = 11 then .i32 else .fp32)

/-- R97, R98, R111, R116, R119: MATRIX_ENGINE_START executes the head of the queue once nothing keeps it back. A
multiply leaves the products in the tile, a load the elements of the tile in scratchpad, a drain hands the tile to
the slip; SLIP_PASS takes one pass and the 32nd releases the tile. An empty queue or slip does nothing. Every
element of the M × N rectangle takes its two chunks in ascending k, and every other value of the tile stays; an
integer chunk is the exact sum of products, saturated at the ends of I32 with OVERFLOW. -/
def Obligations.MatrixEngine : Prop :=
  (∀ (s : State) (cf : Fin 512) (e : MxEntry) (rest : List MxEntry),
     let cl := cf.val
     let c := s.cluster cl
     let gk := 64 * cl + e.group
     (c.mxq = [] → exec (.matrixEngineStart cf) s = .next (s.settleEnds cl)) ∧
     (c.mxq = e :: rest → s.mem.arrays = [] →
       (∀ ty a b o start latch tile, e.op = .mma ty a b o start latch tile →
         (start = true → (s.tile cl tile).draining = false) → s.fenced gk e.no true false = false →
         ∃ u : State, exec (.matrixEngineStart cf) s = .next (u.settleEnds cl) ∧
           let old := if start then [] else (s.tile cl tile).vals
           let m := c.mma (s.flushOf gk) ty a.toNat b.toNat o.toNat old
           ∃ v : State, u = ((v.count 0xA041 1 1).count 0xA041 5 (classPenalty c.lastClass (mxClass ty))).releaseFreed gk e.no ∧
             (v.cluster cl).lastClass = some (mxClass ty) ∧ (v.tile cl tile).vals = m.1 ∧ (v.cluster cl).mxq = rest ∧
             (v.cluster cl).spad = c.spad ∧ v.group? gk = (s.group? gk).map fun g => { g with flags := g.flags ||| m.2 }) ∧
       (∀ src o tile, e.op = .ldacc src o tile → (s.tile cl tile).draining = false → s.fenced gk e.no true false = false →
         ∃ u v : State, exec (.matrixEngineStart cf) s = .next (u.settleEnds cl) ∧ u = v.releaseFreed gk e.no ∧
           (v.cluster cl).mxq = rest ∧ (v.tile cl tile).rowScale = none ∧ (v.tile cl tile).colScale = none ∧
           ∀ i j, i < (if hFormat src.toNat = 0 then 32 else 64) → j < 64 →
             sgetD (v.tile cl tile).vals (64 * i + j) 0 = BitVec.ofNat 64 (c.elem src.toNat (offM o.toNat + i) (offN o.toNat + j))) ∧
       (∀ dest o slot chain tile, e.op = .drain dest o slot chain tile → c.slip.length < 8 → s.fenced gk e.no true true = false →
         ∃ u : State, exec (.matrixEngineStart cf) s = .next (u.settleEnds cl) ∧ (u.cluster cl).mxq = rest ∧
           (u.cluster cl).slip = c.slip ++ [{ group := e.group, no := e.no, tile := tile, dest := dest, off := o, slot := slot, chain := chain, word := e.word, pc := e.pc }] ∧
           u.tile cl tile = { s.tile cl tile with draining := true })) ∧
     (c.slip = [] → exec (.slipPass cf) s = .next (s.settleEnds cl)) ∧
     (∀ (x : SlipEntry) r, c.slip = x :: r → s.mem.arrays = [] → (s.tile cl x.tile).kind ≠ .fp64 → x.chain = none →
       let v := (s.slipRow cl x (2 * x.pass)).slipRow cl x (2 * x.pass + 1)
       (x.pass < 31 → exec (.slipPass cf) s =
         .next (((v.count 0xA051 3 1).setCluster cl { v.cluster cl with slipPace := 1, slip := { x with pass := x.pass + 1 } :: r }).settleEnds cl)) ∧
       (31 ≤ x.pass → ∃ u : State, exec (.slipPass cf) s = .next (u.settleEnds cl) ∧ (u.cluster cl).slip = r ∧
         (u.tile cl x.tile).draining = false ∧ u.groups = v.groups ∧ u.kernels = v.kernels))) ∧
  (∀ (c : Cluster) (flush : Bool) (ty a b o : Nat) (vals : Sparse W64),
     let m := c.mma flush ty a b o vals
     (∀ i j, i < mxM ty → j < 64 →
       let v := (sgetD vals (64 * i + j) 0).toNat
       let x := (c.chunk flush ty a b (offM o + i) (offN o + j) (offK o) v).1
       sgetD m.1 (64 * i + j) 0 = BitVec.ofNat 64 (c.chunk flush ty a b (offM o + i) (offN o + j) (offK o + chunkSize ty) x).1) ∧
     (∀ k, 64 * mxM ty ≤ k → sgetD m.1 k 0 = sgetD vals k 0) ∧
     (ty = 10 ∨ ty = 11 → ∀ row col k0 acc,
       let sum := ((List.range (chunkSize ty)).map fun i =>
         sext (elemBits ty) (c.elem a row (k0 + i)) * sext (elemBits ty) (c.elem b (k0 + i) col)).sum
       let v := (BitVec.ofNat 32 acc).toInt + sum
       c.chunk flush ty a b row col k0 acc =
         if v < -(2 ^ 31) then (2 ^ 31, fOverflow) else if 2 ^ 31 ≤ v then (2 ^ 31 - 1, fOverflow)
         else ((BitVec.ofInt 32 v).toNat, 0)))

/-- R77, R130 to R137, R145: a VX instruction whose checks pass takes its place at the tail of the vector engine's queue
with VL and its scalar operands as read at issue; the group goes on, and for VXEXTR, VXGETS and VXCHLD waits for the
engine. With eight entries queued it is held. VXSETVL and VXCHBASE act at issue. -/
def Obligations.VectorIssue : Prop :=
  ∀ (s t : State) (id : GroupId) (w : Fields) (g : Group) (kn : Kernel),
    let gk := gkey id
    let cl := gcluster gk
    let c := t.cluster cl
    let entry := fun (op : Nat) (x : VxSpec) =>
      ({ group := gk % 64, no := g.issued, word := w.word 10 op, pc := g.pc, vl := g.vl
         s1 := g.scalarOp x.rs1 w.rs1.toNat, s2 := g.scalarOp x.rs2 w.rs2 } : VxEntry)
    let queued := fun (i : Instr) (op : Nat) (x : VxSpec) (stall : Bool) =>
      Passes s id 10 op w (x.sig w) g kn t → g.active = g.launch → x.fmts w.ty = true →
        (8 ≤ c.vxq.length → exec i s = .next t) ∧
        (c.vxq.length < 8 → ∃ u, exec i s = .next u ∧
          GroupNow u t gk { g.stepped g.regs g.flags with wait := if stall then .engine else .ready } ∧
          ClusterNow u t cl { c with vxq := c.vxq ++ [entry op x] } ∧ u = { t with groups := u.groups, clusters := u.clusters })
    let plain := fun (i : Instr) (op : Nat) (x : VxSpec) => queued i op x false
    let all : Nat → Bool := fun _ => true
    let fp32 : Nat → Bool := fun t => t = 1
    let span := (vxSpan w t gk g).all fun x => !x.1
    let red := fun (i : Instr) (op : Nat) =>
      plain i 0x30 { rd := .v, rs1 := .v, aux := fun a => !a.testBit 3 && (a % 8 = op || a % 8 = 7),
                     fmts := fun t => w.aux % 8 ≠ 7 && redAllows op t }
    (span = true → plain (.vxLd id w) 0x02 { rd := .v, rs1 := .r, aux := auxMask } ∧
      plain (.vxSt id w) 0x03 { rd := .v, rs1 := .r, aux := auxMask }) ∧
    plain (.vxBcast id w) 0x04 { rd := .v, rs1 := Opnd.ofFmt w.ty, aux := auxMask } ∧
    plain (.vxAdd id w) 0x10 (vxVec 2 arithFmt) ∧ plain (.vxSub id w) 0x11 (vxVec 2 arithFmt) ∧
    plain (.vxMul id w) 0x12 (vxVec 2 arithFmt) ∧ plain (.vxFma id w) 0x13 (vxVec 3 arithFmt) ∧
    plain (.vxMin id w) 0x14 (vxVec 2 arithFmt) ∧ plain (.vxMax id w) 0x15 (vxVec 2 arithFmt) ∧
    plain (.vxAbs id w) 0x16 (vxVec 1 arithFmt) ∧ plain (.vxNeg id w) 0x17 (vxVec 1 arithFmt) ∧
    plain (.vxAnd id w) 0x18 (vxVec 2 all) ∧ plain (.vxOr id w) 0x19 (vxVec 2 all) ∧ plain (.vxXor id w) 0x1A (vxVec 2 all) ∧
    plain (.vxNot id w) 0x1B (vxVec 1 all) ∧ plain (.vxCvt id w) 0x1C { rd := .v, rs1 := .v, fmts := fun _ => w.aux % 16 ≤ 12 } ∧
    plain (.vxCmpeq id w) 0x20 vxCmpSpec ∧ plain (.vxCmplt id w) 0x21 vxCmpSpec ∧ plain (.vxCmple id w) 0x22 vxCmpSpec ∧
    plain (.vxSel id w) 0x23 (vxVec 2 all) ∧ plain (.vxMand id w) 0x24 (vxMaskSpec true) ∧ plain (.vxMor id w) 0x25 (vxMaskSpec true) ∧
    plain (.vxMxor id w) 0x26 (vxMaskSpec true) ∧ plain (.vxMnot id w) 0x27 (vxMaskSpec false) ∧
    plain (.vxPerm id w) 0x28 (vxVec 2 fun t => t ≤ 4) ∧
    plain (.vxIota id w) 0x29 { rd := .v, rs1 := .r, rs2 := .r, aux := auxZero, fmts := fun t => t = 3 || t = 4 } ∧
    red (.vxRedAdd id w) 0 ∧ red (.vxRedProduct id w) 1 ∧ red (.vxRedMax id w) 2 ∧ red (.vxRedMin id w) 3 ∧
    red (.vxRedAnd id w) 4 ∧ red (.vxRedOr id w) 5 ∧ red (.vxRedXor id w) 6 ∧
    plain (.vxExp2 id w) 0x38 (vxVec 1 fp32) ∧ plain (.vxLog2 id w) 0x39 (vxVec 1 fp32) ∧
    plain (.vxRcp id w) 0x3A (vxVec 1 fp32) ∧ plain (.vxRsqrt id w) 0x3B (vxVec 1 fp32) ∧
    queued (.vxExtr id w) 0x40 { rd := Opnd.ofFmt w.ty, rs1 := .v, rs2 := .r, aux := auxZero } true ∧
    queued (.vxGets id w) 0x41 { rd := .r, aux := fun a => a ≤ 1, fmts := fmtZero } true ∧
    (Passes s id 10 1 w (VxSpec.sig { rd := .r, rs1 := .r, aux := auxZero } w) g kn t → g.active = g.launch → w.ty = 0 →
      ∃ regs, exec (.vxSetvl id w) s = .next ((t.count 0xA051 1 1).setGroup gk
          { g.stepped regs g.flags with vl := min (g.reg g.lead w.rs1.toNat) 1024 }) ∧
        ∀ l < 32, ∀ r < 256, sgetD regs (256 * l + r) 0 =
          if g.launch.getLsbD l = true ∧ r = w.rd.toNat then BitVec.ofNat 32 (min (g.reg g.lead w.rs1.toNat) 1024)
          else sgetD g.regs (256 * l + r) 0) ∧
    (Passes s id 10 0x48 w (VxSpec.sig { rs1 := .r, aux := fun a => decide (1 ≤ a) && decide (a ≤ 7) } w) g kn t →
      g.active = g.launch → w.ty = 0 → c.vxq.length < 8 →
      ∃ u slots, exec (.vxChld id w) s = .next u ∧ GroupNow u t gk { g.stepped g.regs g.flags with wait := .engine } ∧
        ClusterNow u t cl { c with vxq := c.vxq ++ [entry 0x48 { rs1 := .r }], slots := slots } ∧
        u.slot cl w.aux = { t.slot cl w.aux with loading := (t.slot cl w.aux).loading + 1 } ∧ ∀ j, j ≠ w.aux → u.slot cl j = t.slot cl j) ∧
    (Passes s id 10 0x49 w (VxSpec.sig { rs1 := .r, aux := fun a => decide (a < 32) && decide (a / 4 ≥ 1) } w) g kn t →
      g.active = g.launch → w.ty = 0 →
      ∃ u slots, exec (.vxChbase id w) s = .next u ∧ GroupNow u t gk (g.stepped g.regs g.flags) ∧
        ClusterNow u t cl { c with slots := slots } ∧
        (∀ j, sgetD (u.slot cl (w.aux / 4)).bases j 0 =
          if j = w.aux % 4 then g.reg g.lead w.rs1.toNat else sgetD (t.slot cl (w.aux / 4)).bases j 0) ∧
        ∀ j, j ≠ w.aux / 4 → u.slot cl j = t.slot cl j)

/-- R119, R132, R134 to R138, R145: what the vector engine does to its group's registers. The active elements below L of
an arithmetic, bitwise, transcendental or broadcast instruction take their result, the others stay, and no other
vector register changes; a compare writes the bits of its mask register likewise; VXSEL takes every element below L;
the mask operations act on whole mask registers, of which VM0 stays all ones. VECTOR_ENGINE_START executes the head
of the queue, unless a slip pass is due (log 144): VXST stores the active elements to scratchpad, VXCHLD fills its
slot and lets the group go on, every other instruction acts on its group's registers; the queue moves on by one, and
an empty queue does nothing. -/
def Obligations.VectorEngine : Prop :=
  (∀ (c : Cluster) (flush : Bool) (e : VxEntry) (g : Group),
     let op := wOp e.word
     let fmt := wTy e.word
     let a := g.vreg (wRs1 e.word)
     let b := g.vreg (wRs2 e.word)
     let d := g.vreg (wRs3 e.word)
     let len := min e.vl (4096 / elemBits fmt)
     let u := vxEffect c flush e g
     let active := fun i => g.act (wAux e.word) i
     let m := fun k => g.mask k
     let vec := fun (el : Nat → Nat) =>
       (∀ i < len, active i = true → vget fmt (u.vreg (wRd e.word)) i = containerCode fmt (el i)) ∧
       (∀ i < 4096 / elemBits fmt, active i = false ∨ len ≤ i →
         vget fmt (u.vreg (wRd e.word)) i = vget fmt (g.vreg (wRd e.word)) i)
     fmt ≤ 12 →
     (∀ r, r ≠ wRd e.word → op ≠ 0x40 → u.vreg r = g.vreg r) ∧
     (∀ k, k ≠ wRd e.word → u.mask k = g.mask k) ∧
     (op = 0x04 → vec fun _ => containerCode fmt e.s1.toNat) ∧
     (∀ f, elemFmt fmt = some f → 0x10 ≤ op → op ≤ 0x17 →
       vec fun i => (vxArith op f flush (vget fmt a i) (vget fmt b i) (vget fmt d i)).1) ∧
     (op = 0x18 → vec fun i => (vget fmt a i &&& vget fmt b i) &&& elemMask fmt) ∧
     (op = 0x19 → vec fun i => (vget fmt a i ||| vget fmt b i) &&& elemMask fmt) ∧
     (op = 0x1A → vec fun i => (vget fmt a i ^^^ vget fmt b i) &&& elemMask fmt) ∧
     (op = 0x1B → vec fun i => (vget fmt a i ^^^ (2 ^ elemBits fmt - 1)) &&& elemMask fmt) ∧
     (0x38 ≤ op → op ≤ 0x3B → vec fun i => (vxFunc op flush (vget fmt a i)).1) ∧
     (op = 0x23 → ∀ i < len, vget fmt (u.vreg (wRd e.word)) i = if active i then vget fmt a i else vget fmt b i) ∧
     (op = 0x28 → vec fun i => let k := field b (16 * i) 16; if k < len then vget fmt a k else 0) ∧
     (0x20 ≤ op → op ≤ 0x22 → wRd e.word ≠ 0 → ∀ i < 1024, (u.mask (wRd e.word)).testBit i =
       if i < len ∧ active i = true then (vxCompare op fmt flush (vget fmt a i) (vget fmt b i)).1
       else (m (wRd e.word)).testBit i) ∧
     (wRd e.word ≠ 0 →
       (op = 0x24 → u.mask (wRd e.word) = m (wRs1 e.word) &&& m (wRs2 e.word)) ∧
       (op = 0x25 → u.mask (wRd e.word) = m (wRs1 e.word) ||| m (wRs2 e.word)) ∧
       (op = 0x26 → u.mask (wRd e.word) = m (wRs1 e.word) ^^^ m (wRs2 e.word)) ∧
       (op = 0x27 → u.mask (wRd e.word) = m (wRs1 e.word) ^^^ (2 ^ 1024 - 1)))) ∧
  (∀ (s : State) (cf : Fin 512) (e : VxEntry) (rest : List VxEntry) (g : Group),
     let cl := cf.val
     let gk := 64 * cl + e.group
     let op := wOp e.word
     let z := (s.setCluster cl { s.cluster cl with vxq := rest, slipPace := (s.cluster cl).slipPace - vxClocks op (s.chainStages cl e) }).count 0xA051 1 1
     ((s.cluster cl).vxq = [] → exec (.vectorEngineStart cf) s = .next (s.settleEnds cl)) ∧
     ((s.cluster cl).vxq = e :: rest →
       ((s.cluster cl).passDue = true ∨ s.fenced gk e.no true (vxStores e.word) = true ∨ (op = 0x48 ∧ (s.cluster cl).slotInUse (wAux e.word) = true)) →
       exec (.vectorEngineStart cf) s = .next (s.settleEnds cl)) ∧
     ((s.cluster cl).vxq = e :: rest → (s.cluster cl).passDue = false → s.fenced gk e.no true (vxStores e.word) = false → s.group? gk = some g → s.mem.arrays = [] →
       (op ≠ 0x48 → op ≠ 0x03 → op ≠ 0x30 →
         exec (.vectorEngineStart cf) s = .next ((z.setGroup gk (vxEffect (s.cluster cl) (s.flushOf gk) e g)).settleEnds cl)) ∧
       (op = 0x30 → ∃ k, exec (.vectorEngineStart cf) s =
         .next (State.settleEnds { z.setGroup gk (vxEffect (s.cluster cl) (s.flushOf gk) e g) with counters := k } cl)) ∧
       (op = 0x03 → exec (.vectorEngineStart cf) s = .next ((z.vxStore gk g e).settleEnds cl)) ∧
       (∀ ch, op = 0x48 → (s.cluster cl).slotInUse (wAux e.word) = false → (s.cluster cl).loadChain e.s1.toNat = .ok ch →
         exec (.vectorEngineStart cf) s =
           .next (((z.setSlot cl (wAux e.word) { s.slot cl (wAux e.word) with loading := (s.slot cl (wAux e.word)).loading - 1, chain := some ch }).setGroup gk
             { g with wait := .ready }).settleEnds cl))))

/-- R204, R206 to R210, R214, R222: the fences. SYFENCE and SYREL add their order to the group and go on; SYACQ does so
and, at CLUSTER scope or wider, leaves the L1 empty, as soon as no earlier access of the group is in an engine
(R209); SYFENCEC stalls while an earlier access of the group is not performed, then acquires. -/
def Obligations.Fences : Prop :=
  ∀ (s t : State) (id : GroupId) (w : Fields) (g : Group) (kn : Kernel),
    let gk := gkey id
    let cl := gcluster gk
    let sig := sySig w .zero .zero .zero
    let fenced := fun (f : Fence) => { g.stepped g.regs g.flags with
      fences := (g.fences.filter fun x => t.earlierWork gk x.no || t.netWritesBefore gk x.no) ++ [f] }
    let fence := fun (wb ra : Bool) => ({ no := g.issued, scope := w.scope, writesBefore := wb, readsAfter := ra } : Fence)
    let acquired := fun (u : State) => (1 ≤ w.scope → (u.cluster cl).l1 = []) ∧ u.mem = t.mem ∧
      (w.scope = 0 → (u.cluster cl).l1 = (t.cluster cl).l1)
    let busy := t.earlierWork gk g.issued || (w.scope = 4 && t.netWritesBefore gk g.issued)
    (t.cluster cl).wb = [] → t.group? gk = some g →
    (Passes s id 12 1 w sig g kn t → exec (.syFence id w) s = .next (t.setGroup gk (fenced (fence true true)))) ∧
    (Passes s id 12 2 w sig g kn t → exec (.syRel id w) s = .next (t.setGroup gk (fenced (fence true false)))) ∧
    (Passes s id 12 3 w sig g kn t →
      (t.earlierWork gk g.issued = false →
        ∃ u, exec (.syAcq id w) s = .next u ∧ GroupNow u t gk (fenced (fence false true)) ∧ acquired u) ∧
      (t.earlierWork gk g.issued = true →
        exec (.syAcq id w) s = .next (t.setGroup gk (fenced { fence false true with acquires := true })))) ∧
    (∀ f, s.clusterGroups cl = [(gk, g)] → s.group? gk = some g → g.fences = [f] → f.acquires = true →
      (s.earlierWork gk f.no = true → s.settleFences cl = s) ∧
      (s.earlierWork gk f.no = false → (s.settleFences cl).group? gk = some { g with fences := [{ f with acquires := false }] } ∧
        (1 ≤ f.scope → ((s.settleFences cl).cluster cl).l1 = []))) ∧
    (Passes s id 12 4 w sig g kn t → (w.scope = 4 → kn.remoteFail = none) →
      (busy = true → exec (.syFencec id w) s = .next (t.setGroup gk { g with wait := .stall (w.word 12 4) })) ∧
      (busy = false → ∃ u, exec (.syFencec id w) s = .next u ∧ GroupNow u t gk (g.stepped g.regs g.flags) ∧ acquired u)) ∧
    (∀ a n, Passes s id 12 4 w sig g kn t → w.scope = 4 → kn.remoteFail = some (a, n) →
      exec (.syFencec id w) s = .next (t.takeFault gk g (w.word 12 4) { code := 0x606, arg0 := a, arg1 := n }))

/-- R207, R211 to R214, R216, R224: SYTRD reads a tally of the group's die to the pair RD; SYTALLY goes on, acquiring,
once the tally is at least the awaited value and stalls below it; SYTADD adds its amount, modulo 2^64, to the tally
its reference names; an index or reference that names none faults with TALLY_RANGE; the wait limit faults a stalled
SYTALLY. -/
def Obligations.Tallies : Prop :=
  ∀ (s t : State) (id : GroupId) (w : Fields) (g : Group) (kn : Kernel) (base : Nat),
    let gk := gkey id
    let cl := gcluster gk
    let die := clusterDie cl
    let i := g.reg g.lead w.rs1.toNat
    let want := g.pair g.lead w.rs2
    let value := fun (d n : Nat) => (sgetD (t.tally d).vals n 0)
    t.group? gk = some g → (t.cluster cl).wb = [] → t.earlierWork gk g.issued = false → t.netWritesBefore gk g.issued = false →
    (Passes s id 12 0x11 w (sySig w .p .r .zero) g kn t → i < kn.man.tallies → sget? die kn.tallyBase = some base →
      ∃ regs, exec (.syTrd id w) s = .next (t.setGroup gk (g.stepped regs g.flags)) ∧
        LaunchRegs regs g w.rd.toNat (value die (base + i)).toNat) ∧
    (Passes s id 12 0x10 w (sySig w .zero .r .p) g kn t → i < kn.man.tallies → sget? die kn.tallyBase = some base →
      (want ≤ (value die (base + i)).toNat → ∃ u, exec (.syTally id w) s = .next u ∧
        GroupNow u t gk (g.stepped g.regs g.flags) ∧ (1 ≤ w.scope → (u.cluster cl).l1 = []) ∧ u.mem = t.mem ∧ u.tallies = t.tallies) ∧
      ((value die (base + i)).toNat < want →
        exec (.syTally id w) s = .next (t.setGroup gk { g with wait := .stall (w.word 12 0x10) }))) ∧
    (kn.man.tallies ≤ i →
      (Passes s id 12 0x11 w (sySig w .p .r .zero) g kn t → exec (.syTrd id w) s =
        .next (t.takeFault gk g (w.word 12 0x11) { code := 0x604, arg0 := i, arg1 := kn.man.tallies })) ∧
      (Passes s id 12 0x10 w (sySig w .zero .r .p) g kn t → exec (.syTally id w) s =
        .next (t.takeFault gk g (w.word 12 0x10) { code := 0x604, arg0 := i, arg1 := kn.man.tallies }))) ∧
    (∀ d n, Passes s id 12 0x12 w (sySig w .zero .r .p) g kn t → kn.tallyOf i die = some (d, n) →
      ∃ u, exec (.syTadd id w) s = .next u ∧ GroupNow u t gk (g.stepped g.regs g.flags) ∧
        sgetD (u.tally d).vals n 0 = value d n + BitVec.ofNat 64 want ∧
        (∀ e m, e ≠ d ∨ m ≠ n → sgetD (u.tally e).vals m 0 = value e m) ∧
        u = { t with groups := u.groups, tallies := u.tallies }) ∧
    dictDefault 0xA071 1 = 0 ∧ (∃ ty acc, objInfo 0xA071 1 = some (ty, 2, acc)) ∧
    (setting s 0xA071 1 = 0 → exec (.tallyWaitTimeout id) s = .next s) ∧
    (∀ (h : Group) (word : W64) (k : Kernel), s.group? gk = some h → h.wait = .stall word → s.kernel? h.kernel = some k →
      h.halted = false → setting s 0xA071 1 ≠ 0 → field word.toNat 52 12 = 0xC10 →
      h.reg h.lead (field word.toNat 24 8) < k.man.tallies → sget? die k.tallyBase = some base →
      let idx := h.reg h.lead (field word.toNat 24 8)
      let lim := h.pair h.lead (field word.toNat 16 8)
      (lim ≤ (sgetD (s.tally die).vals (base + idx) 0).toNat → exec (.tallyWaitTimeout id) s = .next s) ∧
      ((sgetD (s.tally die).vals (base + idx) 0).toNat < lim → exec (.tallyWaitTimeout id) s =
        .next ((s.count 0xA072 5 1).takeFault gk h word { code := 0x605, arg0 := idx, arg1 := lim })))

/-- R123 to R126, R174, R217, R218: a transfer whose checks at issue pass takes its place in the transfer unit with its
operands as read at issue, and the group goes on; 16 in progress hold the group. The addresses and counts of TXRED
are those of log 42. -/
def Obligations.TransferIssue : Prop :=
  ∀ (s t : State) (id : GroupId) (w : Fields) (g : Group) (kn : Kernel),
    let gk := gkey id
    let cl := gcluster gk
    let c := t.cluster cl
    let pair := fun r => BitVec.ofNat 64 (g.pair g.lead r)
    let tallied := w.aux.testBit 0
    let tile := fun (op : Nat) => ({ group := gk % 64, no := g.issued, kernel := g.kernel, word := w.word 13 op, pc := g.pc
                                     addr := pair w.rs1.toNat, stride := pair w.rs2, count := 0, handle := pair w.rs3, off := 0 } : Xfer)
    let linear := fun (op : Nat) (off : Nat) (tally : Option W32) =>
      ({ group := gk % 64, no := g.issued, kernel := g.kernel, word := w.word 13 op, pc := g.pc, addr := pair w.rs1.toNat
         stride := 0, count := g.reg g.lead w.rs2, handle := 0, off := off, tally := tally } : Xfer)
    let off := g.reg g.lead w.rs3
    let reference : Option W32 := if tallied then some (BitVec.ofNat 32 (g.reg g.lead w.rd.toNat)) else none
    let queued := fun (i : Instr) (x : Xfer) =>
      (16 ≤ c.xfers.length → exec i s = .next t) ∧
      (c.xfers.length < 16 → ∃ u, exec i s = .next u ∧ GroupNow u t gk (g.stepped g.regs g.flags) ∧
        ClusterNow u t cl { c with xfers := c.xfers ++ [x] } ∧ u = { t with groups := u.groups, clusters := u.clusters })
    let tiles := fun (i : Instr) (op : Nat) =>
      Passes s id 13 op w { legal := !w.ri && w.ty = 0 && w.scope = 0 && w.hint ≠ 3 && w.aux ≤ 1, rs1 := .p, rs2 := .p, rs3 := .p } g kn t →
        (tile op).tileChecks c.spadSize = none → queued i (tile op)
    let lines := fun (i : Instr) (op : Nat) =>
      Passes s id 13 op w { legal := !w.ri && w.ty = 0 && w.scope = 0 && w.hint ≠ 3 && w.aux = 0, rs1 := .p, rs2 := .r, rs3 := .r } g kn t →
        (linear op off none).linearChecks c.spadSize 4 = none → queued i (linear op off none)
    let writes := fun (i : Instr) (op : Nat) (legal : Bool) (unit : Nat) =>
      Passes s id 13 op w { legal := !w.ri && !w.space && w.scope ≤ 4 && legal, rd := if tallied then .r else .zero
                            rs1 := .p, rs2 := .r, rs3 := .r } g kn t →
        (linear op off reference).linearChecks c.spadSize unit = none → (∀ r, reference = some r → badReference r.toNat = false) →
          queued i (linear op off reference)
    let red := fun (i : Instr) (op : Nat) => adderAllows op w.ty = true →
      writes i 0x11 (w.ty < 8 && w.hint = 0 && field w.aux 5 3 = op && field w.aux 1 4 = 0) (max 4 (adderSize w.ty))
    g.active = g.launch → c.wb = [] → t.group? gk = some g →
    tiles (.txLd id w) 1 ∧ tiles (.txSt id w) 2 ∧ lines (.txLdl id w) 3 ∧ lines (.txStl id w) 4 ∧
    writes (.txPut id w) 0x10 (w.ty = 0 && w.hint ≠ 3 && w.aux < 2) 4 ∧
    red (.txRedAdd id w) 0 ∧ red (.txRedMin id w) 1 ∧ red (.txRedMax id w) 2 ∧ red (.txRedAnd id w) 3 ∧
    red (.txRedOr id w) 4 ∧ red (.txRedXor id w) 5 ∧
    (Passes s id 13 0x12 w { legal := !w.ri && w.ty = 0 && w.mod = 0 && w.aux = 0, rs1 := .p, rs2 := .r } g kn t → kn.feature 4 = true →
      (pair w.rs1.toNat).toNat % 128 = 0 → g.reg g.lead w.rs2 % 128 = 0 → 128 ≤ g.reg g.lead w.rs2 → g.reg g.lead w.rs2 ≤ 65536 →
        queued (.txDead id w) (linear 0x12 0 none))

/-- R124, R125, R205, R208, R264: TRANSFER_LINE_PART performs the next line part of a transfer of a running kernel that
nothing keeps back. A part within scratchpad copies its bytes; another is translated and performed, faults, or
waits; after its last part the transfer leaves the unit. A place with no transfer does nothing. The line parts of a
linear transfer are its bytes in order, each within one 128-byte line of the address side, and a store within one
page of scratchpad leaves every byte outside it unchanged. One transfer of a group progresses at a time (log 120);
the extent of a tile is that of log 70. -/
def Obligations.TransferLineParts : Prop :=
  (∀ (s : State) (cf : Fin 512) (i : Fin 16) (x : Xfer) (kn : Kernel) (p : TxPart),
     let cl := cf.val
     let c := s.cluster cl
     let gk := 64 * cl + x.group
     (c.xfers[i.val]? = none → exec (.transferLinePart cf i) s = .next s) ∧
     (c.xfers[i.val]? = some x → s.mem.arrays = [] → s.kernel? x.kernel = some kn → kn.phase = .running →
       (∀ y ∈ c.xfers, y.group = x.group → x.no ≤ y.no) → (∀ f ∈ s.stalled, f.group = gk → f.xfer ≠ some x.no) →
       (s.earlierWork gk x.no || s.netOpsBefore gk x.no) = false → s.fenced gk x.no true true = false →
       x.parts[x.pos]? = some p →
       (txSpace x.word = true → txWrites x.word = false → exec (.transferLinePart cf i) s =
         .next (((s.scatter gk x p (readBytes c.spad p.addr p.len)).count 0xA041 6 p.len).txAdvance cl x x.parts.length)) ∧
       (txSpace x.word = true → txWrites x.word = true → exec (.transferLinePart cf i) s =
         .next (((s.spadStore gk (p.len / 256 + 2) p.addr (s.gather cl x p)).count 0xA041 6 p.len).txAdvance cl x x.parts.length)) ∧
       (txSpace x.word = false → ∀ t,
         (∀ f, s.translate cl kn p.addr (txAccess x.word) (gk, some x.no) = (t, .fault f) →
           exec (.transferLinePart cf i) s = .next (t.engineFault gk x.pc x.word (some x.no) f).1) ∧
         (∀ pa b z, s.translate cl kn p.addr (txAccess x.word) (gk, some x.no) = (t, .ok pa b z) →
           (∀ u, t.txPart gk x kn p pa (b ≠ 0) z = (u, .done) →
             exec (.transferLinePart cf i) s = .next (u.txAdvance cl x x.parts.length)) ∧
           (∀ u f, t.txPart gk x kn p pa (b ≠ 0) z = (u, .fault f) →
             exec (.transferLinePart cf i) s = .next (u.engineFault gk x.pc x.word (some x.no) f).1)))) ∧
     (∀ (t : State), x.parts.length ≤ x.pos + 1 →
       t.txAdvance cl x x.parts.length = (t.setCluster cl { t.cluster cl with
         xfers := (t.cluster cl).xfers.filter fun y => !(y.group = x.group && y.no = x.no) }).settleEnds cl)) ∧
  ((∀ (a n : Nat), let ps := lineParts (n / 128 + 2) a n
     (ps.map Prod.snd).sum = n ∧ (∀ p ∈ ps, 0 < p.2 ∧ p.1 / 128 = (p.1 + p.2 - 1) / 128) ∧
     ∀ k < ps.length, ∃ p, ps[k]? = some p ∧ p.1 = a + ((ps.take k).map Prod.snd).sum) ∧
   (∀ (m : List Host.Cell) (a : Nat) (b : Bytes) (x : Nat),
     readByte (writeBytes m a b) x = if a ≤ x ∧ x < a + b.length then b.getD (x - a) 0 else readByte m x) ∧
   (∀ (m : List Host.Cell) (a mask data n x : Nat),
     readByte (writeMasked m a mask data n) x =
       if a ≤ x ∧ x < a + n ∧ mask.testBit (x - a) = true then BitVec.ofNat 8 (data >>> (8 * (x - a))) else readByte m x) ∧
   (∀ (m : List Host.Cell) (a : Nat) (v : Byte), Memory.wf m = true → Memory.wf (writeByte m a v) = true ∧
     (v = emptyByte → sget? a (writeByte m a v) = none)))

/-- R325 to R327, R366, R415: the commands of a launch queue. A doorbell within the ring moves the target forward and
resumes fetching, one beyond it changes nothing; RESTART starts the ring again; a NOP record and an undefined one
are taken in the queue's turn and finish at once; a record that does not match is re-read, after the eighth time the
queue waits; a failed read stops the queue and takes nothing. With no other queue of the partition to fetch, it is
the queue's turn. The record a host ring answers is the command's operand (log 107); the queue whose turn it is is
log 155. -/
def Obligations.QueueCommands : Prop :=
  ∀ (s t : State) (q : QueueId) (via : Requester) (v : W32) (host : HostRecord) (r : Nat),
    let k := 64 * q.part.val + q.queue.val
    let x := s.queue k
    let y := t.queue k
    let n := v.toNat
    let size := 2 ^ x.log2size
    let dist := fun (b : Nat) => (b + size - x.qhead % size) % size
    let wraps := (y.qhead + 1) % 2 ^ y.log2size = 0
    let taken := { y with
      qhead := (y.qhead + 1) % 2 ^ y.log2size, qseq := y.qseq + 1, phase := if wraps then !y.phase else y.phase, rereads := 0 }
    let turned := { t with host := { t.host with
      lastQueue := sset q.part.val q.queue.val t.host.lastQueue, launchWait := sdel q.part.val t.host.launchWait } }
    let finished := ((turned.setQueue k taken).count 0x6050 4 1).setQueue k { taken with qdone := BitVec.ofNat 32 (field r 288 32) }
    let fits := fun (y : Queue) => r.testBit 256 = y.phase ∧ field r 288 32 = y.qseq.toNat
    let opcode := field r 272 8
    (s.visible via (.doorbell k) = true →
      (size ≤ n → exec (.doorbell q via v) s = .next (s.setQueue k x)) ∧
      (n < size → exec (.doorbell q via v) s = .next (s.setQueue k { x with
        target := if dist n > dist x.target then n else x.target, waiting := false, rereads := 0 }))) ∧
    (s.visible via (.doorbell k) = false → exec (.doorbell q via v) s = .next s) ∧
    (s.visible via (.queue k 8) = true → v.getLsbD 30 = true →
      exec (.qcfgRestart q via v) s = .next (s.setQueue k { x with
        qhead := 0, phase := true, target := 0, rereads := 0
        ctx := if x.enable then x.ctx else field n 16 6
        log2size := if !x.enable && decide (4 ≤ field n 0 5) && decide (field n 0 5 ≤ 16) then field n 0 5 else x.log2size
        enable := v.getLsbD 31, stopped := !v.getLsbD 31 && x.stopped })) ∧
    (s.fetches k = false →
      exec (.commandNop q host) s = .next s ∧ exec (.undefinedRecord q host) s = .next s ∧ exec (.recordReread q host) s = .next s) ∧
    (s.turn k = false → exec (.commandNop q host) s = .next s ∧ exec (.undefinedRecord q host) s = .next s) ∧
    (s.fetches k = true → (∀ j, j < 64 → j ≠ q.queue.val → s.fetches (64 * q.part.val + j) = false) → s.turn k = true) ∧
    (s.fetches k = true → s.ringRead k host = (t, .record r) →
      (s.turn k = true → fits x → opcode = 2 → exec (.commandNop q host) s = .next finished) ∧
      (s.turn k = true → fits x → opcode ≠ 1 → opcode ≠ 2 → exec (.undefinedRecord q host) s = .next (finished.count 0x6050 7 1)) ∧
      (fits y → exec (.recordReread q host) s = .next (t.count 0x6050 3 1)) ∧
      (¬ fits y → exec (.recordReread q host) s = .next ((t.count 0x6050 3 1).setQueue k { y with
        rereads := y.rereads + 1, waiting := decide (8 ≤ y.rereads + 1) }))) ∧
    (s.fetches k = true → s.turn k = true → s.ringRead k host = (t, .failed) →
      ∀ i ∈ [Instr.commandNop q host, .undefinedRecord q host, .recordReread q host],
        exec i s = .next (t.setQueue k { y with enable := false, fetchErr := true })) ∧
    (∀ o h, window (x.qbase.toNat + 64 * x.qhead) = .host (s.partPort q.part.val) o → s.portOpen (s.partPort q.part.val) = true →
      s.ringRead k (.record h) = (s, .record h.toNat) ∧ s.ringRead k .failed = (s, .failed))

/-- R48 to R51, R59, R326, R329: a launch record that matches is taken, and its kernel accepted with the plan of its
manifest or refused with the first reason, counted; a completion address that cannot be translated or does not suit
its scope loses the record; while what it needs is on its way it waits, and no other queue of the partition goes
before it. A group starts at its landing's entry with every lane active, its registers zero. Image bytes outside
node memory are the command's operand, and launch translations use the first cluster's micro-TLB (logs 44, 47). -/
def Obligations.Launches : Prop :=
  ∀ (s t u v : State) (q : QueueId) (host : HostRecord) (image : Bytes) (r : Nat),
    let p := q.part.val
    let k := 64 * p + q.queue.val
    let d := descriptorOf (r % 2 ^ 256)
    let ctx := (t.queue k).ctx
    let lost := fun (u : State) => (u.takeRecord k).completionLost k (field r 288 32)
    let held := fun (u : State) => { u with host := { u.host with launchWait := sset p q.queue.val u.host.launchWait } }
    s.fetches k = true → s.turn k = true → s.ringRead k host = (t, .record r) → r.testBit 256 = (s.queue k).phase →
    field r 288 32 = (s.queue k).qseq.toNat → field r 272 8 = 1 →
    (∀ f, t.translateAs (t.firstCluster p) p ctx (fun _ => true) d.completion 1 (launchWaiter (t.firstCluster p), none) = (u, .fault f) →
      exec (.launch q host image) s = .next (lost u)) ∧
    (t.translateAs (t.firstCluster p) p ctx (fun _ => true) d.completion 1 (launchWaiter (t.firstCluster p), none) = (u, .wait) →
      exec (.launch q host image) s = .next (held u)) ∧
    (∀ j, j < 64 → j ≠ q.queue.val → s.fetches k = true → (held s).turn (64 * p + j) = false) ∧
    (∀ pa b z, t.translateAs (t.firstCluster p) p ctx (fun _ => true) d.completion 1 (launchWaiter (t.firstCluster p), none) = (u, .ok pa b z) →
      let kn := launchKernel p q.queue.val r ctx pa z d
      let refused := fun (w : State) (reason : Nat) (flush : Bool) => ∀ z, w.refuse kn reason flush = some z →
        exec (.launch q host image) s = .next z
      (d.completion % 64 ≠ 0 → exec (.launch q host image) s = .next (lost u)) ∧
      (d.completion % 64 = 0 →
        u.completionPlace p pa (recScope r) (recScope r = 3 || (recScope r = 2 && !u.feature p 66)) = true →
        (u.headerReserved p r = true → refused (u.takeRecord k) 0x02 false) ∧
        (u.headerReserved p r = false →
          (u.readImage p ctx d.image image = (v, .later) → exec (.launch q host image) s = .next (held v)) ∧
          (u.readImage p ctx d.image image = (v, .bad) → refused (v.takeRecord k) 0x01 true) ∧
          (∀ img, u.readImage p ctx d.image image = (v, .bytes img) →
            (∀ e, v.planLaunch p d img = .error e → refused (v.takeRecord k) e true) ∧
            (∀ pl, v.planLaunch p d img = .ok pl →
              exec (.launch q host image) s = .next ((v.takeRecord k).accept kn pl)))))) ∧
    (∀ id kn pl lc x, let l := pl.man.landing x.landing
      let g := startGroup id kn pl lc x
      g.pc.toNat = (kn.image.toNat + pl.header.codeOff + l.entry) % 2 ^ 64 ∧ g.active = 0xFFFFFFFF ∧ g.launch = 0xFFFFFFFF ∧
      g.regs = [] ∧ g.vregs = [] ∧ g.flags = 0 ∧ g.vl = 128 ∧ g.phase = l.phase0 ∧ g.regCount = l.regs ∧ g.vregCount = l.vregs ∧
      g.accumCount = l.accum ∧ g.stack = [] ∧ g.wait = .ready ∧ g.kernel = id)

/-- R40, R222, R328 to R330, R332, R335, R336: a kernel completes once its groups have exited or it was aborted, its
write buffers are drained and its network operations answered: bytes 0 to 55 of its record are written, DONE after
them, and what it held is freed. One that is still running, or is waited for, changes nothing; a PEER completion
waits for its flush read, and one whose flush cannot be sent finishes with its status changed. SESSION_CTL. OPEN
takes a new session id and clears the function's queues, refused while a session is attached or kernels run; with
FORCE it aborts those kernels first; REATTACH needs the orphaned session's id; CLOSE needs every queue disabled and
leaves no session. A refusal changes the result alone. The order of the session checks is the model's (log 107). -/
def Obligations.CompletionAndSessions : Prop :=
  (∀ (s t u v : State) (k : Nat) (kn kn' : Kernel),
     (s.kernel? k = none → ∀ ok, exec (.kernelCompletion k) s = .next s ∧ exec (.peerFlushReadDone k ok) s = .next s) ∧
     (s.kernel? k = some kn →
       (kn.refused = true ∨ s.kernelEnded k kn = false → exec (.kernelCompletion k) s = .next s) ∧
       (kn.refused = false → s.kernelEnded k kn = true → s.drainKernel kn = some t →
         (t.kernelOpsOut k = true → exec (.kernelCompletion k) s = .next t) ∧
         (t.kernelOpsOut k = false → kn.allClusters.foldl (fun s c => s.settleEnds c) t = u → kn.remoteFail = none →
           u.kernel? k = some kn → u.settleBubbles (u.closing k kn) = (v, kn') →
           (kn'.silent = true → exec (.kernelCompletion k) s = .next (v.freeKernel k kn')) ∧
           (kn'.silent = false → ∀ x, v.recordWrite kn' 0 (toLE 56 (kn'.record kn'.statusWord)) = some (x, true) →
             (kn'.flushes = false → ∀ y, x.writeDone kn' = some y →
               exec (.kernelCompletion k) s = .next (y.freeKernel k kn')) ∧
             (kn'.flushes = true → x.flushSendable kn' = true → exec (.kernelCompletion k) s =
               .next ((x.sendFlush k kn').setKernel k { kn' with phase := .flushing })) ∧
             (kn'.flushes = true → x.flushSendable kn' = false → ∀ y w,
               x.recordWrite kn' 0 (toLE 56 (kn'.record (flushFailed kn'.statusWord))) = some (y, true) → y.writeDone kn' = some w →
                 exec (.kernelCompletion k) s = .next (w.freeKernel k kn'))))) ∧
       (∀ ok, kn.phase ≠ .flushing → exec (.peerFlushReadDone k ok) s = .next s) ∧
       (kn.phase = .flushing → s.takeFlush k = some t →
         (∀ y, t.writeDone kn = some y → exec (.peerFlushReadDone k true) s = .next (y.freeKernel k kn)) ∧
         (∀ x y, t.recordWrite kn 0 (toLE 56 (kn.record (flushFailed kn.statusWord))) = some (x, true) → x.writeDone kn = some y →
           exec (.peerFlushReadDone k false) s = .next (y.freeKernel k kn)))) ∧
     (∀ id, (∀ e ∈ (s.freeKernel id kn).groups, e.2.kernel ≠ id) ∧ (s.freeKernel id kn).kernel? id = none ∧
       (∀ c ∈ kn.allClusters, ((s.freeKernel id kn).cluster c).kernel = none) ∧
       (∀ e ∈ (s.freeKernel id kn).tallies, ∀ r ∈ e.2.runs, r.2.2 ≠ id))) ∧
  (∀ (s : State) (fn : Fn),
     let f := s.fn fn.port.val fn.vf.val
     let put := fun (x : FnState) => s.setFn fn.port.val fn.vf.val x
     let refused := fun (i : Instr) (n : Nat) => exec i s = .next (put { f with sessionResult := n })
     let told := fun (u : State) (st : Nat) => f.sessionState ≠ st → ∀ p ∈ s.ownParts fn, p < 8 →
       sgetD u.host.irqPending (520 + p) false = true ∨ .msix (s.partPort p) (s.partVf p) (field (sgetD s.host.routes (520 + p) 0).toNat 16 6) ∈ u.out
     let opened := fun (u : State) =>
       u.fn fn.port.val fn.vf.val = { f with sessionId := BitVec.ofNat 64 s.host.nextSession, sessionState := 1, sessionResult := 0 } ∧
       u.host.nextSession = s.host.nextSession + 1 ∧
       (∀ k ∈ s.fnQueues fn, u.queue k = { s.queue k with qbase := 0, qseq := 0, qhead := 0, qdone := 0 }) ∧
       (∀ k, k ∉ s.fnQueues fn → u.queue k = s.queue k) ∧ told u 1
     let moved := fun (u : State) (st : Nat) =>
       u.fn fn.port.val fn.vf.val = { f with sessionState := st, sessionResult := 0 } ∧
       (∀ k, u.queue k = s.queue k) ∧ u.kernels = s.kernels ∧ told u st
     s.visible (.function fn) (.fnCtl fn 8) = true →
     (f.sessionState = 1 → refused (.sessionCtlOpen fn) 3 ∧ refused (.sessionCtlOpenForce fn) 3 ∧ refused (.sessionCtlReattach fn) 3) ∧
     (f.sessionState ≠ 1 →
       (s.fnKernels fn ≠ [] → refused (.sessionCtlOpen fn) 1) ∧
       (s.fnKernels fn = [] → ∃ u, exec (.sessionCtlOpen fn) s = .next u ∧ opened u ∧ u.kernels = s.kernels) ∧
       (s.fnKernels fn = [] → ∃ u, exec (.sessionCtlOpenForce fn) s = .next u ∧ opened u ∧ u.kernels = s.kernels) ∧
       (∀ k, s.fnKernels fn = [k] → ∃ u kn, exec (.sessionCtlOpenForce fn) s = .next u ∧ opened u ∧
         u.kernel? k = some kn ∧ kn.silent = true ∧ kn.phase ≠ .running)) ∧
     (f.sessionState = 0 ∨ (f.sessionState = 2 ∧ f.sessionArg ≠ f.sessionId) → refused (.sessionCtlReattach fn) 2) ∧
     (f.sessionState = 2 → f.sessionArg = f.sessionId →
       ∃ u, exec (.sessionCtlReattach fn) s = .next u ∧ moved u 1 ∧ u.counter 0x6050 2 = (s.counter 0x6050 2 + 1) % 2 ^ 64) ∧
     ((s.fnQueues fn).any (fun k => (s.queue k).enable) = true → refused (.sessionCtlClose fn) 1) ∧
     ((s.fnQueues fn).any (fun k => (s.queue k).enable) = false →
       ∃ u, exec (.sessionCtlClose fn) s = .next u ∧ u.fn fn.port.val fn.vf.val = { f with sessionId := 0, sessionState := 0, sessionResult := 0 } ∧
         (∀ k, u.queue k = s.queue k) ∧ u.kernels = s.kernels ∧ told u 0))

/-- R320, R322, R324, R340, R415: requests of the PCIe ports. BAR4 reads, writes and AtomicOps reach B4BASE plus the
offset where the function may reach it and complete with Unsupported Request elsewhere (a write is discarded), which
a function that exists notes in its AER status; configuration requests read and write the function's words (AER
status is cleared by ones, a power state other than D0 and D3hot is not taken); a root port serves its partitions'
memory and INTSEND, and records an event for any other request. The layout of the configuration words is that of log
12, and what a root port answers that of log 158. -/
def Obligations.PcieRequests : Prop :=
  ∀ (s t : State) (fn : Fn) (off : BitVec 48) (len : BitVec 13) (data b : Bytes) (poison tomb : Bool) (a k v : Nat)
    (o c : W64) (size : AtomicSize) (port : Fin 2),
    let agent := 10 + fn.port.val
    let bytes := match size with
      | .b32 => 4
      | _ => 8
    let f := s.fn fn.port.val fn.vf.val
    let denied := fun (u v : State) => if u.fnPresent fn = false then v = u.send (.pcieUnsupported fn) else
      v = { u with host := { u.host with fns := v.host.fns }, out := .pcieUnsupported fn :: u.out } ∧
      (∀ p w, ¬ (p = fn.port.val ∧ w = fn.vf.val) → p < 2 → w < 9 → v.fn p w = u.fn p w) ∧
      (∀ i, i ≠ capAer / 4 + 1 → (v.fn fn.port.val fn.vf.val).word i = (u.fn fn.port.val fn.vf.val).word i) ∧
      (v.fn fn.port.val fn.vf.val).word (capAer / 4 + 1) = (u.fn fn.port.val fn.vf.val).word (capAer / 4 + 1) ||| 2 ^ 20
    let rejected := fun (u : State) => (u.send (.rootUnsupported port.val)).event
      { cls := 6, code := 0x70, die := 6 + port.val, location := port.val, data := 2 ^ 20 }
    let atomics := [(Instr.atomicopFetchadd fn off size o, 0, 0), (.atomicopSwap fn off size o, 6, 0), (.atomicopCas fn off size o c, 7, c.toNat)]
    let root := fun (i : InboundReq) => exec (.rootPortInboundRequest port i) s
    let held := fun (a n : Nat) => decide (0 < n) && (s.portParts port.val).any fun p => s.rangeHeld p a n
    (∀ n, s.bar4Target fn off.toNat n = some a → s.fnLive fn = true ∧ s.boot.stage = 0x0A ∧ 0 < n ∧ off.toNat + n ≤ 2 ^ f.bar4 ∧
      a = f.b4base.toNat + off.toNat ∧ (fn.vf.val ≠ 0 → s.fnServes fn (fn.vf.val - 1) = true ∧ s.rangeHeld (fn.vf.val - 1) a n = true)) ∧
    (s.bar4Target fn off.toNat len.toNat = none → ∃ v, exec (.bar4Read fn off len) s = .next v ∧ denied s v) ∧
    (s.bar4Target fn off.toNat len.toNat = some a → s.hubReadRange agent a len.toNat = some (t, b, poison, tomb) →
      (tomb = true → ∃ v, exec (.bar4Read fn off len) s = .next v ∧ denied t v) ∧
      (tomb = false → exec (.bar4Read fn off len) s = .next (t.send (.pcieCompletion fn b poison)))) ∧
    (s.bar4Target fn off.toNat data.length = none → exec (.bar4Write fn off data) s = .next s) ∧
    (s.bar4Target fn off.toNat data.length = some a → s.hubWriteRange agent a data = some t → exec (.bar4Write fn off data) s = .next t) ∧
    (∀ i ∈ atomics,
      (size = .b128 ∨ s.bar4Target fn off.toNat bytes = none → ∃ v, exec i.1 s = .next v ∧ denied s v) ∧
      (size ≠ .b128 → s.bar4Target fn off.toNat bytes = some a → s.keyAddr a = some k →
        s.adderAtomic agent k i.2.1 (if bytes = 8 then 4 else 5) (o.toNat % 2 ^ (8 * bytes)) (i.2.2 % 2 ^ (8 * bytes)) = some (t, .old v) →
          exec i.1 s = .next (t.send (.pcieCompletion fn (toLE bytes v) false)))) ∧
    (∀ (at_ : BitVec 12) (w : W32) (e : BitVec 4), let i := at_.toNat / 4
      (s.fnPresent fn = false → ∀ x, exec (.configurationRequest fn at_ x) s = .next (s.send (.pcieUnsupported fn))) ∧
      (s.fnPresent fn = true → ∀ ro rw, s.cfgWord fn i = some (ro, rw) →
        let m := enableMask e.toNat &&& rw
        let merged := (f.word i &&& ((2 ^ 32 - 1) ^^^ m)) ||| (w.toNat &&& m)
        exec (.configurationRequest fn at_ .read) s = .next (s.send (.cfgCompletion fn (BitVec.ofNat 32 (ro ||| (f.word i &&& rw))))) ∧
        ∃ u : State, exec (.configurationRequest fn at_ (.write w e)) s = .next (u.send (.cfgCompletion fn 0)) ∧
          (u.fn fn.port.val fn.vf.val).word i =
            (if i = capAer / 4 + 1 ∨ i = capAer / 4 + 4 then f.word i &&& ((2 ^ 32 - 1) ^^^ (w.toNat &&& m))
             else if i = capPm / 4 + 1 ∧ merged % 4 ≠ 0 ∧ merged % 4 ≠ 3 then f.word i else merged) ∧ u.mem = s.mem)) ∧
    (s.rootRole port.val = false ∨ s.linkUp port.val = false → ∀ i, root i = .next s) ∧
    (s.rootRole port.val = true → s.linkUp port.val = true →
      root .other = .next (rejected s) ∧
      (held off.toNat len.toNat = false → root (.memRead off len) = .next (rejected s)) ∧
      (held off.toNat len.toNat = true → s.hubReadRange (10 + port.val) off.toNat len.toNat = some (t, b, poison, false) →
        root (.memRead off len) = .next (t.send (.rootCompletion port.val b poison))) ∧
      (held off.toNat data.length = true → s.hubWriteRange (10 + port.val) off.toNat data = some t → root (.memWrite off data) = .next t) ∧
      (held off.toNat data.length = false →
        root (.memWrite off data) = .next (if off.toNat = 0x100CA0010000 ∧ data.length = 4 then s.intSend (fromLE data) else rejected s)))

/-- R331, R333, R334, R340: a host-window read ends with the bytes of its completion, or poisoned by an error status or
the timeout, which the requester's AER notes (the layout is the model's, log 12; a root port's event, log 158); a
root port without a link trains up when it is retrained; a link that comes up sends the interrupts that waited. A
host reset of an endpoint's port and an FLR return the functions' PCIe state to reset, stop their queues and keep
what they hold, drop their partitions' host translations and orphan their sessions; memory and kernels go on. BAR4
takes the size set in 6021h/01 at a host reset alone. A root port has only a loss of its link, which leaves
functions, queues and memory as they are. That an FLR of a PF covers its VFs is the model's reading (log 100). -/
def Obligations.HostReadsLinksAndResets : Prop :=
  (∀ (s : State) (port : Fin 2) (tag : Nat) (r : HostRead) (b : Bytes) (rate lanes : BitVec 8) (trained : Bool),
     let ended := fun (u : State) => (State.nextRead { u with host := { u.host with reads := u.host.reads.filter fun x => x.tag ≠ r.tag } } r.port).invalEnds r.port r.tag
     let aer := capAer / 4 + 1
     let noted := if s.rootRole port.val then s.event { cls := 6, code := 0x70, die := 6 + port.val, location := port.val, data := 2 ^ 14 }
       else s.modFn port.val r.vf fun f => { f with cfg := sput f.cfg aer (BitVec.ofNat 32 (f.word aer ||| 2 ^ 14)) (cfgReset aer) }
     let p := s.port port.val
     (s.readOf port.val tag = none → ∀ x, exec (.hostWindowReadCompletion port tag x) s = .next s ∧ exec (.completionTimeout port tag) s = .next s) ∧
     (s.readOf port.val tag = some r → (∀ k, r.user ≠ .flush k) →
       exec (.hostWindowReadCompletion port tag (.ok b)) s = .next ((ended s).hostArrives (slice b 0 r.len) (!decide (r.len ≤ b.length)) r.user) ∧
       exec (.hostWindowReadCompletion port tag .unsupportedRequest) s = .next ((ended s).hostArrives [] true r.user) ∧
       exec (.hostWindowReadCompletion port tag .completerAbort) s = .next ((ended s).hostArrives [] true r.user) ∧
       exec (.completionTimeout port tag) s = .next ((ended noted).hostArrives [] true r.user)) ∧
     (∀ k kn y, s.readOf port.val tag = some r → r.user = .flush k → s.kernel? k = some kn → (ended s).writeDone kn = some y → b.length = r.len →
       exec (.hostWindowReadCompletion port tag (.ok b)) s = .next (y.freeKernel k kn)) ∧
     (s.rootRole port.val = false → p.released = true → p.link ≠ 2 → exec (.pcieLinkUp port rate lanes) s =
       .next (s.modPort port.val fun x => { x with link := 2, rate := rate.toNat, lanes := lanes.toNat }).deliverAll) ∧
     (s.rootRole port.val = true ∨ p.released = false ∨ p.link = 2 → exec (.pcieLinkUp port rate lanes) s = .next s) ∧
     (s.rootRole port.val = true → p.released = true → p.link ≠ 2 → exec (.rootPortRetrain port true) s =
       .next (s.modPort port.val fun x => { x with link := 2 }).deliverAll) ∧
     (s.rootRole port.val = false ∨ p.released = false ∨ p.link = 2 ∨ trained = false → exec (.rootPortRetrain port trained) s = .next s)) ∧
  (∀ (s : State) (port : Fin 2) (fn : Fn) (lost : Bool),
     let reset := fun (u : State) (p : Nat) (vfs parts : List Nat) (size : Nat) =>
       (∀ v ∈ vfs, let f := s.fn p v
         u.fn p v = { f with cfg := [], msix := [], b4base := 0, bar4 := size, priStopped := false
                             sessionState := if f.sessionState = 1 then 2 else f.sessionState }) ∧
       (∀ q ∈ parts, ∀ k < 64, u.queue (64 * q + k) = { s.queue (64 * q + k) with enable := false, stopped := true }) ∧
       (∀ k, k / 64 ∉ parts → u.queue k = s.queue k) ∧
       (∀ e ∈ u.clusters, ∀ x ∈ e.2.utlb, x.host.isSome = true → x.part ∉ parts) ∧
       (∀ e ∈ u.dieXlate, ∀ x ∈ e.2.tlb, x.host.isSome = true → x.part ∉ parts) ∧
       u.mem = s.mem ∧ u.kernels = s.kernels ∧ u.groups = s.groups ∧ u.parts = s.parts
     let quiet := fun (p : Nat) => (∀ r ∈ s.host.reads, r.port ≠ p) ∧ ∀ x ∈ s.host.ats, x.port ≠ p
     (s.rootRole port.val = false → (lost = true → s.linkUp port.val = true) → quiet port.val →
       ∃ u, exec (.hostReset port lost) s = .next u ∧ reset u port.val (List.range 9) (s.portParts port.val) (setting s 0x6021 1) ∧
         (u.port port.val).link = (if lost then 0 else 1) ∧
         u.counter 0x6050 1 = (s.counter 0x6050 1 + 1) % 2 ^ 64 ∧ u.counter 0x8032 2 = (s.counter 0x8032 2 + 1) % 2 ^ 64) ∧
     (s.rootRole port.val = false → lost = true → s.linkUp port.val = false → exec (.hostReset port lost) s = .next s) ∧
     (s.fnPresent fn = true → s.recovering = false → quiet fn.port.val →
       ∃ u, exec (.flr fn) s = .next u ∧
         (fn.vf.val = 0 → reset u fn.port.val (List.range 9) (s.portParts fn.port.val) (s.port fn.port.val).bar4) ∧
         (fn.vf.val ≠ 0 → reset u fn.port.val [fn.vf.val] ((s.portParts fn.port.val).filter fun p => s.partVf p = fn.vf.val) (s.port fn.port.val).bar4)) ∧
     (s.fnPresent fn = false → exec (.flr fn) s = .next s) ∧
     (s.rootRole port.val = true → lost = false ∨ s.linkUp port.val = false → exec (.hostReset port lost) s = .next s) ∧
     (s.rootRole port.val = true → s.linkUp port.val = true → quiet port.val →
       ∃ u, exec (.hostReset port true) s = .next u ∧ (u.port port.val).link = 0 ∧ u.mem = s.mem ∧ u.parts = s.parts ∧
         (∀ v < 9, u.fn port.val v = s.fn port.val v) ∧ ∀ k, u.queue k = s.queue k))

/-- R259 to R261: a Translation Completion with the permission asked for fills a host entry of at most 1 GiB in the die
TLBs of the accesses that wait; with too little it sends a page request, or queues it while the allocation is used
up; a PRG response of Success repeats the ATS request, any other end faults the accesses, with HOST_PAGE_FAULT or,
where the context has become invalid, CONTEXT_INVALID, and Response Failure fails the queued requests with it (log
157); an ATS invalidation drops the host entries of the function's partitions that overlap its range, asks again for
the translations under way in it, and is answered once no translated read of the function is outstanding (log 156).
The place of a new entry in the die TLB is the model's (log 13), and so is the end of the accesses a host reset
leaves (log 49); which reads an invalidation waits for is log 156, and what a stopped PRI ends log 157. -/
def Obligations.HostTranslations : Prop :=
  ∀ (s t : State) (fn : Fn) (tag : Nat) (c : AtsCompletion) (x : HostXlate) (itag : Fin 32) (va : W64) (lg : Fin 64),
    let f := s.fn x.port x.vf
    let ats := fun (l : List HostXlate) => { s with host := { s.host with ats := l } }
    let granted := (if x.write then c.write else c.read) && x.waiters.all fun w =>
      (!needsW w.access || c.write) && (!(needsR w.access || w.access = 3) || c.read)
    let size := 2 ^ max 12 c.log2size.val
    let base := c.addr.toNat / size * size
    let reads := t.translatedReads fn.port.val fn.vf.val
    let parts := s.ownParts fn
    let pages := if lg.val < 12 then 1 else 2 ^ (lg.val - 12)
    let first := va.toNat / 4096 % 2 ^ 45 / pages * pages
    let keep := fun (e : TlbEntry) => !(e.host.isSome && (parts.contains e.part && decide (e.vpn < first + pages) && decide (first < e.vpn + 2 ^ e.log2pages)))
    let inRange := fun (y : HostXlate) => parts.contains y.part && decide (y.va.toNat / 4096 % 2 ^ 45 < first + pages) && decide (first ≤ y.va.toNat / 4096 % 2 ^ 45)
    let failed := (s.failXlate x).sendQueued x.port x.vf
    let stopped := (s.setFn x.port x.vf { f with priStopped := true }).failXlate x
    (∀ pri, s.xlateOf fn tag pri = none → (pri = false → exec (.atsTranslationCompletion fn tag c) s = .next s) ∧
      (pri = true → ∀ i ∈ [Instr.prgResponseSuccess fn tag, .prgResponseInvalidRequest fn tag, .prgResponseFailure fn tag, .priResponseTimeout fn tag],
        exec i s = .next s)) ∧
    (s.xlateOf fn tag false = some x →
      (granted = true → base + x.va.toNat % size < 2 ^ 45 → ∃ u e h, exec (.atsTranslationCompletion fn tag c) s = .next u ∧
        u = { s with host := u.host, dieXlate := u.dieXlate } ∧ u.host = { s.host with ats := s.host.ats.filter fun y => y.tag ≠ x.tag } ∧
        (∀ w ∈ x.waiters, (u.dx (clusterDie w.cluster)).tlb.head? = some e) ∧
        (∀ d, (∀ w ∈ x.waiters, clusterDie w.cluster ≠ d) → u.dx d = s.dx d) ∧
        e.part = x.part ∧ e.asid = s.ctxAsid x.part x.ctx ∧ e.log2pages ≤ 18 ∧ e.host = some (h, c.read, c.write) ∧
        e.vpn ≤ x.va.toNat / 4096 % 2 ^ 45 ∧ x.va.toNat / 4096 % 2 ^ 45 < e.vpn + 2 ^ e.log2pages ∧
        h + 4096 * (x.va.toNat / 4096 % 2 ^ 45 - e.vpn) + x.va.toNat % 4096 = base + x.va.toNat % size) ∧
      (granted = true → 2 ^ 45 ≤ base + x.va.toNat % size → exec (.atsTranslationCompletion fn tag c) s = .next (s.failXlate x)) ∧
      (granted = false → f.priStopped = true → exec (.atsTranslationCompletion fn tag c) s = .next (s.failXlate x)) ∧
      (granted = false → f.priStopped = false → s.host.ats = [x] →
        (0 < f.priAllocation → exec (.atsTranslationCompletion fn tag c) s =
          .next (((ats [{ x with pri := true, queued := false }]).count 0x6030 3 1).send (.pageRequest x.port x.vf tag x.va x.write (s.ctxPasid x.part x.ctx)))) ∧
        (f.priAllocation = 0 → exec (.atsTranslationCompletion fn tag c) s = .next (ats [{ x with pri := true, queued := true }])))) ∧
    (s.xlateOf fn tag true = some x →
      (s.host.ats = [x] → exec (.prgResponseSuccess fn tag) s =
        .next (((ats [{ x with pri := false }]).count 0x6030 2 1).send (.atsRequest x.port x.vf tag x.va x.write (s.ctxPasid x.part x.ctx)))) ∧
      exec (.prgResponseInvalidRequest fn tag) s = .next failed ∧ exec (.priResponseTimeout fn tag) s = .next failed ∧
      exec (.prgResponseFailure fn tag) s =
        .next ((stopped.host.ats.filter fun y => y.port = x.port && y.vf = x.vf && y.queued && !y.failed).foldl State.failXlate stopped)) ∧
    (∀ w g word, x.waiters = [w] → w.group < 2 ^ 20 → w.xfer = none → w.access ≠ 3 → s.group? w.group = some g → g.wait = .stall word →
      s.failXlate x = (ats (s.host.ats.filter fun y => y.tag ≠ x.tag)).takeFault w.group { g with wait := .ready } word (xlFault (if s.ctxValid x.part x.ctx then 0x508 else 0x509) w.access 7 x.ctx true w.leaf w.va)) ∧
    (((s.clusters.map Prod.fst).filter fun c => parts.contains (s.clusterPart c)).foldl (fun (acc : Option State) c => acc.bind fun s => s.drainAll c) (some s) = some t →
      ∃ u, exec (.atsInvalidationRequest fn itag va lg) s = .next u ∧
        u = { t with clusters := u.clusters, dieXlate := u.dieXlate, counters := u.counters, out := u.out, host := u.host } ∧
        u.host = { t.host with ats := u.host.ats, nextAts := u.host.nextAts, atsInvals := u.host.atsInvals } ∧
        u.host.atsInvals = (if reads = [] then t.host.atsInvals
          else t.host.atsInvals ++ [{ port := fn.port.val, vf := fn.vf.val, itag := itag.val, reads := reads }]) ∧
        (∀ y ∈ u.host.ats, inRange y = true → y.pri = false → y.failed = false → t.host.nextAts ≤ y.tag) ∧
        ((∀ y ∈ t.host.ats, inRange y = false) → u.host.ats = t.host.ats ∧
          u.out = if reads = [] then .atsInvalidationCompletion fn itag.val :: t.out else t.out) ∧
        u.counter 0x6030 4 = (t.counter 0x6030 4 + 1) % 2 ^ 64 ∧
        (∀ k, u.cluster k = { t.cluster k with utlb := (t.cluster k).utlb.filter keep }) ∧
        (∀ d, u.dx d = { t.dx d with tlb := (t.dx d).tlb.filter keep }))

/-- R336, R337, R341: an interrupt source is set pending and its MSI-X message sent, which clears it, where route and
function allow; INTSEND with a value above 255 is ignored; CLAIM answers and clears the lowest source asserted at
the hart, or answers all ones; a hart's machine or supervisor external interrupt (MMODE) is asserted while an
enabled pending source of its partition is routed to it so; HART_START starts a stopped hart of the writer's
partition in machine mode. -/
def Obligations.InterruptsAndHarts : Prop :=
  ∀ (s : State) (v : W32) (hart : Fin 192) (writer : Fin 8) (addr : W64) (n : Nat),
    let k := 768 + v.toNat
    let pend := fun (l : Sparse Bool) => { s with host := { s.host with irqPending := l } }
    let r := (sgetD s.host.routes k 0).toNat
    let p := s.sourcePart k
    let f := s.fn (s.partPort p) (s.partVf p)
    let vector := field r 16 6
    let sends := r.testBit 63 && r.testBit 62 && f.busMaster && f.msixOn && !f.d3 && !((sgetD f.msix vector (BitVec.ofNat 128 (2 ^ 96))).toNat.testBit 96) && s.portOpen (s.partPort p)
    (256 ≤ v.toNat → exec (.intsend v) s = .next s) ∧
    (v.toNat < 256 → ∃ u, exec (.intsend v) s = .next u ∧ u = { s with host := u.host, out := u.out } ∧
      u.host = { s.host with irqPending := u.host.irqPending } ∧ sgetD u.host.irqPending k false = !sends ∧
      u.out = (if sends then .msix (s.partPort p) (s.partVf p) vector :: s.out else s.out) ∧
      (∀ j, j ≠ k → sgetD u.host.irqPending j false = sgetD s.host.irqPending j false)) ∧
    (keysRise none s.host.irqPending = true → s.assertsHart hart.val n = true → (∀ m < n, s.assertsHart hart.val m = false) →
      exec (.claim hart) s = .next ((pend (sdel n s.host.irqPending)).send (.registerRead (BitVec.ofNat 64 n)))) ∧
    ((∀ m, s.assertsHart hart.val m = false) → exec (.claim hart) s = .next (s.send (.registerRead 0xFFFFFFFF))) ∧
    ((s.hart hart.val).running = true ∨ s.hartPart hart.val ≠ writer.val → exec (.hartStart writer hart addr) s = .next s) ∧
    ((s.hart hart.val).running = false → s.hartPart hart.val = writer.val → ∃ u, exec (.hartStart writer hart addr) s = .next u ∧
      u = { s with host := { s.host with harts := u.host.harts } } ∧
      u.hart hart.val = { s.hart hart.val with running := true, pc := addr, a0 := BitVec.ofNat 64 hart.val, a1 := 0, mmode := true } ∧
      (∀ j, j ≠ hart.val → u.hart j = s.hart j)) ∧
    (∀ machine, keysRise none s.host.irqPending = true → (s.externalIrq machine hart.val = true ↔ ∃ m, let e := (sgetD s.host.routes m 0).toNat
      sgetD s.host.irqPending m false = true ∧ e.testBit 63 = true ∧ e.testBit 62 = false ∧ e.testBit 61 = machine ∧
      field e 0 8 = hart.val ∧ s.hartPart hart.val = s.sourcePart m))

/-- R8, R215, R254, R255, R264, R457: the registers whose access acts. INV_CTL queues one invalidation under the next
number or sets INV_DROP; an invalidation that completes drops what it names; RESUME ends the stall it names; FQ_LOST
clears as it is read; a tally add counts on a tally a kernel holds; a register that acts ignores a write of part of
it. -/
def Obligations.ActingRegisters : Prop :=
  ∀ (s t : State) (p k : Fin 8) (die : Fin 4) (value : W64) (width : BitVec 4) (off : BitVec 3) (toff : BitVec 17) (via : Requester) (addr : BitVec 48),
    let x := s.xl p.val
    let v := value.toNat
    let put := fun (y : Xlate) => s.setXl p.val y
    let invs := [(Instr.invCtlRange p width value, 1), (.invCtlContext p width value, 2), (.invCtlPartition p width value, 3)]
    let resumes := [(Instr.resumeRetry p width value, false), (.resumeFail p width value, true)]
    let named := s.stalled.find? fun f => f.part = p.val && f.die = field v 48 8 && f.seq % 2 ^ 32 = field v 0 32
    let lost := sgetD x.fqLost k.val 0
    p.val < s.parts →
    (∀ i ∈ invs,
      (field v 60 4 ≠ i.2 ∨ width ≠ 8 → exec i.1 s = .next s) ∧
      (field v 60 4 = i.2 → width = 8 →
        (i.2 = 1 ∧ field v 0 32 = 0 ∨ 64 ≤ x.invQueue.length → exec i.1 s = .next (put { x with invDrop := true })) ∧
        (¬ (i.2 = 1 ∧ field v 0 32 = 0) → x.invQueue.length < 64 → exec i.1 s = .next (put { x with
          invIssued := x.invIssued + 1, invQueue := x.invQueue ++ [(i.2, field v 54 6, x.invAddr.toNat / 4096 % 2 ^ 45, field v 0 32)] })))) ∧
    (x.invQueue = [] ∨ s.readsOpen p.val = true → exec (.invalidationComplete p) s = .next s) ∧
    (∀ op ctx page n rest, x.invQueue = (op, ctx, page, n) :: rest → s.readsOpen p.val = false →
      ((s.clusters.map Prod.fst).filter fun c => s.clusterPart c = p.val).foldl (fun (acc : Option State) c => acc.bind fun s => s.drainAll c) (some s) = some t →
      let hit := fun (part asid lo hi : Nat) => part = p.val ∧ (op = 3 ∨ (asid = t.ctxAsid p.val ctx ∧ (op = 2 ∨ (lo < page + n ∧ page < hi))))
      let again := fun (y : HostXlate) => y.part = p.val && (op = 3 || (y.ctx = ctx && (op = 2 ||
        (decide (y.va.toNat / 4096 % 2 ^ 45 < page + n) && decide (page ≤ y.va.toNat / 4096 % 2 ^ 45)))))
      ∃ u, exec (.invalidationComplete p) s = .next u ∧
        u = { t with xlate := u.xlate, clusters := u.clusters, dieXlate := u.dieXlate, counters := u.counters, out := u.out, host := u.host } ∧
        u.host = { t.host with ats := u.host.ats, nextAts := u.host.nextAts } ∧
        (∀ y ∈ u.host.ats, again y = true → y.pri = false → y.failed = false → t.host.nextAts ≤ y.tag) ∧
        ((∀ y ∈ t.host.ats, again y = false) → u.host = t.host ∧ u.out = t.out) ∧
        u.xl p.val = { t.xl p.val with invQueue := rest, invDone := (t.xl p.val).invDone + 1 } ∧
        (∀ c e, e ∈ (u.cluster c).utlb ↔ e ∈ (t.cluster c).utlb ∧ ¬ hit e.part e.asid e.vpn (e.vpn + 2 ^ e.log2pages)) ∧
        (∀ d e, e ∈ (u.dx d).tlb ↔ e ∈ (t.dx d).tlb ∧ ¬ hit e.part e.asid e.vpn (e.vpn + 2 ^ e.log2pages)) ∧
        (∀ d e, e ∈ (u.dx d).walks ↔ e ∈ (t.dx d).walks ∧ ¬ hit e.part e.asid (e.prefixVpn * 2 ^ (9 * e.level)) ((e.prefixVpn + 1) * 2 ^ (9 * e.level)))) ∧
    (∀ i ∈ resumes,
      (value.getLsbD 63 ≠ i.2 ∨ width ≠ 8 → exec i.1 s = .next s) ∧
      (value.getLsbD 63 = i.2 → width = 8 → named = none → exec i.1 s = .next (s.count 0xA081 6 1))) ∧
    (∀ f g, named = some f → f.xfer = none → s.group? f.group = some g → g.wait = .faulted f.die f.seq → width = 8 →
      let u := { s with stalled := s.stalled.filter fun y => y ≠ f }
      (value.getLsbD 63 = false → exec (.resumeRetry p width value) s = .next (u.setGroup f.group { g with wait := .ready })) ∧
      (value.getLsbD 63 = true → exec (.resumeFail p width value) s =
        .next ((u.setGroup f.group { g with halted := true, wait := .ready }).abortKernel g.kernel f.code))) ∧
    ((width = 1 ∨ width = 2 ∨ width = 4 ∨ width = 8) → off.toNat % width.toNat = 0 → exec (.fqLostRead p k off width) s =
      .next ((put { x with fqLost := sdel k.val x.fqLost }).send (.registerRead (BitVec.ofNat 64 (field lost.toNat (8 * off.toNat) (8 * width.toNat)))))) ∧
    (toff.toNat % 8 = 0 → width = 8 → let i := toff.toNat / 8; let ts := s.tally die.val
      ((ts.holder i).isSome = true → exec (.tallyAdd die toff width value) s =
        .next (s.setTally die.val { ts with vals := sput ts.vals i (sgetD ts.vals i 0 + value) 0 })) ∧
      ((ts.holder i).isSome = false → exec (.tallyAdd die toff width value) s = .next (s.count 0xA072 4 1))) ∧
    (width ≠ 8 → exec (.tallyAdd die toff width value) s = .next s) ∧
    (s.access via addr.toNat width.toNat = none → exec (.registerWrite via addr width value) s = .next s) ∧
    (∀ r, s.access via addr.toNat width.toNat = some r → let sh := 8 * (addr.toNat - r.base); let n := 8 * width.toNat
      addr.toNat % width.toNat = 0 ∧ addr.toNat + width.toNat ≤ r.base + r.width ∧
      (r.reg.action = true → width.toNat ≠ r.width → exec (.registerWrite via addr width value) s = .next s) ∧
      (r.reg.action = false ∨ width.toNat = r.width → exec (.registerWrite via addr width value) s =
        .next (s.writeReg via none r.reg ((2 ^ n - 1) <<< sh) ((v % 2 ^ n) <<< sh)))) ∧
    (∀ mask n, let b := mergeMask x.fqBase.toNat mask n
      s.writeReg .node none (.xl p.val 0) mask n = (if x.enable then s else put { x with fqBase := BitVec.ofNat 64 (4096 * (b / 4096)) }) ∧
      let ctl := put { x with
        invDrop := x.invDrop && !(n &&& mask).testBit 3, overflow := x.overflow && !(n &&& mask).testBit 2
        inten := (mergeMask x.fqCtl mask n).testBit 1
        enable := (mergeMask x.fqCtl mask n).testBit 0 && (x.enable || s.rangeHeld p.val x.fqBase.toNat (64 * x.fqSize.toNat)) }
      s.writeReg .node none (.xl p.val 0x20) mask n = ctl.drainWaiting p.val ∧
      ((ctl.xl p.val).enable = false ∨ (ctl.xl p.val).full = true ∨ x.waitingRecords = [] → ctl.drainWaiting p.val = ctl))

/-- R14, R230 to R238, R285, R382: a request at its line's home. A busy line, a home without a buffer and a full
directory set without a victim answer RETRY, a home no link leads to CMPE 01h; a requester that can keep no way for
its fill sends nothing; else the line becomes busy and the snoops of the transition table go out; a request that
needs none is answered at once, with DATA from memory for the sectors asked for and CMP. A write-back keeps its line
in the sender's buffer, a clean eviction drops it. A companion beyond its rights gets CMPE 03h. The grants and
snoops are those of R236. Which data buffers are free is opaque (log 146); transactions have no TXID (log 149). -/
def Obligations.CoherenceRequests : Prop :=
  (∀ (s v : State) (a : Fin 13) (addr : BitVec 48) (mask : BitVec 4) (bytes : BitVec 128) (data : BitVec 1024) (line : Nat) (c : Copy) (kept : Txn),
    let home := s.home line
    let h := s.agent home
    let msg := fun (cls code src dst sect poison state arg : Nat) => Out.cohMessage cls code src dst line sect 0 poison state arg
    let base := fun (req : CohReq) => ({ line := line, req := req, agent := a.val, mask := 0, snoops := [], responses := [] } : Txn)
    let masked := fun (req : CohReq) => ({ line := line, req := req, agent := a.val, mask := mask, snoops := [], responses := [] } : Txn)
    let wrn : Txn := { line := line, req := .wrn, agent := a.val, mask := 0, snoops := [], responses := [], bytes := bytes, wdata := data, tally := none }
    let rows := [(Instr.cohRds a addr mask, masked .rds), (.cohRdu a addr mask, masked .rdu), (.cohUpg a addr, base .upg), (.cohRdn a addr mask, masked .rdn),
      (.cohDead a addr, base .dead), (.cohWrn a addr bytes data none, wrn)]
    let recorded := match h.entry? line with
      | some d => d.resp = some a.val || d.sharers.toNat.testBit a.val
      | none => false
    let asked := fun (t : Txn) => if t.req = .upg ∧ recorded = false then { t with mask := 15 } else t
    let sent := fun (t : Txn) => s.cohLine addr = some line ∧ sendsReq a.val t.req = true ∧
      (a.val = 12 → s.dieUp 8 = true ∧ s.companionMay t.req 0 addr.toNat = true)
    let there := fun (t : Txn) => sent t ∧ s.reaches (agentDie a.val) (agentDie home) = true ∧ h.deadTo = [] ∧ h.retries = [] ∧ s.mem.arrays = []
    let turn := fun (t : Txn) => there t ∧ h.cached? line = none ∧ ∀ x ∈ s.agents, ∀ y ∈ x.2.copies, y.tomb = false
    let busy := fun (t : Txn) => (s.txn? line).isSome = true ∨ s.bufferFree home line a.val = false ∨
      (needsEntry home t.req a.val = true ∧ s.dirFull home line = true ∧ s.dirVictim home line = none)
    let free := fun (t : Txn) => s.txn? line = none ∧ s.bufferFree home line a.val = true ∧ (needsEntry home t.req a.val = true → s.dirFull home line = false)
    (∀ i ∈ rows, sendsReq a.val i.2.req = false → exec i.1 s = .next s) ∧
    (∀ i ∈ rows, s.cohLine addr = none → sendsReq a.val i.2.req = true → exec i.1 s =
      .next (if a.val = 12 ∧ s.dieUp 8 = true then (s.count 0x7021 3 1).send (.cohMessage 2 5 11 12 addr.toNat 0 0 0 0 3) else s)) ∧
    (∀ i ∈ rows, a.val = 12 → s.cohLine addr = some line → sendsReq 12 i.2.req = true → s.dieUp 8 = true → s.companionMay i.2.req 0 addr.toNat = false →
      exec i.1 s = .next ((s.count 0x7021 3 1).send (msg 2 5 home 12 0 0 0 3))) ∧
    (∀ i ∈ rows, sent i.2 → (∀ x ∈ s.agents, ∀ y ∈ x.2.copies, y.tomb = false) →
      (h.deadTo.contains a.val = true → exec i.1 s = .next s) ∧
      (h.deadTo.contains a.val = false → s.reaches (agentDie a.val) (agentDie home) = false → exec i.1 s = .next (s.send (msg 2 5 home a.val 0 0 0 1)))) ∧
    (∀ i ∈ rows, turn i.2 →
      (busy i.2 → exec i.1 s =
        .next (((s.setAgent home { h with retries := [(i.2, 1)] }).count 0x7101 4 1).send (msg 2 4 home a.val 0 0 0 0))) ∧
      (free i.2 → s.reserveWay i.2 {} = none → exec i.1 s = .next s) ∧
      (free i.2 → s.reserveWay i.2 {} = some (v, kept) →
        (snoopsFor (asked i.2) (h.entry? line) ((s.agent a.val).holds line) ≠ [] → ∃ u t, exec i.1 s = .next u ∧ u.txn? line = some t ∧
          t = { asked kept with snoops := snoopsFor (asked i.2) (h.entry? line) ((s.agent a.val).holds line) } ∧ t.responses = [] ∧ t.cmpSent = false ∧
          (∀ k, k ≠ line → u.txn? k = s.txn? k) ∧ u.mem = v.mem ∧
          u.out = (t.snoops.map fun e => msg 1 e.2 home e.1 (if e.2 = 1 ∨ e.2 = 2 ∨ e.2 = 5 then t.mask.toNat else 0) 0 0 0).reverse ++ v.out) ∧
        (h.entry? line = none → a.val ≠ home → (s.agent a.val).cached? line = none → (∀ k < 4, (sgetD s.mem.upsets ((line + 32 * k) / 32) (0, 0)).1 = 0) →
          ∃ u t, exec i.1 s = .next u ∧ u.txn? line = some t ∧ t.cmpSent = true ∧ t.cmpGot = false ∧ t.agent = a.val ∧
            (i.2.req ≠ .wrn → u.mem = v.mem) ∧
            (i.2.req.reads = true → let m := (asked i.2).mask
              t.grant = (match i.2.req with
                | .rds => .E
                | .rdn => .I
                | _ => .M) ∧ t.dataSect = m ∧ t.data = BitVec.ofNat 1024 (mergeSectors m.toNat 0 (v.dramLine line).1) ∧
              t.poisonSect = BitVec.ofNat 4 (v.dramLine line).2 &&& m ∧
              u.out = msg 2 2 home a.val 0 0 t.grant.code 0 ::
                (if m = 0 then v.out else msg 3 1 home a.val m.toNat t.poisonSect.toNat 0 0 :: v.out)) ∧
            (i.2.req.reads = false → u.out = msg 2 2 home a.val 0 0 0 0 :: v.out)))) ∧
    (there (base .wbk) → free (base .wbk) → home ≠ a.val → (s.agent a.val).copies.find? (fun x => x.line = line && (x.st = .M || x.st = .O)) = some c →
      ∃ u t, exec (.cohWbk a addr) s = .next u ∧ (u.agent a.val).wbBuf = c :: (s.agent a.val).wbBuf ∧ (u.agent a.val).cached? line = none ∧
        u.txn? line = some t ∧ t.req = .wbk ∧ t.agent = a.val ∧ t.cmpSent = false ∧ u.mem = s.mem ∧ u.out = s.out) ∧
    (there (base .evc) → free (base .evc) → home ≠ a.val → (s.agent a.val).copies.find? (fun x => x.line = line && (x.st = .E || x.st = .F)) = some c →
      ∃ u t, exec (.cohEvc a addr) s = .next u ∧ (u.agent a.val).cached? line = none ∧ u.txn? line = some t ∧ t.req = .evc ∧ t.cmpSent = true ∧ u.mem = s.mem ∧
        u.out = msg 2 2 home a.val 0 0 0 0 :: s.out ∧
        (∀ e, h.entry? line = some e → e.resp = some a.val → e.sharers = withBit 0 a.val → (u.agent home).entry? line = none))) ∧
  (∀ (t : Txn) (d : DirEntry) (own : Coh) (r : Nat) (held : Bool), d.line = t.line → t.dirtySect = 0 →
    (t.req = .rds → grantFor t none .I = .E) ∧ (t.req = .rdu ∨ t.req = .upg → grantFor t (some d) own = .M) ∧
    (t.req = .rds → d.resp = none → d.sharers ≠ 0 → grantFor t (some d) own = .F) ∧
    (t.req = .rds → d.resp = some t.agent → grantFor t (some d) own = own ∧ snoopsFor t (some d) held = if held then [] else [(t.agent, 1)]) ∧
    (t.req = .rds → d.resp = some r → r ≠ t.agent → grantFor t (some d) own = .S ∧ snoopsFor t (some d) held = [(r, 1)]) ∧
    (t.req = .rdn → d.resp = some r → r ≠ t.agent → grantFor t (some d) own = .I ∧ snoopsFor t (some d) held = [(r, 5)]) ∧
    (t.req = .rdu → d.resp = some r → r ≠ t.agent → ∃ l, snoopsFor t (some d) held = (r, 2) :: l ∧
      ∀ x n, (x, n) ∈ l ↔ n = 3 ∧ x < 13 ∧ d.sharers.getLsbD x = true ∧ x ≠ r ∧ x ≠ t.agent) ∧
    (t.req = .wrn ∨ t.req = .addop → ∀ x n, (x, n) ∈ snoopsFor t (some d) held ↔
      (n = 2 ∧ d.resp = some x) ∨ (n = 3 ∧ d.resp ≠ some x ∧ x < 13 ∧ d.sharers.getLsbD x = true)) ∧
    (t.req = .dead → ∀ x n, (x, n) ∈ snoopsFor t (some d) held ↔ n = 4 ∧ (d.resp = some x ∨ (x < 13 ∧ d.sharers.getLsbD x = true))) ∧
    (∀ b, afterSnoop 1 b .M = (if b then .I else .O) ∧ afterSnoop 1 b .E = (if b then .I else .S) ∧ afterSnoop 1 b .F = (if b then .I else .S) ∧
      afterSnoop 2 b .M = .I ∧ afterSnoop 3 b .S = .I ∧ afterSnoop 4 b .O = .I ∧ afterSnoop 5 b .M = .M))

/-- R176, R188, R230, R234 to R237, R240 to R242, R380, R382: the other messages of a transaction. A snooped agent sends
its sectors and a response and its copy changes state; the last response has the home answer; CMP and DATA reach the
requester, which sends CMPACK once it has everything; CMPACK ends the transaction; RETRY sends the request again; an
adder operation that R186 does not allow is answered CMPE 05h; a message of no transaction changes nothing. Fault
records that waited for a line go out with it. An agent that can no longer be reached becomes dead to a home: the
scan of the home's directory starts, the requests it turned away are forgotten, and the agent, where its die lives,
drops its copies of the home's lines; the scan reclaims the entries that name it, one after the other, and ends with
an event. A line held E or M, or O without another copy, is poisoned whole and its entry freed; one held O is
written to memory from the home half's copy. The home's own copies, the scan's order and the event at its end are
the model's reading (logs 9, 53, 54). -/
def Obligations.CoherenceReplies : Prop :=
  (∀ (s : State) (a : Fin 13) (addr : BitVec 48) (line : Nat) (t : Txn) (c : Copy) (status : BitVec 8) (arg : BitVec 29) (operand : BitVec 1024) (compare : W64),
     let home := s.home line
     let ag := s.agent a.val
     let msg := fun (cls code src dst state arg : Nat) => Out.cohMessage cls code src dst line 0 0 0 state arg
     let snp := [(Instr.cohSnps a addr, 1), (.cohSnpu a addr, 2), (.cohSnpi a addr, 3), (.cohSnpd a addr, 4), (.cohSnpc a addr, 5)]
     let others := [Instr.cohSrsp a addr, .cohCmp addr, .cohData addr, .cohCmpe addr status, .cohCmpack addr, .cohWbd a addr]
     s.cohLine addr = some line → (s.txn? line = none → ∀ i ∈ snp.map Prod.fst ++ others, exec i s = .next s) ∧
     (s.txn? line = some t →
       (∀ i ∈ snp, t.snoops = [(a.val, i.2)] → t.responses = [] →
         (ag.copy? line = none → exec i.1 s =
           .next ((s.setTxn { t with snoops := [], responses := [(a.val, .I, 0, 0)] }).send (msg 2 1 a.val home 0 0))) ∧
         (ag.copy? line = some c → c.line = line →
           let inBuf := !ag.holds line
           let st := afterSnoop i.2 inBuf c.st
           let sect : BitVec 4 := if i.2 = 1 ∨ i.2 = 2 ∨ i.2 = 5 then (c.valid &&& t.mask) ||| c.dirty else 0
           let dirty : BitVec 4 := if i.2 = 2 ∨ (i.2 = 1 ∧ inBuf = true) then c.dirty else 0
           ∃ u, exec i.1 s = .next u ∧ u.txn? line = some { t with
               snoops := [], responses := [(a.val, st, sect, dirty)], dataSect := t.dataSect ||| sect, dirtySect := t.dirtySect ||| dirty
               poisonSect := t.poisonSect ||| (c.poison &&& sect), data := BitVec.ofNat 1024 (mergeSectors sect.toNat t.data.toNat c.data.toNat) } ∧
             (inBuf = false → (u.agent a.val).wbBuf = ag.wbBuf ∧ (st = .I → (u.agent a.val).cached? line = none) ∧
               (st ≠ .I → (u.agent a.val).copies = ag.copies.map fun x => if x.line = c.line then { c with st := st } else x)) ∧
             (inBuf = true → (u.agent a.val).copies = ag.copies ∧
               (u.agent a.val).wbBuf = if i.2 = 5 then ag.wbBuf else ag.wbBuf.filter fun x => x.line ≠ line) ∧
             u.mem = s.mem ∧ u.out = msg 2 1 a.val home st.code (b2n (sect ≠ 0) <<< 28 ||| b2n (dirty ≠ 0) <<< 27) ::
               (if sect = 0 then s.out else .cohMessage 3 1 a.val (if t.req.reads then t.agent else home) line sect.toNat dirty.toNat
                 (c.poison.toNat &&& sect.toNat) :: s.out))) ∧
       (∀ i ∈ snp, (a.val, i.2) ∉ t.snoops → exec i.1 s = .next s) ∧
       (t.line = line → t.responses.any (fun e => e.1 = a.val) = true → exec (.cohSrsp a addr) s = .next
         (if t.snoops = [] ∧ (∀ e ∈ t.responses, e.1 = a.val) then (s.takeResponse home a.val line).homeAnswer line else s.takeResponse home a.val line)) ∧
       (t.line = line → t.cmpSent = true → t.cmpGot = false → t.error = none →
         (t.req = .rdn → t.dataSect &&& ~~~ t.received = 0 → exec (.cohCmp addr) s =
           .next ((s.setTxn { t with cmpGot := true }).send (msg 2 3 t.agent home 0 0))) ∧
         (t.req.reads = true → t.dataSect &&& ~~~ t.received ≠ 0 → exec (.cohCmp addr) s = .next (s.setTxn { t with cmpGot := true }) ∧
           exec (.cohData addr) s = .next (s.setTxn { t with received := t.dataSect })) ∧
         (t.req = .wbk → ∃ u, exec (.cohCmp addr) s = .next u ∧ (u.agent t.agent).wbBuf = (s.agent t.agent).wbBuf.filter (fun c => c.line ≠ line) ∧
           u.out = msg 2 3 t.agent home 0 0 :: s.out)) ∧
       (t.line = line → t.cmpSent = true → t.cmpGot = false → t.error = some status → t.dataSect = 0 →
         exec (.cohCmpe addr status) s = .next ((s.setTxn { t with cmpGot := true }).send (msg 2 3 t.agent home 0 0))) ∧
       (t.cmpSent = false → status = 1 → s.reaches (agentDie t.agent) (agentDie home) = false → exec (.cohCmpe addr status) s = .next (s.dropTxn line)) ∧
       (t.line = line → t.complete = true → t.error = none → let ended := (s.dropTxn line).count 0x7101 1 1
         (t.req = .wbk ∨ t.req = .evc ∨ t.req = .dead → exec (.cohCmpack addr) s = .next ended.drainRecords) ∧
         (t.agent < 8 → t.req = .rds ∨ t.req = .rdu ∨ t.req = .upg → exec (.cohCmpack addr) s =
           .next (ended.modAgent home fun h => h.setEntry (entryAfter t home (h.entry? line))).drainRecords) ∧
         (8 ≤ t.agent → t.req = .rdn → exec (.cohCmpack addr) s =
           .next (ended.homeAllocate line t.mask t.data.toNat t.poisonSect.toNat).drainRecords)) ∧
       (t.complete = false → exec (.cohCmpack addr) s = .next s) ∧
       (t.line = line → t.req = .wbk → t.agent = a.val → t.cmpSent = false → t.error = none → ag.wbBuf.find? (fun c => c.line = line) = some c →
         ∃ v u, v = s.homeWbk home a.val c ∧ exec (.cohWbd a addr) s = .next u ∧ u.mem = v.mem ∧ u.out = msg 2 2 home a.val t.grant.code 0 :: v.out ∧
           u.txn? line = some { t with cmpSent := true, cmpGot := false, error := none } ∧
           ((∀ e, (s.agent home).entry? line = some e → e.resp ≠ some a.val) → u.mem = s.mem))) ∧
     ((s.agent home).retries = [] → exec (.cohRetry a addr) s = .next s) ∧
     ((s.agent home).retries = [(t, 1)] → t.line = line → t.agent = a.val → exec (.cohRetry a addr) s = .next (s.takeRequest t)) ∧
     (let k := addr.toNat; let op := arg.toNat / 2 ^ 25; let fmt := field arg.toNat 21 4; let n := field arg.toNat 13 7 + 1
       a.val < 12 → s.reaches (agentDie a.val) (agentDie home) = true → (s.agent home).deadTo = [] → s.mem.arrays = [] → (s.agent home).cached? line = none →
       (s.agent home).entry? line = none → (s.agent home).retries = [] → s.txn? line = none → s.bufferFree home line a.val = true →
       (n = adderSize fmt ∧ atomicOk k op fmt = false ∨ n ≠ adderSize fmt ∧ reduceOk k op fmt n = false → ∃ u v, exec (.cohAddop a addr arg operand compare) s = .next u ∧
         u.txn? line = some v ∧ v.error = some 5 ∧ v.cmpSent = true ∧ u.mem = s.mem ∧ u.out = msg 2 5 home a.val 0 5 :: s.out) ∧
       (n = adderSize fmt → atomicOk k op fmt = true → ∃ (v u : State) (r : AdderResult), v = { s with agents := v.agents, txns := v.txns } ∧
         v.adderApply (line + k % 128) op fmt (field operand.toNat 0 (8 * n)) (field compare.toNat 0 (8 * n)) = (u, r) ∧
         (∀ old, r = .old old → ∃ w, exec (.cohAddop a addr arg operand compare) s = .next w ∧ w.mem = u.mem ∧
           w.out = msg 2 2 home a.val 0 0 ::
             (if arg.getLsbD 20 then .cohMessage 3 1 home a.val line (1 <<< ((line + k % 128) % 128 / 32)) :: u.out else u.out))))) ∧
  (∀ (s : State) (home : Fin 12) (a : Fin 13) (d n : Nat) (rest : List (Nat × Nat)) (e : DirEntry) (c : Copy),
     let h := s.agent home.val
     let left := withoutBit e.sharers d
     let holder := fun (x : Nat) => x < 13 ∧ (x = home.val ∨ left.getLsbD x = true) ∧ (s.agent x).holds e.line = true
     (home.val = a.val ∨ home.val = 8 ∨ home.val = 9 ∨ s.die (agentDie a.val) = 0 ∨ h.deadTo.contains a.val = true ∨ s.reaches (agentDie home.val) (agentDie a.val) = true →
       exec (.agentDeath home a) s = .next s) ∧
     (home.val ≠ a.val → home.val ≠ 8 → home.val ≠ 9 → s.die (agentDie a.val) ≠ 0 → h.deadTo.contains a.val = false →
       s.reaches (agentDie home.val) (agentDie a.val) = false → s.txns = [] →
       ∃ u, exec (.agentDeath home a) s = .next u ∧ u = { s with agents := u.agents } ∧
         u.agent home.val = { h with deadTo := a.val :: h.deadTo, reclaim := h.reclaim ++ [(a.val, 0)], retries := h.retries.filter fun x => x.1.agent ≠ a.val } ∧
         (s.die (agentDie a.val) = 3 → u.agent a.val = s.agent a.val) ∧
         (s.die (agentDie a.val) ≠ 3 → u.agent a.val = { s.agent a.val with
           copies := (s.agent a.val).copies.filter (fun c => s.home c.line ≠ home.val || c.remote), wbBuf := (s.agent a.val).wbBuf.filter fun c => s.home c.line ≠ home.val })) ∧
     (h.reclaim = [] → exec (.directoryScan home) s = .next s) ∧
     (h.reclaim = (d, n) :: rest → (∀ x ∈ h.dir, x.resp ≠ some d ∧ x.sharers.toNat.testBit d = false) →
       exec (.directoryScan home) s = .next ((s.setAgent home.val { h with reclaim := rest }).event { cls := 5, code := 0x24, die := agentDie home.val, location := d, data := n })) ∧
     (h.reclaim = (d, n) :: rest → h.dir.find? (fun x => x.resp = some d || x.sharers.toNat.testBit d) = some e →
       (e.resp ≠ some d → exec (.directoryScan home) s =
         .next ((s.count 0x7101 5 1).setAgent home.val (h.setEntry { e with sharers := left }))) ∧
       (e.resp = some d → e.st = .F → exec (.directoryScan home) s =
         .next ((s.count 0x7101 5 1).setAgent home.val (h.setEntry { e with sharers := left, resp := none, st := .S }))) ∧
       (e.resp = some d → e.st = .O → left = 0 → h.holds e.line = true → h.copy? e.line = some c → exec (.directoryScan home) s =
         .next ((((s.count 0x7101 5 1).dramWriteLine e.line c.valid.toNat c.poison.toNat c.data.toNat).modAgent home.val fun x =>
           { x with dir := x.dir.filter fun y => y.line ≠ e.line }).count 0x7101 7 1)) ∧
       (e.resp = some d → (e.st = .M ∨ e.st = .E ∨ (e.st = .O ∧ ∀ x, ¬ holder x)) → (∀ i < 4, s.lossAt (e.line + 32 * i) = .none) → e.line % 128 = 0 →
         ∃ u, exec (.directoryScan home) s = .next u ∧
         (u.agent home.val).entry? e.line = none ∧ u.mem.cells = s.mem.cells ∧ (∀ i < 4, u.marked (e.line + 32 * i) = true) ∧
         u.counter 0x7101 6 = (s.counter 0x7101 6 + 1) % 2 ^ 64)))

/-- R268, R271 to R280: flits of an active link. A new data flit leaves under the next SEQ with the credits for its
messages, a LANECHECK every 4,096, a null flit while the replay buffer is full. The expected data flit with a good
CRC is accepted once: its ACK and credit return are used and its finished messages go on; a flit received before is
discarded and counted; a bad one starts an error episode with one NAK. A NAK or a timeout replays; the sixteenth
replay within 4 µs and a NAKed flit that does not come retrain the link; a retrain past its limit declares it down,
and the requests across it end with CMPE 01h. The channels a flit's messages take and the noise of its way are
operands (log 108); the replays counted are those of log 56, and a lost link ends what log 57 says. -/
def Obligations.LinkFlits : Prop :=
  ∀ (s sent : State) (d : LinkDir) (f noise : BitVec 2048) (vcs : List (Fin 8)) (old : Nat),
    let i := d.link.val
    let l := s.link i
    let e := s.linkEnd d
    let b := s.linkEnd (dirBack d)
    let g := f ^^^ noise
    let seq := fun (x : BitVec 2048) => field x.toNat 52 12
    let ack := fun (x : BitVec 2048) => field x.toNat 40 12
    let vc := fun (x : BitVec 2048) => field x.toNat 35 3
    let back := fun (x : BitVec 2048) => field x.toNat 27 8
    let acked := fun (x : LinkEnd) (a : Nat) => { x with replay := x.replay.filter fun y => decide ((a + 4096 - y.1) % 4096 ≥ 2048) }
    let scan := scanFlit e.sending vcs e.credits f
    let nak := fun (v : State) => if (v.linkEnd d).nakSent then v else (v.setEnd d { v.linkEnd d with nakSent := true }).send
      (.controlFlit i (!d.rev) (((v.linkEnd d).expSeq + 4095) % 4096) (BitVec.ofNat 128 ((v.linkEnd d).expSeq <<< 8 ||| 1)))
    let credited := fun (x : LinkEnd) => let n := x.credits.getD (vc g) 0 + back g
      { x with credits := x.credits.set (vc g) (if n < 4095 then n else 4095) }
    let checked := if e.sinceCheck = 4095 then s.send (.controlFlit i d.rev ((b.expSeq + 4095) % 4096) 4) else s
    let out := { e with nextSeq := (seq f + 1) % 4096, replay := e.replay ++ [(seq f, f)], sinceCheck := if e.sinceCheck = 4095 then 0 else e.sinceCheck + 1 }
    let repaid := { b with owed := b.owed.set (vc f) (b.owed.getD (vc f) 0 - back f) }
    let received := fun (v : State) => let r := v.linkEnd d; let x := scanFlit r.assembling vcs [] g
      let v := v.setEnd d { r with expSeq := (seq g + 1) % 4096, nakSent := false, assembling := x.asm, sinceAck := r.sinceAck + 1 }
      let v := x.done.foldl (fun v m => v.arriveMessage d m) (v.setEnd (dirBack d) (credited (acked (v.linkEnd (dirBack d)) (ack g))))
      if 63 ≤ r.sinceAck then (v.setEnd d { v.linkEnd d with sinceAck := 0 }).send (.nullFlit i (!d.rev) (((v.linkEnd d).expSeq + 4095) % 4096)) else v
    let replayed := fun (v : State) (x : LinkEnd) (n : Nat) => ((v.setEnd d { x with replayCount := x.replayCount - old + 1 }).send
      (.replayed i d.rev (x.replay.filter fun y => decide ((y.1 + 4096 - n) % 4096 < 2048)).length)).count 0x7002 (i + 1) 1
    let retrained := fun (v : State) => (v.setLink i { v.link i with
      state := .retraining, fwd := { (v.link i).fwd with locked := false, credited := false }
      rev := { (v.link i).rev with locked := false, credited := false } }).count 0x7003 (i + 1) 1
    (l.active = false → ∀ c ∈ [Instr.dataFlit d ⟨f, noise⟩ vcs, .nullFlit d f, .linkNak d ⟨f, old⟩, .replayTimeout ⟨d, old⟩, .linkAckTimer d, .linkRetrain ⟨d, f⟩, .nakAckTimeout d],
      exec c s = .next s) ∧
    (field f.toNat 38 2 ≠ 0 → exec (.dataFlit d ⟨f, noise⟩ vcs) s = .next s) ∧
    (l.active = true →
      (field f.toNat 38 2 = 0 →
        (seq f = e.nextSeq → replayDepth i ≤ e.replay.length →
          exec (.dataFlit d ⟨f, noise⟩ vcs) s = .next (s.send (.nullFlit i d.rev ((b.expSeq + 4095) % 4096)))) ∧
        (seq f = e.nextSeq → flitGood f = true → scan.ok = true →
          (scan.short = true ∨ b.owed.getD (vc f) 0 < back f → s.sendFlit d f vcs = none) ∧
          (scan.short = false → back f ≤ b.owed.getD (vc f) 0 → s.sendFlit d f vcs = scan.done.foldl (fun (acc : Option State) m => acc.bind fun v => v.sendMessage d m)
            (some ((checked.setEnd d { out with sending := scan.asm, credits := scan.credits }).setEnd (dirBack d) repaid)))) ∧
        (seq f = e.nextSeq → flitGood f = false ∨ scan.ok = false → s.sendFlit d f vcs = some (checked.setEnd d out)) ∧
        (seq f ≠ e.nextSeq → s.sendFlit d f vcs = if (∃ y ∈ e.replay, y.1 = seq f ∧ field y.2.toNat 0 40 = field f.toNat 0 40 ∧
          field y.2.toNat 52 1932 = field f.toNat 52 1932) then some s else none) ∧
        (seq f ≠ e.nextSeq ∨ e.replay.length < replayDepth i →
          (s.sendFlit d f vcs = none → exec (.dataFlit d ⟨f, noise⟩ vcs) s = .next s) ∧
          (s.sendFlit d f vcs = some sent → let r := sent.linkEnd d; let ok := (scanFlit r.assembling vcs [] g).ok
            (flitGood g = true → seq g = r.expSeq → ok = true → exec (.dataFlit d ⟨f, noise⟩ vcs) s = .next (received sent)) ∧
            (flitGood g = false ∨ (seq g = r.expSeq ∧ ok = false) ∨ (seq g ≠ r.expSeq ∧ 2048 < (r.expSeq + 4096 - seq g) % 4096) →
              exec (.dataFlit d ⟨f, noise⟩ vcs) s = .next (nak sent)) ∧
            (flitGood g = true → r.expSeq < 4096 → seq g ≠ r.expSeq → (r.expSeq + 4096 - seq g) % 4096 ≤ 2048 → exec (.dataFlit d ⟨f, noise⟩ vcs) s =
              .next ((sent.setEnd (dirBack d) (acked (sent.linkEnd (dirBack d)) (ack g))).count 0x7004 (i + 1) 1))))) ∧
      (field f.toNat 38 2 ≠ 1 → exec (.nullFlit d f) s = .next s) ∧
      (field f.toNat 38 2 = 1 → exec (.nullFlit d f) s = .next (if flitGood f then s.setEnd (dirBack d) (acked b (ack f)) else nak s)) ∧
      (field f.toNat 38 2 = 2 → flitGood f = true → field f.toNat 64 8 = 1 → let x := acked (acked e (ack f)) ((field f.toNat 72 12 + 4095) % 4096)
        let v := (s.setEnd d (acked e (ack f))).setEnd d x
        (x.replayCount - old < 15 → s.mem.arrays = [] → exec (.linkNak d ⟨f, old⟩) s = .next (replayed v x (field f.toNat 72 12))) ∧
        (15 ≤ x.replayCount - old → ∃ u, exec (.linkNak d ⟨f, old⟩) s = .next u ∧ (u.link i).state = .retraining ∧
          u.out.head? = some (.controlFlit i d.rev ((b.expSeq + 4095) % 4096) 5))) ∧
      (field f.toNat 38 2 ≠ 2 ∨ field f.toNat 64 8 ≠ 1 → exec (.linkNak d ⟨f, old⟩) s = .next s) ∧
      (e.replay = [] → exec (.replayTimeout ⟨d, old⟩) s = .next s) ∧
      (∀ n x r, e.replay = (n, x) :: r → e.replayCount - old < 15 → s.mem.arrays = [] → exec (.replayTimeout ⟨d, old⟩) s = .next (replayed s e n)) ∧
      (let v := if e.sinceAck = 0 then s else (s.setEnd d { e with sinceAck := 0 }).send (.nullFlit i (!d.rev) ((e.expSeq + 4095) % 4096))
        ∃ u, exec (.linkAckTimer d) s = .next u ∧ u = { v with out := u.out } ∧ u.out = (((List.range 8).filter fun c => e.owed.getD c 0 ≠ 0).map fun c =>
          Out.creditReturn i (!d.rev) c (if e.owed.getD c 0 < 255 then e.owed.getD c 0 else 255)).reverse ++ v.out) ∧
      (e.nakSent = false → exec (.nakAckTimeout d) s = .next s) ∧
      (e.nakSent = true → exec (.nakAckTimeout d) s = .next (retrained (s.send (.controlFlit i (!d.rev) ((e.expSeq + 4095) % 4096) 5)))) ∧
      (field f.toNat 38 2 = 2 → flitGood f = true → field f.toNat 64 8 = 5 →
        exec (.linkRetrain ⟨d, f⟩) s = .next (retrained (s.setEnd (dirBack d) (acked b (ack f))))) ∧
      (field f.toNat 38 2 = 2 → flitGood f = false → field f.toNat 64 8 = 5 → exec (.linkRetrain ⟨d, f⟩) s = .next (nak s)) ∧
      (field f.toNat 38 2 ≠ 2 ∨ field f.toNat 64 8 ≠ 5 → exec (.linkRetrain ⟨d, f⟩) s = .next s)) ∧
    (l.code ≠ 4 → exec (.retrainLimitExpiry d.link) s = .next s) ∧
    (l.code = 4 → ∃ u, exec (.retrainLimitExpiry d.link) s = .next u ∧ (u.link i).state = .down ∧ (u.link i).fwd.replay = [] ∧ (u.link i).rev.replay = [] ∧
      u.mem.cells = s.mem.cells ∧ (∀ r ∈ u.pkgRequests, (routeLinks r.fromDie r.toDie).contains i = false) ∧ (∀ x ∈ u.forwards, x.link.val ≠ i) ∧
      ∀ r ∈ s.pkgRequests, (routeLinks r.fromDie r.toDie).contains i = true → r.expired = false → Out.cohMessage 2 5 r.dst r.src r.addr 0 0 0 0 1 ∈ u.out)

/-- R269, R276, R279, R281, R282, R285, R413: training. Each stage leads to the next where its condition holds, and boot
stage 05h begins that of a link in reset; lanes with more than 16 bit errors fail, and more than the spares of a
direction declare the link down; capabilities in force are the intersection of both ends'; initial credits of both
ends make the link active, which a retrain does with the credits kept; the eighth attempt at bring-up that fails
declares it down. The lost link's effects are those of log 57. -/
def Obligations.LinkTraining : Prop :=
  ∀ (s : State) (d : LinkDir) (yes : Bool) (errors : List (BitVec 8 × BitVec 16)) (a b : CapWords) (counts : Vector (BitVec 12) 8),
    let i := d.link.val
    let l := s.link i
    let e := s.linkEnd d
    let o := s.linkEnd (dirBack d)
    let goes := fun (x : LinkState) => s.setLink i { l with state := x }
    let ends := fun (x : Link) => { x with fwd := { l.fwd with locked := false, credited := false }, rev := { l.rev with locked := false, credited := false } }
    let bad := (List.range (linkLanes i + linkSpares i)).filter fun p => e.failedLanes.contains p || errors.any fun x => x.1.toNat = p && decide (16 < x.2.toNat)
    let least := (List.range 8).all fun v => decide (leastCredits i v ≤ (counts.toList.map (·.toNat)).getD v 0)
    let training := l.state ≠ .reset ∧ l.state ≠ .up ∧ l.state ≠ .upSpares ∧ l.state ≠ .down
    let first := [10, 11, 14, 17]
    let may := s.boot.stage = 5 ∧ s.pins.nodeReset = false ∧ i < 18 ∧ (i ∈ first ∨ ∀ j ∈ first, (s.link j).active = true ∨ s.linkDown j = true)
    (yes = true → l.state = .detect ∨ l.state = .retraining ∨ (l.state = .reset ∧ may) → exec (.linkDetect d.link yes) s = .next (goes .lock)) ∧
    (yes = false ∨ (l.state ≠ .detect ∧ l.state ≠ .retraining ∧ (l.state = .reset → ¬ may)) → exec (.linkDetect d.link yes) s = .next s) ∧
    (l.state ≠ .lock → exec (.linkLock d errors) s = .next s) ∧
    (l.state = .lock → bad.length ≤ linkSpares i → o.failedLanes.length ≤ linkSpares i → ∃ u, exec (.linkLock d errors) s = .next u ∧
      u = { s with links := u.links } ∧ u.linkEnd d = { e with locked := true, failedLanes := bad } ∧ u.linkEnd (dirBack d) = o ∧
      (u.link i).state = if o.locked then .deskew else .lock) ∧
    (l.state = .lock → linkSpares i < bad.length → ∃ u, exec (.linkLock d errors) s = .next u ∧ (u.link i).state = .down) ∧
    (yes = true → l.state = .deskew → exec (.linkDeskew d.link yes) s = .next (goes (if l.trained then .credit else .caps))) ∧
    (yes = false ∨ l.state ≠ .deskew → exec (.linkDeskew d.link yes) s = .next s) ∧
    (l.state ≠ .caps → exec (.linkCaps d.link a b) s = .next s) ∧
    (l.state = .caps → i ≠ 18 → a.windows.length ≤ 8 → b.windows.length ≤ 8 →
      (∀ c, capIntersect a.cap0.toNat b.cap0.toNat = some c → exec (.linkCaps d.link a b) s =
        .next (s.setLink i { l with state := .credit, caps := some (BitVec.ofNat 64 c, b.cap1), offered := [], granted := [] })) ∧
      (capIntersect a.cap0.toNat b.cap0.toNat = none → ∃ u, exec (.linkCaps d.link a b) s = .next u ∧ (u.link i).state = .reset ∧
        u.die (linkEnds.getD i (0, 0)).2 = 3)) ∧
    (l.state = .caps → i = 18 → a.windows.length ≤ 8 → b.windows.length ≤ 8 → ∀ c, capIntersect a.cap0.toNat (s.companionMask b.cap0.toNat) = some c →
      exec (.linkCaps d.link a b) s = .next (s.setLink i { l with
        state := .credit, caps := some (BitVec.ofNat 64 c, b.cap1)
        offered := (b.windows.filter fun w => field w.toNat 62 2 = 0 && decide (field w.toNat 30 18 + field w.toNat 12 18 ≤ 4096))
        granted := b.windows.filterMap s.grantWindow })) ∧
    (∀ x y c, capIntersect x y = some c → field x 60 4 = field y 60 4 ∧ field c 60 4 = field x 60 4 ∧ field c 56 4 = (if field x 56 4 < field y 56 4 then field x 56 4 else field y 56 4) ∧
      (∀ n < 23, c.testBit n = (x.testBit n && y.testBit n)) ∧
      ∀ n, 24 ≤ n → n < 32 → c.testBit n = (x.testBit n && y.testBit n &&
        (n ≠ 25 || (x.testBit 21 && y.testBit 22) || (y.testBit 21 && x.testBit 22)))) ∧
    (l.state ≠ .credit ∨ least = false → exec (.creditInit d counts) s = .next s) ∧
    (l.state = .credit → least = true → let y := { e with credited := true, credits := if l.trained then e.credits else counts.toList.map (·.toNat) }
      (o.credited = false → exec (.creditInit d counts) s = .next (s.setEnd d y)) ∧
      (o.credited = true → ∃ u, exec (.creditInit d counts) s = .next u ∧ (u.link i).active = true ∧ (u.link i).trained = true ∧
        u.linkEnd d = { y with replayCount := 0, nakSent := false } ∧ u.linkEnd (dirBack d) = { o with replayCount := 0, nakSent := false })) ∧
    (¬ training → exec (.trainingStateTimeout d.link) s = .next s) ∧
    (training → (l.trained = true → exec (.trainingStateTimeout d.link) s = .next (s.setLink i { (ends l) with state := .detect })) ∧
      (l.trained = false → l.attempts < 7 → exec (.trainingStateTimeout d.link) s = .next (s.setLink i { (ends l) with state := .detect, attempts := l.attempts + 1 })) ∧
      (l.trained = false → 7 ≤ l.attempts → ∃ u, exec (.trainingStateTimeout d.link) s = .next u ∧ (u.link i).state = .down))

/-- R8, R13, R14, R271, R280, R282, R283, R285, R336, R364: lane errors below the thresholds are added up, and a lane
past one is retired by a retrain; an expired request is poisoned and recorded, and its late response discarded; the
ford engages and disengages, its intermediate die is the one with more FRD credits, and it forwards its messages; a
message at an intermediate die waits for its next link; register messages reach the registers the sender may, bytes
the scratchpad, interrupts their source. A register of the companion outside block 8 is counted (log 127); rows
stand for whole messages (logs 151, 152). -/
def Obligations.PackageMessages : Prop :=
  ∀ (s : State) (d o x : LinkDir) (lane t k a b : Nat) (flit : BitVec 2048) (dst : Fin 4) (m : Message) (src : Fin 9) (agent : Fin 13) (addr : BitVec 48)
      (width : BitVec 4) (value : W64) (source : Fin 1024) (txid : BitVec 12) (ncr : Bool) (r : PkgRequest) (cl : Fin 512) (off : BitVec 19) (data : Bytes),
    let i := d.link.val
    let l := s.link i
    let e := s.linkEnd d
    let back := s.linkEnd (dirBack d)
    let late := fun (x : PkgRequest) => x.ncr = ncr && x.src = agent.val && x.txid = txid.toNat && !x.expired
    let asks := fun (x : PkgRequest) => x.src = src.val && x.ncr && x.txid = txid.toNat
    let check := l.active = true ∧ field flit.toNat 38 2 = 2 ∧ field flit.toNat 64 8 = 4
    let put := fun (n : Nat) => if n = 0 then ([] : List (Nat × Nat)) else [(lane, n)]
    let errs := laneErrors i flit lane
    let streak := if 8 < errs then k + 1 else 0
    let met := if flitGood flit then s.setEnd (dirBack d) { back with replay := back.replay.filter fun y => decide ((field flit.toNat 40 12 + 4096 - y.1) % 4096 ≥ 2048) }
      else if e.nakSent then s
      else (s.setEnd d { e with nakSent := true }).send (.controlFlit i (!d.rev) ((e.expSeq + 4095) % 4096) (BitVec.ofNat 128 (e.expSeq <<< 8 ||| 1)))
    let c := s.cluster cl.val
    (¬ check → exec (.laneCheck d flit) s = .next s) ∧
    (check → lane < linkLanes i → (∀ p < linkLanes i, p ≠ lane → laneErrors i flit p = 0) → e.laneErrors = put t → e.laneStreak = put k →
      (t + errs < 1024 → streak < 3 → exec (.laneCheck d flit) s = .next (met.setEnd d { met.linkEnd d with
        laneErrors := put (t + errs), laneStreak := put streak
        failedLanes := (List.range (linkLanes i + linkSpares i)).filter fun p => e.failedLanes.contains p })) ∧
      (1024 ≤ t + errs ∨ 3 ≤ streak → e.failedLanes = [] → back.failedLanes = [] → ∃ u, exec (.laneCheck d flit) s = .next u ∧ (u.link i).state = .retraining ∧
        (u.linkEnd d).failedLanes = [lane] ∧ u.mem.events.head?.map (fun x => field x.toNat 144 16) = some 0x21)) ∧
    (s.pkgRequests.find? late = none → exec (.requestTimeout ⟨ncr, agent⟩ txid) s = .next s) ∧
    (s.pkgRequests.find? late = some r →
      ((routeLinks r.fromDie r.toDie).all (fun l => (s.link l).active) = false → exec (.requestTimeout ⟨ncr, agent⟩ txid) s = .next s) ∧
      (s.pkgRequests = [r] → (routeLinks r.fromDie r.toDie).all (fun l => (s.link l).active) = true → exec (.requestTimeout ⟨ncr, agent⟩ txid) s =
        .next (((({ s with pkgRequests := [{ r with expired := true }] }.count 0x7005 1 1).send (.requestPoisoned ncr r.src r.txid)).event
          { cls := 3, code := 0x23, die := r.fromDie, location := (routeLinks r.fromDie r.toDie).headD 0, data := r.txid })))) ∧
    (s.pkgRequests.find? asks = none → exec (.ncp src txid value) s = .next s) ∧
    (s.pkgRequests.find? asks = some r →
      (r.expired = true → exec (.ncp src txid value) s = .next (s.count 0x7005 2 1)) ∧
      (r.expired = false → exec (.ncp src txid value) s = .next ({ s with pkgRequests := s.pkgRequests.filter fun x => !asks x }.send (.registerRead value)))) ∧
    (i < 6 → l.active = true → setting s 0x7010 2 ≠ 0 → exec (.fordEngage d) s = .next (s.setEnd d { e with forded := true })) ∧
    (6 ≤ i ∨ l.active = false ∨ setting s 0x7010 2 = 0 → exec (.fordEngage d) s = .next s) ∧
    exec (.fordDisengage d) s = .next (s.setEnd d { e with forded := false }) ∧
    (∀ far, dirOf (dirSender d) far = some x → x.link.val < 6 → a < b → b < 4 → a ≠ dirSender d → a ≠ far → b ≠ dirSender d → b ≠ far →
      let held : Nat → Nat := fun v => match dirOf (dirSender d) v with
        | some y => (s.linkEnd y).credits.getD 7 0
        | none => 0
      s.fordVia (dirSender d) far = if (s.linkEnd x).forded = true ∧ setting s 0x7010 2 ≠ 0 then some (if held a < held b then b else a) else none) ∧
    (dirOf (dirReceiver d) dst.val = some o → s.pkgRequests = [] →
      let vc := if field m.header.toNat 40 4 = 0 then 2 else 3
      let n := 1 + m.slots.length
      let y := s.linkEnd o
      let go := l.active = true ∧ (s.link o.link.val).active = true ∧ s.fordVia (dirSender d) dst.val = some (dirReceiver d) ∧
        n + 1 ≤ e.credits.getD 7 0 ∧ n ≤ y.credits.getD vc 0
      (¬ go → exec (.linkFrd d dst m) s = .next s) ∧
      (go → exec (.linkFrd d dst m) s = .next (((((s.setEnd d { e with
          credits := e.credits.set 7 (e.credits.getD 7 0 - (n + 1)), owed := e.owed.set 7 (e.owed.getD 7 0 + (n + 1)) }).setEnd o { y with
          credits := y.credits.set vc (y.credits.getD vc 0 - n), owed := y.owed.set vc (y.owed.getD vc 0 + n) }).count 0x7010 3 1)).send
        (.message vc dst.val (msgHeader m.header) m.slots)))) ∧
    (∀ vc < 7, let h := msgHeader m.header
      let goal := if vc < 4 then agentDie h.dst else h.dst
      let owes := s.setEnd d { e with owed := e.owed.set vc (e.owed.getD vc 0 + (1 + m.slots.length)) }
      (goal = dirReceiver d → s.arriveMessage d (vc, m) = owes.noteMessage vc goal m) ∧
      (goal ≠ dirReceiver d → dirOf (dirReceiver d) (nextDie (if vc < 4 then agentDie h.src else h.src) (dirReceiver d) goal) = some o →
        s.arriveMessage d (vc, m) = if s.linkDown o.link.val then owes else
          { s with forwards := s.forwards ++ [{ link := o.link, rev := o.rev, vc := vc, msg := m, fromLink := d.link, fromRev := d.rev, fromVc := vc, slots := 1 + m.slots.length }] })) ∧
    (∀ i ∈ [(Instr.ncrRegisterRead src addr width, 58), (.ncrRegisterWrite src addr width value, 59)],
      (s.registerAllowed src.val addr.toNat i.2 = false → exec i.1 s = .next ((s.count 0x7021 3 1).send (.cohMessage 2 5 11 12 addr.toNat 0 0 0 0 3))) ∧
      (s.registerAllowed src.val addr.toNat i.2 = true → s.windowReached src.val (window addr.toNat) = false →
        exec i.1 s = .next (s.send (.cohMessage 2 5 src.val src.val addr.toNat 0 0 0 0 1))) ∧
      (s.registerAllowed src.val addr.toNat i.2 = true ↔ src.val = 8 → 0x101000000000 ≤ addr.toNat ∧ addr.toNat < 0x101200000000 ∧
        ∃ w ∈ (s.link 18).granted, w.toNat.testBit i.2 = true ∧ field w.toNat 30 18 ≤ addr.toNat / 2 ^ 30 ∧
          addr.toNat / 2 ^ 30 < field w.toNat 30 18 + field w.toNat 12 18)) ∧
    (s.windowReached src.val (window addr.toNat) = true →
      (s.registerAllowed src.val addr.toNat 58 = true → exec (.ncrRegisterRead src addr width) s =
        .next ((s.readAt .node addr.toNat width.toNat).1.send (.registerRead (BitVec.ofNat 64 (s.readAt .node addr.toNat width.toNat).2)))) ∧
      (s.registerAllowed src.val addr.toNat 59 = true → exec (.ncrRegisterWrite src addr width value) s =
        .next (s.writeAt .node (s.diePart src.val) addr.toNat width.toNat value.toNat))) ∧
    exec (.ncrInterrupt src source) s = .next (s.raise source.val) ∧
    (data.length ≤ 128 → data.length % 32 = 0 → off.toNat + data.length ≤ c.spadSize →
      ∃ u, exec (.ncrScratchpadWrite cl off data none) s = .next u ∧ u = { s with clusters := u.clusters } ∧ (∀ k, k ≠ cl.val → u.cluster k = s.cluster k) ∧
        u.cluster cl.val = { c with spad := (u.cluster cl.val).spad } ∧
        ∀ x, readByte (u.cluster cl.val).spad x = if off.toNat ≤ x ∧ x < off.toNat + data.length then data.getD (x - off.toNat) 0 else readByte c.spad x)

/-- R290, R294 to R297, R309: the arrival of a crossing-transport packet. A port that is not up takes nothing, a held
one only management; a frame that fails its checks (which of R290 a received frame must show: log 160) is discarded
and counted; one that no open group admits is counted late or unknown; a duplicate is counted and acknowledged
again, but not performed; a packet in order advances the receiver's cumulative PSN. A previous sailing of zero names
none, and every arriving NCT packet is counted (logs 121, 122); the checks of a received frame are log 160. -/
def Obligations.PacketAdmission : Prop :=
  ∀ (s : State) (port : Fin 12) (pkt : NctIn),
    let h := pkt.header.toNat
    let fk := flowKey (port.val / 6) (nctGroup h) (nctSrc h)
    let t := s.count 0x5020 2 1
    let psn : BitVec 32 := BitVec.ofNat 32 (nctPsn h)
    let rows := [(Instr.nctPut port pkt, 1), (.nctGet port pkt, 2), (.nctGetresp port pkt, 3), (.nctAtomicresp port pkt, 5), (.nctReducePut port pkt, 6),
      (.nctTadd port pkt, 7), (.nctTile port pkt, 8), (.nctCredit port pkt, 9), (.nctConnect port pkt, 10), (.nctEnd port pkt, 11), (.nctAbandon port pkt, 12), (.nctError port pkt, 0x11)]
    let st := (s.subport (4 * port.val + pkt.sub.val)).state
    let takes := st = .up ∨ st = .narrowed ∨ (st = .held ∧ nctKind h = 3 ∧ nctSailing h = 0)
    let frame := pkt.wellFormed = true ∧ 1 ≤ pkt.hopLimit.toNat ∧ pkt.hopLimit.toNat ≤ 64 ∧
      pkt.flowLabel.toNat = (nctPsn h ^^^ field h 304 16) % 2 ^ 20 ∧ pkt.dscp.toNat = setting s 0x5010 (if nctKind h ≤ 1 then 4 else 5) ∧
      (nctKind h ≤ 1 → 2 ≤ pkt.ecn.toNat) ∧ pkt.udpDst.toNat = setting s 0x5010 3 ∧ (nctKind h ≠ 3 → pkt.udpPort.toNat = 0xC000 + nctPsn h % 0x4000)
    let whole := rows ++ [(.nctAtomic port pkt, 4), (.nctAck port pkt, 0x10), (.nctMgmt port pkt, 0x20)]
    (∀ i ∈ whole, ¬ takes → exec i.1 s = .next s) ∧
    (takes →
      (¬ frame ∨ nctWellFormed h pkt.payload = false → ∀ i ∈ whole, exec i.1 s = .next (t.count 0x5020 7 1)) ∧
      (frame → nctWellFormed h pkt.payload = true →
        (∀ i ∈ whole, nctOp h ≠ i.2 → exec i.1 s = .next t) ∧
        (∀ i ∈ whole, nctOp h = i.2 → t.sailingAccepts h = false → exec i.1 s = .next (t.countDiscard (nctSailing h))) ∧
        (∀ i ∈ rows, nctOp h = i.2 → t.sailingAccepts h = true → (nctFlags h).testBit 4 = false → let d := (psn - (t.flow fk).cum).toNat
          (d = 0 ∨ 2 ^ 31 ≤ d ∨ psn ∈ (t.flow fk).recorded → let w := t.count 0x5020 4 1
            exec i.1 s = .next ((if pkt.ecn.toNat = 3 then w.setFlow fk { w.flow fk with sawCe := true } else w).sendAck fk)) ∧
          (1 ≤ d → d ≤ 4096 → psn ∉ (t.flow fk).recorded → t.flowRoom fk (d ≠ 1) = false → exec i.1 s = .next (t.count 0x5020 8 1)) ∧
          (4096 < d → d < 2 ^ 31 → psn ∉ (t.flow fk).recorded → exec i.1 s = .next (t.count 0x5020 7 1))))) ∧
    (s.sailingAccepts h = true ↔ (nctSailing h = 0 ∧ nctKind h = 3) ∨ (grpSailing (s.groupEntry (nctGroup h)) = nctSailing h ∧
      (grpState (s.groupEntry (nctGroup h)) = 1 ∨ (grpState (s.groupEntry (nctGroup h)) = 2 ∧ (nctKind h = 1 ∨ nctKind h = 2))))) ∧
    (let sail := nctSailing h; let late := fun p => sail ≠ 0 ∧ s.counter 0x5042 (p + 1) = sail; let u := s.countDiscard sail;
      ((∀ p < 8, ¬ late p) → u = s.count 0x5020 6 1) ∧
      (∀ k < 8, late k → u = { s with counters := u.counters } ∧ u.counter 0x5020 6 = s.counter 0x5020 6 ∧
        ∀ p < 8, (late p → u.counter 0x5041 (p + 1) = (s.counter 0x5041 (p + 1) + 1) % 2 ^ 64) ∧ (¬ late p → u.counter 0x5041 (p + 1) = s.counter 0x5041 (p + 1)))) ∧
    (let f := s.flow fk;
      f.recorded = [] → psn = f.cum + 1 → f.sinceAck < 15 → s.recordPsn fk psn = s.setFlow fk { f with cum := psn, sinceAck := f.sinceAck + 1, receiving := true }) ∧
    (let f := s.flow fk; let f' : Flow := { f with recorded := f.recorded ++ [psn], sinceAck := f.sinceAck + 1, receiving := true };
      psn ≠ f.cum + 1 → f.cum + 1 ∉ f.recorded → s.recordPsn fk psn = (s.setFlow fk f').sendAck fk)

/-- R186, R189, R211 to R213, R295, R298 to R305, R312, R313: what an admitted packet in order does. Writes, reads and
adder operations act on the key's region where its checks pass, and count the tally they name; anything else is
answered with ERROR; tiles, credits and the other packets of a long ferry reach its ends; responses and
acknowledgements end the operations they name. Where R302 leaves it open, the reading of logs 119 and 122 to 125. -/
def Obligations.PacketEffects : Prop :=
  ∀ (s u v : State) (port : Fin 12) (pkt : NctIn) (a k n old : Nat) (b : Bytes) (e : InEnd) (kn : Kernel) (f : Ferry) (o : NetOp) (p : TxPacket),
    let h := pkt.header.toNat
    let arg := nctArg h
    let fk := flowKey (port.val / 6) (nctGroup h) (nctSrc h)
    let hub := 10 + flowHub fk
    let t := s.count 0x5020 2 1
    let fl := t.flow fk
    let psn : BitVec 32 := BitVec.ofNat 32 (nctPsn h)
    let arrives := fun (op : Nat) => s.arrivesAt port pkt = true ∧ s.frameOk pkt = true ∧ nctWellFormed h pkt.payload = true ∧ nctOp h = op ∧
      t.sailingAccepts h = true ∧ (nctFlags h).testBit 4 = false ∧ psn = fl.cum + 1 ∧ fl.recorded = [] ∧ pkt.ecn ≠ 3 ∧ t.flowRoom fk false = true
    let got := fun (i : Instr) (w : State) => exec i s = .next (w.recordPsn fk psn)
    let failed := fun (i : Instr) (w : State) (status : Nat) => exec i s = .next ((w.respond fk 0x11 (nctPsn h <<< 32 ||| status) []).recordPsn fk psn)
    let held := fun (i : Instr) (w : State) => exec i s = .next w
    let q := field arg 55 9
    let op := field arg 60 4
    let fmt := field arg 56 4
    let size := adderSize fmt
    let queue := fun (x : FerryQueue) => t.modKernel e.kernel fun kn => kn.setFq e.ferry q x
    let x := kn.fq e.ferry q
    let live := t.inTarget (nctGroup h) (nctKey h) = .live e kn f
    (arrives 1 → (∀ c, t.packetTally h false = .none → t.keyTarget h 250 = .error c → failed (.nctPut port pkt) t c) ∧
      (t.keyTarget h 250 = .ok a → t.hubWriteRange hub a pkt.payload = some u →
        (t.packetTally h false = .none → got (.nctPut port pkt) u) ∧
        (∀ d i, t.packetTally h false = .tally d i → got (.nctPut port pkt) (u.tallyInc d i pkt.payload.length))) ∧
      (t.packetTally h false = .unbound → held (.nctPut port pkt) (t.count 0x5020 9 1)) ∧
      (t.keyTarget h 250 = .ok a → t.packetTally h false = .bad → failed (.nctPut port pkt) t 7)) ∧
    (∀ right, (∀ r, t.keyTarget h right = .ok r → let w := t.keyEntry (nctKey h % 65536)
      keyValid w = true ∧ keyEpoch w = nctKey h / 65536 ∧ keySailing w = nctSailing h ∧ w.testBit right = true ∧ r = keyBase w + nctAddr h ∧ nctAddr h + nctLen h ≤ keySize w)) ∧
    (arrives 2 → t.responsesFull fk = false → t.keyTarget h 251 = .ok a →
      (t.hubReadRange hub a (nctLen h) = some (u, b, false, false) → got (.nctGet port pkt) (u.respond fk 3 (arg % 2 ^ 32) b)) ∧
      (t.hubReadRange hub a (nctLen h) = some (u, b, true, false) → failed (.nctGet port pkt) u 5)) ∧
    (arrives 4 → t.responsesFull fk = false → t.keyTarget h 249 = .ok a → t.keyAddr a = some k →
      (pkt.payload.length = (if op = 7 then 2 * size else size) →
        t.adderAtomic hub k op fmt (le pkt.payload 0 size) (le pkt.payload size size) = some (u, .old old) →
          got (.nctAtomic port pkt) (u.respond fk 5 (arg % 2 ^ 32) (if arg.testBit 55 then toLE size old else []))) ∧
      (pkt.payload.length ≠ (if op = 7 then 2 * size else size) → failed (.nctAtomic port pkt) t 6)) ∧
    (arrives 6 → t.packetTally h false = .none → t.keyTarget h 249 = .ok a →
      let ok := decide (op ≤ 5) && (lineParts (pkt.payload.length / 128 + 2) a pkt.payload.length).all (fun x => reduceOk x.1 op fmt x.2);
      (ok = false → failed (.nctReducePut port pkt) t 6) ∧
      (ok = true → t.reduceParts hub op fmt a pkt.payload = some (u, n) → got (.nctReducePut port pkt) u)) ∧
    (arrives 7 → (∀ d i, t.packetTally h true = .tally d i → got (.nctTadd port pkt) (t.tallyInc d i arg)) ∧
      (t.packetTally h true = .unbound → held (.nctTadd port pkt) (t.count 0x5020 9 1)) ∧ (t.packetTally h true = .bad → failed (.nctTadd port pkt) t 7)) ∧
    (t.inTarget (nctGroup h) (nctKey h) = .unknown →
      (arrives 8 → held (.nctTile port pkt) t) ∧ (arrives 10 → held (.nctConnect port pkt) t) ∧ (arrives 11 → held (.nctEnd port pkt) t) ∧ (arrives 12 → got (.nctAbandon port pkt) t)) ∧
    (t.inTarget (nctGroup h) (nctKey h) = .gone →
      (arrives 8 → failed (.nctTile port pkt) t 8) ∧ (arrives 10 → held (.nctConnect port pkt) t) ∧ (arrives 11 → failed (.nctEnd port pkt) t 8)) ∧
    (t.inTarget (nctGroup h) (nctKey h) = .failed →
      (arrives 8 → failed (.nctTile port pkt) t 8) ∧ (arrives 10 → failed (.nctConnect port pkt) t 8) ∧ (arrives 11 → failed (.nctEnd port pkt) t 8)) ∧
    (live → q < kn.queueCount f →
      (∀ i, arrives 8 → (nctFlags h).testBit 6 = true → field arg 16 16 = 0 → nctLen h ≤ 256 * f.tileSize → x.partialTiles = [] → field arg 32 16 = x.tiles % 65536 →
        (List.range f.capacity).filter (fun i => x.slots[i]? = some .free) = [i] → let unit := kn.slotUnit e.ferry f i
        got (.nctTile port pkt) ((t.modCluster (kn.queueCluster f q) fun c => c.spadWrite (256 * unit) pkt.payload).modKernel e.kernel fun kn => kn.setFq e.ferry q { x with
          slots := (x.slots.set i (.reserved hubHolder)).set i .committed, tiles := x.tiles + 1
          fifo := x.fifo ++ [BitVec.ofNat 64 (setField (setField (nctAddr h) 0 11 unit) 54 6 0)] })) ∧
      (arrives 10 → arg % 256 = f.capacity → field arg 32 10 = kn.queueCount f → t.kernel? e.kernel = some kn →
        got (.nctConnect port pkt) ((queue { x with matched := true, peer := nctSrc h }).ferrySend e.kernel e.ferry q (nctSrc h) 9 f.capacity none)) ∧
      (arrives 10 → arg % 256 ≠ f.capacity ∨ field arg 32 10 ≠ kn.queueCount f → failed (.nctConnect port pkt) (t.failInEnd e) 8) ∧
      (arrives 11 → t.kernel? e.kernel = some kn → got (.nctEnd port pkt) (queue { x with endCount := some (field arg 32 16) }))) ∧
    (live → arrives 12 → got (.nctAbandon port pkt) (t.modKernel e.kernel fun kn =>
      { kn with ferries := kn.ferries.map fun y => if y.1 / 512 = e.ferry then (y.1, { y.2 with gone := true }) else y })) ∧
    (∀ id fi, arrives 9 → t.outEnd (nctGroup h) (nctKey h) = some (id, fi) → t.kernel? id = some kn → (sget? (ferryKey fi q) kn.ferries).isSome = true →
      let y := kn.fq fi q
      got (.nctCredit port pkt) (t.setKernel id (kn.setFq fi q { y with credits := some (y.credits.getD 0 + arg % 2 ^ 32), matched := true }))) ∧
    (arrives 3 → t.replyOp fk (arg % 2 ^ 32) = none → got (.nctGetresp port pkt) t) ∧
    (∀ cl line w, arrives 3 → t.replyOp fk (arg % 2 ^ 32) = some o → o.user = .load cl line w →
      got (.nctGetresp port pkt) ((t.dropOp o.id).fillArrives cl line { data := BitVec.ofNat 1024 (fromLE pkt.payload), poison := 0 })) ∧
    (∀ gk lane g word (bs : List AtomicBlock), arrives 5 → t.replyOp fk (arg % 2 ^ 32) = some o → o.user = .atomic gk lane → t.group? gk = some g → g.wait = .atomics word bs →
      got (.nctAtomicresp port pkt) ((match bs.find? fun (y : AtomicBlock) => y.lane = lane with
        | some y => (t.dropOp o.id).dropL1 (gcluster gk) (lineOf y.loc)
        | none => t.dropOp o.id).atomicProgress gk g word
        (bs.map fun (y : AtomicBlock) => if y.lane = lane then { y with result := some (fromLE pkt.payload) } else y))) ∧
    (arrives 0x11 → t.net.ops.find? (fun o => o.flow = fk && o.psns.contains (BitVec.ofNat 32 (field arg 32 32))) = some o →
      got (.nctError port pkt) ((t.failOp o (arg % 256) true).schedSettleAll)) ∧
    (s.arrivesAt port pkt = true → s.frameOk pkt = true → nctWellFormed h pkt.payload = true → nctOp h = 0x10 → t.sailingAccepts h = true →
      nctFlags h = 0 → fl.unacked = [p] → p.sent = true → p.psn = psn → p.op = none → fl.acked + 1 < fl.window →
      v = (t.setFlow fk { fl with acked := fl.acked + 1, timerUs := 64 }).setFlow fk { fl with acked := fl.acked + 1, timerUs := 64, unacked := [] } →
        exec (.nctAck port pkt) s = .next ((v.pump fk).schedSettleAll))

/-- R288 to R292, R296, R298, R300, R317, R425: the timers of a flow, and the Ethernet ports. An ACK timer acknowledges;
a retransmission timeout doubles the timer to at most 8 ms, drops the window to 2 and resends; an operation timeout
kills the flow; a port that comes up is held, then joins the spray sets; a retired lane narrows its port or takes it
down; neighbours, router advertisements, solicitations and echo requests are taken and answered. A port's first
neighbour is no change (log 126). -/
def Obligations.FlowsAndPorts : Prop :=
  ∀ (s : State) (fid : FlowId) (psn : BitVec 32) (sp : SubPort) (lane : Fin 48) (cause : Fin 2) (chassis portId data : Bytes) (x1 x2 : BitVec 128) (mac : BitVec 48) (grp : Fin 4096)
      (p : TxPacket) (o : NetOp),
    let fk := flowOf fid
    let f := s.flow fk
    let k := 4 * sp.port.val + sp.sub.val
    let x := s.subport k
    let linked := x.state = .held ∨ x.state = .up ∨ x.state = .narrowed
    let put := fun (y : SubPortState) => s.setSubport k y
    let lanes := if x.narrowed then x.lanes else (s.modeLanes k).filter fun l => !s.net.retiredLanes.contains l
    let mine := fun (a : BitVec 128) => linked ∧ a ≠ 0 ∧ x.address = a
    let e := s.groupEntry grp.val
    (f.sinceAck = 0 → exec (.nctAckTimer fid) s = .next s) ∧ (f.sinceAck ≠ 0 → exec (.nctAckTimer fid) s = .next (s.sendAck fk)) ∧
    (f.unacked.find? (fun p => p.sent) = none → exec (.retransmissionTimeout fid) s = .next s) ∧
    (f.unacked.find? (fun p => p.sent) = some p → exec (.retransmissionTimeout fid) s =
      .next ((s.setFlow fk { f with timerUs := if 8000 < 2 * f.timerUs then 8000 else 2 * f.timerUs, window := 2 }).resend fk p false)) ∧
    (f.unacked.find? (fun p => p.psn = psn && p.op.isSome) = none → exec (.operationTimeout fid psn) s = .next s) ∧
    (f.unacked.find? (fun p => p.psn = psn && p.op.isSome) = some p → s.net.ops.find? (fun o => some o.id = p.op) = some o →
      exec (.operationTimeout fid psn) s = .next (((s.setFlow fk { f with killed := true }).failOp o 0xFF false).schedSettleAll)) ∧
    (f.receiving = true → exec (.flowStateExpiry fid) s = .next (s.setFlow fk { f with receiving := false, cum := 0xFFFFFFFF, recorded := [], sinceAck := 0, sawCe := false })) ∧
    (f.receiving = false → exec (.flowStateExpiry fid) s = .next s) ∧
    (linked → (let gone := put { x with state := .down, lost := true }
        exec (.portLinkLoss sp) s = .next ((gone.drainPort k).moveQueue k) ∧ (x.queue = [] → (gone.drainPort k).moveQueue k = gone)) ∧
      exec (.lldpTransmit sp) s = .next (s.send (.lldp sp.port.val sp.sub.val Config.serialNumber
        (0x50 :: decimal sp.port.val ++ (if inForce s 0x5001 (sp.port.val + 1) = 0 then [] else 0x2E :: decimal sp.sub.val)) 4)) ∧
      exec (.routerAdvertisement sp mac) s = .next (put { x with nextHop := some mac }) ∧
      (x.neighbour = none ∨ x.neighbour = some (chassis, portId) → exec (.lldpFrame sp chassis portId) s = .next (put { x with neighbour := some (chassis, portId) })) ∧
      (∀ y, x.neighbour = some y → y ≠ (chassis, portId) →
        exec (.lldpFrame sp chassis portId) s = .next ((put { x with neighbour := some (chassis, portId) }).count 0x5003 (sp.port.val + 1) 1)) ∧
      exec (.portLinkUp sp) s = .next s) ∧
    (¬ linked → (∀ i ∈ [Instr.portLinkLoss sp, .lldpTransmit sp, .routerAdvertisement sp mac, .lldpFrame sp chassis portId, .neighborSolicitation sp x1 x2, .echoRequest sp x1 x2 data],
        exec i s = .next s) ∧
      (lanes = [] ∨ s.modeLanes k = [] ∨ s.net.reference = false → exec (.portLinkUp sp) s = .next s) ∧
      (lanes ≠ [] → s.modeLanes k ≠ [] → s.net.reference = true → let y := { x with state := .held, lost := false, lanes := lanes, address := BitVec.ofNat 128 (setting s 0x5010 (k / 24 + 1)) }
        (x.lost = false → exec (.portLinkUp sp) s = .next (put y)) ∧
        (x.lost = true → exec (.portLinkUp sp) s = .next ((put y).event { cls := 2, code := 0x31, die := 6 + k / 24, location := k / 4 })))) ∧
    (x.state ≠ .held → exec (.portHoldExpiry sp) s = .next s) ∧
    (x.state = .held → exec (.portHoldExpiry sp) s = .next (put { x with state := if x.narrowed then .narrowed else .up }).pumpAll) ∧
    (mine x1 → exec (.neighborSolicitation sp x1 x2) s = .next (s.send (.neighbourAdvertisement sp.port.val sp.sub.val x1)) ∧
      (x.state = .held → exec (.echoRequest sp x1 x2 data) s = .next s) ∧
      (x.state ≠ .held → exec (.echoRequest sp x1 x2 data) s = .next (s.send (.echoReply sp.port.val sp.sub.val x1 x2 data)))) ∧
    exec (.pauseFrame sp) s = .next (s.count 0x5020 0xC 1) ∧
    (lane.val ∈ s.net.retiredLanes → exec (.networkLaneRetire lane cause) s = .next s) ∧
    (lane.val ∉ s.net.retiredLanes → inForce s 0x5001 (lane.val / 4 + 1) = 0 → (∀ j < 4, s.subport (lane.val / 4 * 4 + j) = if j = 0 then s.subport (lane.val / 4 * 4) else {}) →
      (s.subport (lane.val / 4 * 4)).lanes = [] → (s.subport (lane.val / 4 * 4)).queue = [] → ∃ u, exec (.networkLaneRetire lane cause) s = .next u ∧ lane.val ∈ u.net.retiredLanes ∧
        let b := lane.val / 4 * 4
        u.subport b = { s.subport b with state := .training, narrowed := true, lanes := if lane.val % 4 < 2 then [b + 2, b + 3] else [b, b + 1] } ∧
        u.mem.events.head?.map (fun y => field y.toNat 144 16) = some 0x30) ∧
    (e.testBit 14 = false → exec (.peerCappedExpiry grp) s = .next s) ∧
    (e.testBit 14 = true → exec (.peerCappedExpiry grp) s = .next (s.setGroupEntry grp.val (setField e 14 1 0))) ∧
    (∃ u, exec .networkReferenceLoss s = .next u ∧ u.net.reference = false ∧ ∀ j < 48, let y := s.subport j
      u.subport j = { (if y.state = .held ∨ y.state = .up ∨ y.state = .narrowed then { y with state := .down, lost := true } else y) with queue := (u.subport j).queue }) ∧
    (s.net.reference = true → exec .networkReferenceReturn s = .next s) ∧
    (s.net.reference = false → ∃ u, exec .networkReferenceReturn s = .next u ∧ u.net.reference = true ∧ ∀ j < 48, let y := s.subport j
      u.subport j = if y.lost then { y with state := .training } else y)

/-- R304, R310, R317, R323, R377: the life of a group entry and of a key. A closed entry opens with the sailing in
force, once; an open one closes through closing, unless a kernel is bound to it; every other move sets WRERR; a
write while the partition's image is written is held. A key becomes valid only over memory its partition holds and
with the sailing in force. Closing a closed entry moves nothing, and held writes are performed at the image's end
(logs 26, 33). -/
def Obligations.GroupsAndKeys : Prop :=
  ∀ (s : State) (via : Requester) (grp : Fin 4096) (i : Fin 16384) (word : W64),
    let g := grp.val
    let e := s.groupEntry g
    let t := s.setGroupEntry g e
    let p := grpPart e
    let rows := [Instr.groupStateOpen via grp, .groupStateClosing via grp, .groupStateClosed via grp]
    let sails := grpSailing e ≠ 0 ∧ grpSailing e = setting s 0x5040 (p + 1) ∧ grpSailing e ≠ grpLastSail e
    let wrong := fun (c : Instr) => exec c s = .next (t.setGroupEntry g (e ||| 2 ^ 11))
    let opened := t.setGroupEntry g (setField (setField (setField e 0 3 1) 14 1 0) 15 1 (b2n (s.capOf p)))
    let k := s.keyEntry i.val
    let v := match via.vf? with
      | some p => setField word.toNat 60 3 p
      | none => word.toNat
    let new := setField k 192 64 (mergeMask (field k 192 64) 0xFE000000FFFFFFFF v)
    (s.inShare via.vf? 4096 g = false → ∀ c ∈ rows, exec c s = .next s) ∧
    (s.inShare via.vf? 4096 g = true → s.imaging p = true → ∀ c ∈ rows.zip [1, 2, 0],
      exec c.1 s = .next { t with mem := { t.mem with heldWrites := t.mem.heldWrites ++ [(p, g, c.2)] } }) ∧
    (s.inShare via.vf? 4096 g = true → s.imaging p = false →
      (grpState e = 0 → (sails → exec (.groupStateOpen via grp) s = .next { opened with net := { opened.net with flows := opened.net.flows.filter fun x => flowGroup x.1 ≠ g } }) ∧
        (¬ sails → wrong (.groupStateOpen via grp)) ∧ wrong (.groupStateClosing via grp) ∧ exec (.groupStateClosed via grp) s = .next t) ∧
      (grpState e = 1 → wrong (.groupStateOpen via grp) ∧ wrong (.groupStateClosed via grp) ∧
        (grpBound e = true → wrong (.groupStateClosing via grp)) ∧ (grpBound e = false → exec (.groupStateClosing via grp) s = .next (t.setGroupEntry g (setField e 0 3 2)))) ∧
      (grpState e = 2 → wrong (.groupStateOpen via grp) ∧ wrong (.groupStateClosing via grp) ∧ exec (.groupStateClosed via grp) s = .next (t.closeGroup g))) ∧
    (grpState e ≠ 2 ∨ (s.net.ops.any fun o => flowGroup o.flow = g) = true → exec (.groupClosingDone grp) s = .next s) ∧
    (grpState e = 2 → (s.net.ops.any fun o => flowGroup o.flow = g) = false → ∃ u, exec (.groupClosingDone grp) s = .next u ∧ u = { s with net := u.net } ∧
      u.groupEntry g = setField (setField e 0 3 0) 288 32 (grpSailing e) ∧ (∀ h, h ≠ g → u.groupEntry h = s.groupEntry h) ∧ u.net.flows = s.net.flows.filter fun x => flowGroup x.1 ≠ g) ∧
    (word.getLsbD 63 = false ∨ s.inShare via.vf? 16384 i.val = false → exec (.keyEntryValid via i word) s = .next s) ∧
    (word.getLsbD 63 = true → s.inShare via.vf? 16384 i.val = true →
      (s.regionHeld (keyPart new) (keyBase new) (keySize new) = true → keySailing new = setting s 0x5040 (keyPart new + 1) → exec (.keyEntryValid via i word) s = .next (s.setKey i.val new)) ∧
      (s.regionHeld (keyPart new) (keyBase new) (keySize new) = false ∨ keySailing new ≠ setting s 0x5040 (keyPart new + 1) →
        exec (.keyEntryValid via i word) s = .next (s.count 0x5020 0xA 1)))

/-- R212, R314 to R316: the collective sequencer. SEQ_GO starts an idle slot on its header, a running one ignores it;
the next step of a running slot starts when its turn comes and its fence allows; a PUT, REDUCE or TADD goes out on
the member's flow, a WAIT passes once its tally is there; a schedule whose steps are done and acknowledged counts
DONE and raises its interrupt. -/
def Obligations.Schedules : Prop :=
  ∀ (s : State) (hub : Fin 2) (slot : Fin 16) (width : BitVec 4) (kn : Kernel) (id r : Nat) (b data : Bytes),
    let k := 16 * hub.val + slot.val
    let x := s.slotReg k
    let put := fun (y : SchedSlot) => s.setSched k y
    let h := fromLE b
    let g := field h 0 12
    let ok := x.addr.toNat % 64 = 0 ∧ h / 2 ^ 96 = 0 ∧ field h 12 20 = 0 ∧ field h 48 16 = 1 ∧ field h 32 16 ≠ 0 ∧ field h 32 16 ≤ 4096 ∧
      grpState (s.groupEntry g) = 1 ∧ s.rangeHeld (grpPart (s.groupEntry g)) x.addr.toNat (64 * (field h 32 16 + 1)) = true
    let started := put { x with
      base := x.addr, state := 1, stepIndex := 0, status := 0, inFlight := [], group := g, steps := field h 32 16, done := BitVec.ofNat 32 (field h 64 32) }
    let rows := [(Instr.scheduleNop hub slot, 0), (.schedulePut hub slot, 1), (.scheduleReduce hub slot, 2), (.scheduleTadd hub slot, 3), (.scheduleWait hub slot, 4)]
    let turn := x.state = 1 ∧ x.stepIndex < x.steps ∧ s.schedStep x x.stepIndex = (r, false) ∧ s.stepOk x.group r = true ∧ grpState (s.groupEntry x.group) = 1 ∧
      (r.testBit 7 = true → x.inFlight = []) ∧ x.inFlight.length < 64 ∧ s.boundKernel x.group = some (id, kn)
    let op := field r 0 4
    let m := stepMember s x.group r
    let key := if field r 352 32 = 0 then field (s.member x.group m) 224 32 else field r 352 32
    let next := put { x with stepIndex := x.stepIndex + 1 }
    let sent := fun ps => ((put { x with stepIndex := x.stepIndex + 1, inFlight := x.inFlight ++ [(x.stepIndex, s.net.nextOp)] }).startOp
      (flowKey hub.val x.group m) (.schedule hub.val slot.val x.stepIndex) false ps).schedSettle k
    let n := field r 320 32
    let tally := field r 288 32
    let fl := if r.testBit 8 then 0x80 else 0
    let parts := fun (code arg : Nat) => (splitRemote (n / 4096 + 2) 0 (field r 384 64) n).map fun (l, a, len) =>
      (code, fl, key, a, len, if fl = 0 then 0 else tally, arg, slice data l len)
    (width ≠ 8 → exec (.seqGo hub slot width) s = .next s) ∧
    (x.state = 1 → exec (.seqGo hub slot 8) s = .next (s.count 0x5050 3 1)) ∧
    (x.state ≠ 1 → s.peekBytes x.addr.toNat 64 = (b, false) → ok →
      (s.boundKernel g = some (id, kn) → exec (.seqGo hub slot 8) s = .next started) ∧
      (s.boundKernel g = none → exec (.seqGo hub slot 8) s = .next (started.schedFail k 0 0xFE))) ∧
    (x.state ≠ 1 ∨ x.steps ≤ x.stepIndex → ∀ i ∈ rows, exec i.1 s = .next s) ∧
    (turn → ∀ i ∈ rows, i.2 ≠ op → exec i.1 s = .next s) ∧
    (turn → op = 0 → exec (.scheduleNop hub slot) s = .next (next.schedSettle k)) ∧
    (turn → op = 3 → exec (.scheduleTadd hub slot) s = .next (sent [(7, 0, key, 0, 0, tally, field r 256 32, [])])) ∧
    (∀ d t, turn → op = 4 → kn.tallyOf tally 4 = some (d, t) →
      (field r 448 64 ≤ s.tallyValue d t → exec (.scheduleWait hub slot) s = .next (next.schedSettle k)) ∧
      (s.tallyValue d t < field r 448 64 → exec (.scheduleWait hub slot) s = .next s)) ∧
    (turn → s.peekBytes (field r 448 64) n = (data, false) →
      (op = 1 → n = 0 → exec (.schedulePut hub slot) s = .next (next.schedSettle k)) ∧
      (op = 1 → n ≠ 0 → exec (.schedulePut hub slot) s = .next (sent (parts 1 0))) ∧
      (op = 2 → n = 0 → exec (.scheduleReduce hub slot) s = .next (next.schedSettle k)) ∧
      (op = 2 → n ≠ 0 → exec (.scheduleReduce hub slot) s = .next (sent (parts 6 (field r 20 4 <<< 60 ||| field r 16 4 <<< 56))))) ∧
    (x.state = 1 → x.stepIndex = x.steps → x.inFlight = [] → s.boundKernel x.group = some (id, kn) → ∀ d t, kn.tallyOf x.done.toNat 4 = some (d, t) →
      s.schedSettle k = (((s.tallyInc d t 1).setSched k { x with state := 2 }).count 0x5050 1 1).raise (528 + k))

/-- R183, R185, R193 to R199, R364, R366, R368, R369: the repair port of a stack and the errors of memory. An
instruction of the port runs while none is running and ends with its result; a symbol error within the code's reach
is corrected and counted as a read meets it, one beyond poisons the sector, one further still is free (log 150); a
fill copies granule by granule; a package that fails is recorded once; a slot is freed, and a stack goes offline,
comes back zeroed, by request. What resources remain and what a package holds are opaque (log 6); symbols in error
come with PATROL_SCRUB (log 150). -/
def Obligations.MemoryRepair : Prop :=
  ∀ (s : State) (stack : Fin 16) (pkg : Fin 24) (pcn : Fin 1024) (addr : BitVec 48) (a : Nat) (n : Fin 37) (row : BitVec 18) (bad : BitVec 8) (p sub gr cause : Nat),
    let st := stack.val
    let x := s.stack st
    let put := fun (y : Stack) => s.setStack st y
    let rows := [(Instr.pcStatus stack, 1), (.repairInfo stack, 2), (.rowRepair stack, 3), (.bankRepair stack, 4), (.wrapperBypass stack, 0xFF)]
    let ended := fun (t : State) (out res : Nat) => t.setStack st { t.stack st with busy := false, wdrout := BitVec.ofNat 64 out, result := BitVec.ofNat 8 res }
    let k := a / 32 * 32
    let reach := if s.mem.eccMode = 0 then 2 else 1
    let sure := if s.mem.eccMode = 0 then 2 else 3
    let w := x.operand.toNat
    let upset := fun (k : Nat) => (sgetD s.mem.upsets (k / 32) (0, 0)).1
    let met := { s with mem := { s.mem with upsets := sdel (k / 32) s.mem.upsets } }
    let scrub := Instr.patrolScrub addr (.symbols n row)
    let clean := fun (m : Nat) => bad = 0 ∧ (s.pc p).failedHard = false ∧ ∀ i < m, upset (s.pcKey p (256 * gr + 32 * i)) = 0
    (∀ i ∈ rows, (x.busy = true → exec i.1 s = .next (put { x with wir := BitVec.ofNat 8 i.2 })) ∧
      (x.busy = false → exec i.1 s = .next (put { x with wir := BitVec.ofNat 8 i.2, busy := true, running := BitVec.ofNat 8 i.2, operand := x.wdrin }))) ∧
    (x.busy = false → exec (.wrapperInstructionDone stack) s = .next s ∧ exec (.wrapperTimeout stack) s = .next s) ∧
    (x.busy = true → exec (.wrapperTimeout stack) s = .next (put { x with busy := false, result := 5 }) ∧
      exec (.wrapperInstructionDone stack) s = .next (ended (s.wrapperRun st).1 (s.wrapperRun st).2.1 (s.wrapperRun st).2.2)) ∧
    (x.running = 0xFF → s.wrapperRun st = (s, 0, 0)) ∧ (x.running = 0 → s.wrapperRun st = (s, 0, 4)) ∧
    (x.running = 3 ∨ x.running = 4 → x.offline = false → s.wrapperRun st = (s, 0, 3)) ∧
    (let q := 64 * st + field w 26 6; let y := s.pc q; let bank := field w 22 4;
      x.running = 3 → x.offline = true → field w 32 31 = 0 → field w 18 4 = 0 → field w 0 18 < Config.rowsPerBank →
      (Config.spareRows q bank ≤ y.spares bank → s.wrapperRun st = (s, 0, 1)) ∧
      (y.spares bank < Config.spareRows q bank → w.testBit 63 = true →
        s.wrapperRun st = (s.modPc q fun y => { y with rowsUsed := sput y.rowsUsed bank (sgetD y.rowsUsed bank 0 + 1) 0 }, 0, 0))) ∧
    (s.keyAddr addr.toNat = none → exec scrub s = .next s) ∧
    (s.keyAddr addr.toNat = some a → s.lossAt k ≠ .none → exec scrub s = .next s) ∧
    (s.keyAddr addr.toNat = some a → s.lossAt k = .none →
      (setting s 0x4020 1 = 0 → exec scrub s = .next (if n.val = 0 then s
        else { s with mem := { s.mem with upsets := sset (k / 32) (n.val, row.toNat) s.mem.upsets } })) ∧
      (setting s 0x4020 1 ≠ 0 → s.marked k = true → exec scrub s =
        .next (if (s.servingPackage k).isSome then s.count 0x4014 2 1 else s.count 0x4013 ((s.keyPc k).1 + 1) 1)) ∧
      (setting s 0x4020 1 ≠ 0 → s.marked k = false → (n.val = 0 → upset k = 0 → exec scrub s = .next s) ∧
        (1 ≤ n.val → n.val ≤ reach → exec scrub s = .next (met.sectorCorrected k)) ∧
        (reach < n.val → n.val ≤ sure → exec scrub s = .next (met.sectorLost k row.toNat)) ∧
        (sure < n.val → exec scrub s = .next (if s.freeNat % 2 = 1 then
            (met.useFree.freeSector.1.dramWrite k (2 ^ 32 - 1) met.useFree.freeSector.2).sectorCorrected k
          else met.useFree.sectorLost k row.toNat)))) ∧
    (s.lossAt k = .none → isTier2 k = true → ∃ u, u = s.sectorLost k row.toNat ∧ u.marked k = true ∧ u.mem.cells = s.mem.cells ∧ u.counter 0x4014 2 = (s.counter 0x4014 2 + 1) % 2 ^ 64) ∧
    (x.fill = none → exec (.fillGranule stack (.sectors bad)) s = .next s) ∧
    (x.fill = some (p, sub, gr) → gr < 4882812 → clean 8 →
      exec (.fillGranule stack (.sectors bad)) s = .next (put { x with fill := some (p, sub, gr + 1) })) ∧
    (x.fill = some (p, sub, gr) → gr = 4882812 → clean 4 → sget? sub s.mem.slots = none → x.fillWaiting = [] →
      exec (.fillGranule stack (.sectors bad)) s = .next ((((s.count 0x4030 6 1).event { cls := 6, code := 0x12, die := p / 256, location := p, data := sub })).nextFill st)) ∧
    (pkg.val ∈ s.mem.failedPkgs → exec (.tier2PackageFailure pkg) s = .next s) ∧
    (pkg.val ∉ s.mem.failedPkgs → exec (.tier2PackageFailure pkg) s = .next ({ s with mem := { s.mem with failedPkgs := pkg.val :: s.mem.failedPkgs } }.event
      { cls := 5, code := 0x14, die := 6 + pkg.val / 12, location := pkg.val })) ∧
    (let y := s.stack (pcn.val / 64);
      (y.fill = none → (s.pc pcn.val).retired = true → exec (.pseudoChannelHardFailure pcn) s = .next s) ∧
      (y.fill = none → (s.pc pcn.val).retired = false → exec (.pseudoChannelHardFailure pcn) s = .next (s.retireNow pcn.val 4)) ∧
      (y.fill = some (pcn.val, sub, gr) → exec (.pseudoChannelHardFailure pcn) s = .next (s.modPc pcn.val fun z => { z with failedHard := true }))) ∧
    (let t := (s.modPc p fun z => { z with retired := true }).event { cls := 4, code := 0x10, die := p / 256, location := p, data := cause };
      t.redirects (p / 64 / 2) < 16 →
      (t.freeSlotFor (p / 64) = none → s.retireNow p cause = t.losePc p 1) ∧
      (t.freeSlotFor (p / 64) = some sub → s.retireNow p cause = (((t.setSlotEntry sub { pc := p }).modStack (p / 64) fun z => { z with fill := some (p, sub, 0) }).event
        { cls := 6, code := 0x11, die := p / 256, location := p, data := sub }))) ∧
    (x.zeroing = false → exec (.stackZeroed stack) s = .next s) ∧
    (x.zeroing = true → ∃ u, exec (.stackZeroed stack) s = .next u ∧ (u.stack st).offline = false ∧ (u.stack st).zeroing = false ∧
      (∀ c ∈ u.mem.cells, isTier2 c.1 = true ∨ (s.keyPc c.1).1 ≠ st ∨ (s.pc (s.keyPc c.1).2.1).retired = true) ∧
      ∀ y ∈ u.agents, ∀ c ∈ y.2.copies, c.remote = true ∨ isTier2 c.line = true ∨ (s.keyPc c.line).1 ≠ st)

/-- R343, R345, R350 to R352, R355 to R359, R380: power. A telemetry record is a die's latest; a control period sets
every half's cap and both ceilings from the input power and the dies' temperatures; a limiter period sets a half's
bubbles; a die without its manager falls back and leaves that by a message; the alert and its hold take the halves
to point 1, and each steps up from there; a cap disengages once no half is capped. A temperature sample. Throttling
starts at the part's threshold and ends below its release, the limit is counted once, and at the shutdown threshold
the trip takes the rails, is latched, and leaves its cause and its event for the next power-on. What core ceiling a
die cap allows is opaque (log 36); the limiter's place in the allowed points is log 161. -/
def Obligations.PowerAndTemperatures : Prop :=
  (∀ (s : State) (die : Fin 9) (tel : Telemetry) (beat : Bool) (half part : Fin 8) (watts dyn : Nat),
     let d := die.val
     let x := s.dpow d
     let h := half.val
     let y := s.half h
     let cap := setting s 0x3010 1
     let dieCap := setting s 0x3011 (h / 2 + 1)
     let caps := setting s 0x3011 1 + setting s 0x3011 2 + setting s 0x3011 3 + setting s 0x3011 4
     let ms := (s.power.periods + 1) % 20 = 0
     let point := if s.fallback h = true then 0 else 16 * ((450 + 150 * s.pointOf h) - 600) / (450 + 150 * s.pointOf h)
     let excess := 1000 * watts - y.cap
     let n := if 1000 * watts ≤ y.cap then 0 else if dyn = 0 then point else
       if (16 * excess + 1000 * dyn - 1) / (1000 * dyn) < point then (16 * excess + 1000 * dyn - 1) / (1000 * dyn) else point
     (∃ u : State, exec (.telemetryRecord die tel) s = .next u ∧ u = { s with power := { s.power with dies := u.power.dies } } ∧
       u.dpow d = { x with telemetry := some tel, missing := false } ∧ ∀ k, k ≠ d → u.dpow k = s.dpow k) ∧
     exec (.telemetryMissing die) s = .next ((s.modDpow d fun z => { z with missing := true }).event { cls := 6, code := 0x60, die := 6 + s.power.manager, location := d }) ∧
     (∃ u : State, exec (.controlPeriod watts) s = .next u.powerSettle ∧ u.power.lastInput = some watts ∧ u.power.periods = s.power.periods + 1 ∧
       (u.half h).cap = (if watts > cap then dieCap * 500 - 1000 * ((watts - cap) * dieCap) / (2 * caps)
         else if watts + 100 ≤ cap ∧ y.cap + 10000 < dieCap * 500 then y.cap + 10000
         else if watts + 100 ≤ cap ∨ dieCap * 500 ≤ y.cap then dieCap * 500 else y.cap) ∧
       (s.dieThrottled (h / 2) = true → (u.half h).tempAllowed = if y.tempAllowed ≤ 1 then 1 else y.tempAllowed - 1) ∧
       (s.dieThrottled (h / 2) = false → (u.half h).tempAllowed = if ms ∧ y.tempAllowed < 9 then y.tempAllowed + 1 else if ms then 9 else y.tempAllowed) ∧
       ∀ i, i = 4 ∨ i = 5 →
         let now := if (s.dpow i).ceiling < s.capCeiling i then (s.dpow i).ceiling else s.capCeiling i
         let heat := (s.dpow i).tempCeiling
         (watts > cap → (u.dpow i).ceiling = if now < 900 then 800 else now - 100) ∧
         (watts + 100 ≤ cap → ms → now + 100 ≤ s.capCeiling i → (u.dpow i).ceiling = now + 100) ∧
         (watts ≤ cap → ¬ ms → (u.dpow i).ceiling = now) ∧
         ((s.thermal i).throttle = true → (u.dpow i).tempCeiling = if heat < 1000 then 800 else heat - 200) ∧
         ((s.thermal i).throttle = false → heat ≤ 3300 → (u.dpow i).tempCeiling = if ms then heat + 100 else heat)) ∧
     (∀ i, 800 ≤ s.capCeiling i ∧ s.capCeiling i ≤ 3400 ∧ (s.power.alert = true ∨ s.power.hold = true ∨ (s.thermal i).limit = true ∨ (s.dpow i).watchdog = true → s.ceilingOf i = 800) ∧
       (s.power.alert = false → s.power.hold = false → (s.thermal i).limit = false → (s.dpow i).watchdog = false →
         s.ceilingOf i ≤ (s.dpow i).ceiling ∧ s.ceilingOf i ≤ s.capCeiling i ∧ s.ceilingOf i ≤ (s.dpow i).tempCeiling)) ∧
     (∃ u : State, exec (.limiterPeriod half watts dyn) s = .next u.powerSettle ∧ (∀ k, k ≠ h → u.half k = s.half k) ∧
       u.half h = { y with bubble := n, atLimit := y.atLimit && decide (n = point), atZero := y.atZero && decide (n = 0) } ∧
       u = { s with power := { s.power with halves := u.power.halves }, kernels := u.kernels, counters := u.counters } ∧ (n = 0 → u.kernels = s.kernels ∧ u.counters = s.counters)) ∧
     (6 ≤ d → exec (.dieFallback die) s = .next s) ∧
     (d < 6 → exec (.dieFallback die) s = .next (s.modDpow d fun z => { z with watchdog := true }).powerSettle) ∧
     (x.watchdog = false → exec (.powerManagerCommand die beat) s = .next s) ∧
     (x.watchdog = true → ∃ u : State, exec (.powerManagerCommand die beat) s = .next u.powerSettle ∧ u.dpow d = { x with watchdog := false, ceiling := 800 } ∧
       (∀ k, d < 4 → k / 2 = d → u.half k = { s.half k with capAllowed := 1 }) ∧ (∀ k, k / 2 ≠ d ∨ 4 ≤ d → u.half k = s.half k) ∧
       u = { s with power := { s.power with dies := u.power.dies, halves := u.power.halves } }) ∧
     (s.power.manager = 1 → exec .managerTakeover s = .next s) ∧
     (s.power.manager ≠ 1 → exec .managerTakeover s = .next ((({ s with power := { s.power with manager := 1 } }).count 0x3040 5 1).event { cls := 6, code := 0x61, die := 7 })) ∧
     (s.power.alert = true → exec .pwrAlertAssert s = .next s ∧ exec .pwrAlertRelease s = .next { s with power := { s.power with alert := false, hold := true } }) ∧
     (s.power.alert = false → exec .pwrAlertRelease s = .next s ∧
       let t := { s with power := { s.power with alert := true, hold := false } }
       (s.pins.pgood = true → exec .pwrAlertAssert s = .next (t.count 0x3040 1 1).powerSettle) ∧ (s.pins.pgood = false → exec .pwrAlertAssert s = .next t)) ∧
     (s.power.hold = false → exec .alertHoldExpiry s = .next s) ∧
     (s.power.hold = true → ∃ u : State, exec .alertHoldExpiry s = .next u.powerSettle ∧ u.half h = { y with ramp := some 2 } ∧
       u = { s with power := { s.power with hold := false, halves := u.power.halves } }) ∧
     (s.power.alert = true ∨ s.power.hold = true ∨ s.dieLimited (h / 2) = true ∨ (s.dpow (h / 2)).watchdog = true → s.pointOf h = 1) ∧
     (∀ z, (s.halfGroups h).isEmpty = false → s.halfFixed h = some z → s.fallback h = false → s.pointOf h ≤ z ∧ s.pointOf h ≤ y.capAllowed ∧ s.pointOf h ≤ y.tempAllowed) ∧
     (s.bubbleOf h ≤ y.bubble ∧ 16 * (450 + 150 * s.pointOf h - 600) / (450 + 150 * s.pointOf h) ≥ s.bubbleOf h ∧ (s.fallback h = true → s.bubbleOf h = 0)) ∧
     (s.power.alert = false → s.power.hold = false → s.dieLimited (h / 2) = false → (s.dpow (h / 2)).watchdog = true → s.halfCapped h = false) ∧
     (sgetD s.power.capEngaged part.val false = false ∨ s.partCapped part.val = true → exec (.capDisengage part) s = .next s) ∧
     (sgetD s.power.capEngaged part.val false = true → s.partCapped part.val = false → exec (.capDisengage part) s = .next (s.markCap part.val false))) ∧
  (∀ (s : State) (part : ThermalPart) (deciC : Int),
     let dram := isDram part
     let k := match part with | .die d => d.val | .baseDie st => 16 + st.val | .dram st => 32 + st.val
     let x := s.thermal k
     let on : Int := if dram then 850 else 950
     let off : Int := if dram then 820 else 920
     let lim : Int := if dram then 950 else 1050
     let shut : Int := if dram then 1050 else 1150
     let th := decide (on ≤ deciC) || (x.throttle && decide (off ≤ deciC))
     let put := fun (z : Thermal) => { s with power := { s.power with thermal := sput s.power.thermal k z {} } }
     let counted := fun (t : State) => if th && !x.throttle then t.count 0x3040 3 1 else t
     (s.pins.pgood = false → exec (.thermalSample part deciC) s = .next s) ∧
     (s.pins.pgood = true →
       (deciC < lim → x.limit = false → exec (.thermalSample part deciC) s = .next (counted (put { x with temp := some deciC, throttle := th })).powerSettle) ∧
       (lim ≤ deciC → deciC < shut → x.limit = false →
         exec (.thermalSample part deciC) s = .next ((counted (put { temp := some deciC, throttle := true, limit := true })).count 0x3040 4 1).powerSettle) ∧
       (lim ≤ deciC → deciC < shut → x.limit = true →
         exec (.thermalSample part deciC) s = .next (counted (put { temp := some deciC, throttle := true, limit := true })).powerSettle) ∧
       (dram = false → 1000 ≤ deciC → deciC < lim → x.limit = true →
         exec (.thermalSample part deciC) s = .next (counted (put { temp := some deciC, throttle := th, limit := true })).powerSettle) ∧
       (dram = false → deciC < 1000 → x.limit = true →
         exec (.thermalSample part deciC) s = .next (counted (put { temp := some deciC, throttle := th, limit := decide (x.cool + 1 < 20), cool := x.cool + 1 })).powerSettle) ∧
       (shut ≤ deciC → ∃ u : State, exec (.thermalSample part deciC) s = .next u ∧ u.pins = { s.pins with tripLatched := true, pgood := false, railsRising := false, nodeReset := true } ∧
         u.counter 0x3041 1 = (if dram then 2 else 1) ∧ u.boot.tripEvent = some (thermalDie part, if dram then 2 else 1) ∧ u.mem.cells = [] ∧ u.pending = s.pending)))

/-- R425, R434, R438, R446 to R448, R450: power and reset. The rails rise when PWR_EN is asserted with the input in
range and no trip latched, PGOOD follows them, and node reset is released only when nothing holds it; losing PWR_EN
or the input takes the rails and all that memory held, MOD_RESET_N and the oscillator reset the node with memory
kept. The straps sampled at a later release are free (log 75). -/
def Obligations.PowerAndResetPins : Prop :=
  ∀ (s : State) (tenMs : Bool),
    let p := s.pins
    let with_ := fun (q : Pins) => { s with pins := q }
    let on := p.pgood = true ∨ p.railsRising = true
    (p.inputInRange = true → p.tripLatched = false → p.pgood = false → exec .pwrEnAssert s = .next (with_ { p with pwrEn := true, railsRising := true })) ∧
    (p.inputInRange = false ∨ p.tripLatched = true ∨ p.pgood = true → exec .pwrEnAssert s = .next (with_ { p with pwrEn := true })) ∧
    (¬ on → exec (.pwrEnDeassert tenMs) s = .next (with_ { p with pwrEn := false, tripLatched := p.tripLatched && !tenMs })) ∧
    (on → ∃ u : State, exec (.pwrEnDeassert tenMs) s = .next u ∧
      u.pins = { p with pwrEn := false, tripLatched := p.tripLatched && !tenMs, pgood := false, railsRising := false, nodeReset := true } ∧
      u.mem.cells = [] ∧ u.boot.powerOn = true ∧ u.boot.stage = 0 ∧ u.groups = [] ∧ u.dict.stored = s.dict.stored ∧ u.boot.counter1 = s.boot.counter1 ∧ u.pending = s.pending) ∧
    (p.railsRising = false → exec .railsInTolerance s = .next s) ∧
    (p.railsRising = true → p.nodeReset = true → p.oscillator = true →
      (p.modResetN = false → exec .railsInTolerance s = .next (with_ { p with railsRising := false, pgood := true })) ∧
      (p.modResetN = true → ∃ u : State, exec .railsInTolerance s = .next u ∧ u.boot = { s.boot with stage := 1 } ∧
        u.pins = { p with railsRising := false, pgood := true, nodeReset := false, posSampled := u.pins.posSampled })) ∧
    (p.modResetN = false ∨ p.pgood = false → exec .modResetAssert s = .next (with_ { p with modResetN := false })) ∧
    (p.modResetN = true → p.pgood = true → ∃ u : State, exec .modResetAssert s = .next u ∧ u.pins = { p with modResetN := false, nodeReset := true } ∧
      u.mem.cells = s.mem.cells ∧ u.mem.poison = s.mem.poison ∧ u.boot.stage = 0 ∧ u.groups = [] ∧ u.kernels = [] ∧ u.clusters = [] ∧ u.dict.vals = [] ∧
      u.dict.stored = s.dict.stored ∧ u.boot.counter0 = s.boot.counter0 ∧ u.mem.flashLog = s.mem.flashLog) ∧
    (p.nodeReset = true → p.pgood = true → p.oscillator = true → ∃ u : State, exec .modResetRelease s = .next u ∧ u.boot = { s.boot with stage := 1 } ∧
      u.pins = { p with modResetN := true, nodeReset := false, posSampled := u.pins.posSampled } ∧
      ((s.taps.any fun e => decide (3 ≤ e.2.ir.toNat) && decide (e.2.ir.toNat ≤ 7)) = true → ∀ e ∈ u.taps, e.2.ir = 1) ∧ u.mem = s.mem) ∧
    (p.pgood = false → ∃ u : State, exec .modResetRelease s = .next u ∧ u.pins = { p with modResetN := true } ∧ u.boot = s.boot) ∧
    (∀ c ∈ [Instr.undervoltageShutdown, .overvoltageShutdown], (¬ on → exec c s = .next (with_ { p with inputInRange := false })) ∧
      (on → ∃ u : State, exec c s = .next u ∧ u.pins = { p with inputInRange := false, pgood := false, railsRising := false, nodeReset := true } ∧ u.counter 0x3041 1 = 3 ∧ u.mem.cells = [])) ∧
    (p.pwrEn = true → p.tripLatched = false → p.pgood = false → exec .inputRestart s = .next (with_ { p with inputInRange := true, railsRising := true })) ∧
    (p.pwrEn = false ∨ p.tripLatched = true ∨ p.pgood = true → exec .inputRestart s = .next (with_ { p with inputInRange := true })) ∧
    (p.pgood = false ∨ p.nodeReset = true → exec .oscillatorLoss s = .next (with_ { p with oscillator := false })) ∧
    (p.pgood = true → p.nodeReset = false → ∃ u : State, exec .oscillatorLoss s = .next u ∧ u.pins = { p with oscillator := false, nodeReset := true } ∧ u.mem.cells = s.mem.cells ∧ u.boot.stage = 0) ∧
    (p.nodeReset = false ∨ p.pgood = false ∨ p.modResetN = false → exec .oscillatorReturn s = .next (with_ { p with oscillator := true })) ∧
    (p.nodeReset = true → p.pgood = true → p.modResetN = true → ∃ u : State, exec .oscillatorReturn s = .next u ∧ u.boot = { s.boot with stage := 1 } ∧ u.pins.nodeReset = false)

/-- R161, R292, R331, R433, R449 to R451: the flush handshake and the test access port. A domain's other side flushes
when its reset is asked for, and the reset happens at the acknowledgement or, counted, at the timeout; a cluster
keeps its scratchpad alone. The controllers load instructions while PGOOD is asserted and TRST_N high; one that
drives pins is BYPASS while MOD_RESET_N is deasserted. A boundary scan shifts out the captured cells, whose levels
are free (log 91). The levels a boundary cell captures are free (log 91). -/
def Obligations.FlushesAndTestAccess : Prop :=
  ∀ (s : State) (b : Boundary) (c : Fin 512) (die : Fin 2) (cells : List Bool),
    let gone := { s with flushes := s.flushes.filter fun x => x != b }
    let d := die.val
    let x := sgetD s.taps d {}
    let live := s.pins.pgood = true ∧ s.trstHeld = false
    let put := fun (y : Tap) => { s with taps := sput s.taps d y {} }
    let size := if d = 0 then 860 else 812
    let scanned := fun (i : Instr) (t : State) => ∃ bits, bits.length = size ∧ exec i s = .next (({ t with free := t.free + (size + 63) / 64 }).send (.tdo d bits))
    let full := fun (y : Tap) => if cells.length = size then { y with boundary := cells } else y
    (s.flushes.contains b = true → exec (.resetRequest b) s = .next s ∧ exec (.flushAcknowledgement b) s = .next (gone.resetSide b) ∧
      exec (.flushTimeout b) s = .next ((s.count 0x8032 1 1).endFlush b)) ∧
    (s.flushes.contains b = false → exec (.flushAcknowledgement b) s = .next s ∧ exec (.flushTimeout b) s = .next s ∧
      (s.mayReset b = false → exec (.resetRequest b) s = .next s) ∧
      (s.mayReset b = true → exec (.resetRequest b) s = .next (({ s with flushes := s.flushes ++ [b] }).flushSide b))) ∧
    (∃ u : State, u = s.resetSide (.cluster c) ∧ (u.cluster c.val).spad = (s.cluster c.val).spad ∧ (u.cluster c.val).l1 = [] ∧ (u.cluster c.val).wb = [] ∧
      (∀ g, gcluster g = c.val → u.group? g = none) ∧ (∀ g, gcluster g ≠ c.val → u.group? g = s.group? g) ∧ ∀ k, k ≠ c.val → u.cluster k = s.cluster k) ∧
    (¬ live → ∀ i ∈ [Instr.tapIdcode die, .tapSamplePreload die cells, .tapExtest die cells, .tapExtestPulse die cells, .tapExtestTrain die cells, .tapClamp die, .tapHighz die, .tapBypass die],
      exec i s = .next s) ∧
    (live → exec (.tapIdcode die) s = .next ((put { x with ir := 0x01 }).send (.tdo d ((List.range 32).map fun i => (0x14623DC7 : Nat).testBit i))) ∧
      scanned (.tapSamplePreload die cells) (put (full { x with ir := 0x02 })) ∧ exec (.tapBypass die) s = .next (put { x with ir := 0xFF }) ∧
      (s.pins.modResetN = true → ∀ i ∈ [Instr.tapExtest die cells, .tapExtestPulse die cells, .tapExtestTrain die cells, .tapClamp die, .tapHighz die],
        exec i s = .next (put { x with ir := 0xFF })) ∧
      (s.pins.modResetN = false → scanned (.tapExtest die cells) (put (full { x with ir := 0x03 })) ∧ scanned (.tapExtestPulse die cells) (put (full { x with ir := 0x04 })) ∧
        scanned (.tapExtestTrain die cells) (put (full { x with ir := 0x05 })) ∧ exec (.tapClamp die) s = .next (put { x with ir := 0x06 }) ∧
        exec (.tapHighz die) s = .next (put { x with ir := 0x07 }))) ∧
    ((s.taps.any fun e => decide (3 ≤ e.2.ir.toNat) && decide (e.2.ir.toNat ≤ 7)) = true → ∃ u : State, exec .modResetRelease s = .next u ∧ ∀ e ∈ u.taps, e.2.ir = 1) ∧
    (∃ u : State, exec .trstAssert s = .next u ∧ u = { s with trstHeld := true, taps := u.taps } ∧ ∀ e ∈ u.taps, e.2.ir = 1) ∧
    exec .trstRelease s = .next { s with trstHeld := false }

/-- R319, R403, R404, R412 to R414, R417, R418, R420: the boot. Each stage runs once, in its order, with node reset
released; a root that cannot be reconstructed and a security record that fails halt it; an image that fails, or a
request, enters the recovery loader; handover serves the settings; lanes that fail the first training are replaced
by spares (R282) and a host port comes up with the BAR4 size set (R322); memory is zero after power-on and kept
otherwise; the floor rises, where it does by itself, when clearing ends. What the boot information block holds is
free (log 61), and the floor's rise is placed by log 129. -/
def Obligations.BootStages : Prop :=
  ∀ (s : State) (ok : Bool) (links : BitVec 19) (comp : Option CapWords) (lanes : List (LinkDir × BitVec 8)) (hbms : BitVec 16) (pkgs : BitVec 24) (dies : BitVec 9) (ports : BitVec 12) (ms : BitVec 32),
    let b := s.boot
    let boot := fun (x : Boot) => { s with boot := x }
    let rows := [(Instr.bootRom, 1), (.bootIdentity ok, 2), (.bootImage, 3), (.bootHandover, 4), (.bootPackageLinks ⟨links, lanes⟩ comp, 5), (.bootMemory hbms pkgs, 6),
      (.bootProcessorDies dies, 7), (.bootHostPorts, 8), (.bootNetwork ports, 9), (.memoryClearingDone ms, 0x0A)]
    let stage := fun (n : Nat) => s.pins.nodeReset = false ∧ b.stage = n
    let flash := b.image.getD Config.flashImage
    let failed := fun (i : Nat) (rev : Bool) => (List.range (linkLanes i + linkSpares i)).filter fun p => lanes.any fun x => x.1.link.val = i && x.1.rev = rev && x.2.toNat = p
    let good := b.recoveryRequested = false ∧ b.imageValid = true ∧ s.imageCheck flash = 0
    (∀ i ∈ rows, ¬ stage i.2 → exec i.1 s = .next s) ∧
    (stage 1 → exec .bootRom s = .next (boot { b with stage := 2 })) ∧
    (stage 2 → exec (.bootIdentity true) s = .next (boot { b with stage := 3, rootSecret := true, identity := 1 }) ∧
      exec (.bootIdentity false) s = .next (boot { b with stage := 0xFF, identity := 2 })) ∧
    (stage 3 → (good → exec .bootImage s = .next (boot { b with
        stage := 4, running := some (imgVersion flash, imgSvn flash, imgDigest flash), bootPath := b.recoveredBy, recoveredBy := 0 })) ∧
      (¬ good → ∃ u : State, exec .bootImage s = .next u ∧ u.boot.stage = 0x80 ∧ u.boot.rootSecret = false ∧ u.boot.recoveryRequested = false ∧ u.boot.running = b.running ∧
        u.mem = s.mem ∧ u.dict = s.dict ∧ u.pins = s.pins ∧ (s.recoverySource ≠ 2 → (sgetD u.host.ports 0 {}).released = true) ∧
        u.boot.recNetwork = (if s.recoverySource = 1 then false else if s.recoverySource = 2 then true else u.boot.recNetwork))) ∧
    (stage 4 → (b.counter1 ≠ 0 → s.security = none → exec .bootHandover s = .next (boot { b with stage := 0xFF, rootSecret := false })) ∧
      (b.counter1 = 0 ∨ s.security ≠ none → ∃ u : State, exec .bootHandover s = .next u ∧ u.boot.stage = 5 ∧ u.boot.rootSecret = false ∧ u.boot.tripEvent = none ∧
        u.boot.running = b.running ∧ u.dict.vals = s.loadStore.1 ∧ u.dict.force = s.loadStore.1 ∧ u.parts = setting u 0x6010 1 ∧ u.mem.halfMode = decide (u.parts = 8) ∧
        u.mem.eccMode = setting u 0x4020 2 ∧ u.mem.poolGB = setting u 0x4030 1 ∧ u.counter 0x2001 3 = s.loadStore.2)) ∧
    (stage 5 → ∃ u : State, exec (.bootPackageLinks ⟨links, lanes⟩ comp) s = .next u ∧ u.boot.stage = 6 ∧ u.pins = s.pins ∧ u.mem.cells = s.mem.cells ∧
      ∀ i < 18, (s.link i).active = true ∨ (links.getLsbD i = false ∧ (failed i false).length ≤ linkSpares i ∧ (failed i true).length ≤ linkSpares i) →
        (u.link i).active = true ∧ ((s.link i).active = false → (u.link i).fwd.failedLanes = failed i false ∧ (u.link i).rev.failedLanes = failed i true)) ∧
    (stage 6 → ∃ u : State, exec (.bootMemory hbms pkgs) s = .next u ∧ u.boot.stage = 7 ∧ u.boot.powerOn = false ∧ u.boot.clearing = true ∧
      u.mem.cells = (if b.powerOn = true then [] else s.mem.cells) ∧ u.mem.poison = (if b.powerOn = true then [] else s.mem.poison) ∧
      (∀ i < 16, hbms.getLsbD i = true → (u.stack i).failed = true) ∧ (∀ i < 24, pkgs.getLsbD i = true → i ∈ u.mem.failedPkgs) ∧
      (hbms ≠ 0 ∨ pkgs ≠ 0 → u.boot.degraded.getLsbD 1 = true)) ∧
    (stage 7 → ∃ u : State, exec (.bootProcessorDies dies) s = .next u ∧ u.boot.stage = 8 ∧ u.agents = [] ∧ u.txns = [] ∧ u.dieXlate = [] ∧ u.tallies = [] ∧ u.host = { s.host with harts := [] } ∧
      (∀ d < 9, dies.getLsbD d = true → s.die d ≠ 0 → u.die d = 3) ∧ ∀ d, dies.getLsbD d = false → u.die d = s.die d) ∧
    (stage 8 → ∃ u : State, exec .bootHostPorts s = .next u ∧ u = { s with boot := { b with stage := 9 }, host := { s.host with ports := u.host.ports, fns := u.host.fns } } ∧
      (∀ k < 2, sgetD u.host.ports k {} = { (sgetD s.host.ports k {} : HostPort) with released := true, link := 1, bar4 := setting s 0x6021 1 }) ∧
      ∀ k < 2, ∀ v < 9, u.fn k v = { s.fn k v with bar4 := setting s 0x6021 1 }) ∧
    (stage 9 → ∃ u : State, exec (.bootNetwork ports) s = .next u ∧ u.boot.stage = 0x0A ∧
      ∀ k < 48, u.subport k = if s.modeLanes k ≠ [] ∧ s.net.reference = true ∧ ports.getLsbD (k / 4) = false then
        { s.subport k with state := .training, lanes := s.modeLanes k } else s.subport k) ∧
    (stage 0x0A → (b.clearing = false → exec (.memoryClearingDone ms) s = .next s) ∧
      (b.clearing = true → ∃ u : State, exec (.memoryClearingDone ms) s = .next u ∧ u.counter 0x9070 2 = ms.toNat ∧ (setting s 0x9030 2 ≠ 1 → u.boot = { b with clearing := false }) ∧
        (setting s 0x9030 2 = 1 → (∀ v n d, b.running = some (v, n, d) → u.boot = { b with clearing := false, counter0 := if b.counter0 < n then n else b.counter0 }) ∧
          (b.running = none → u.boot = { b with clearing := false }))))

/-- R411, R416, R419, R423: images that come another way. REC_GO checks the image in the window; a chunk asked for is
kept and the next one asked for, and the whole image is checked; a read-back of the right digest resets the node,
another reports 15h; an update ends with the check of its read-back; an OS image that passes starts its partition's
lowest hart. The image read back is the command's operand (log 92); the order of recovery sources is that of log 67. -/
def Obligations.RecoveryAndUpdate : Prop :=
  ∀ (s : State) (width : BitVec 4) (chunk : BitVec 14) (data : Bytes) (p : Fin 8) (img : Bytes),
    let b := s.boot
    let boot := fun (x : Boot) => { s with boot := x }
    let idle := b.recStatus = 0 ∨ 0x10 ≤ b.recStatus
    let go := b.stage = 0x80 ∧ s.recoverySource ≠ 2 ∧ idle
    let bytes := s.recBytes
    let pulls := (b.stage = 0x80 ∧ b.recNetwork = true ∧ idle) ∨ (b.updateNetwork = true ∧ b.updateStatus = 1)
    let t := boot { b with recChunks := sset chunk.toNat data b.recChunks, recFailures := 0 }
    let more := t.pulled.length < pullSize (t.pulled.take 64) ∧ t.boot.recChunks.length < 16384
    let asked := fun (t : State) => let n := t.boot.recChunks.length; let tid := t.freeNat % 65536
      let frame := toBE 16 (0x1001 <<< 112 ||| tid <<< 80 ||| 0x9F00 <<< 64 ||| (n / 64 % 256) <<< 56 ||| (n % 64 * 1024) <<< 32 ||| 0x400 <<< 16)
      { t with free := t.free + 1, out := .recoveryRead n t.recoveryServer frame :: t.out }
    let updating := b.updating ≠ none ∨ (b.updateNetwork = true ∧ b.updateStatus = 2)
    let verdict := s.imageCheck img
    let ended := { s with
      boot := { b with
        updating := none, updateNetwork := false, image := some img, imageValid := decide (verdict = 0), recChunks := [], updateStatus := if verdict = 0 then 3 else verdict }
      mem := { s.mem with flashLog := (s.mem.flashHeld ++ s.mem.flashLog).take 1024, flashHeld := [] } }
    let boots := b.stage = 0x0A ∧ b.clearing = false ∧ p.val < s.parts ∧ setting s 0x6040 (p.val + 1) = 1
    let sound := s.osHeaderOk p.val img = true ∧ osSize img ≤ img.length ∧ s.osSigned img = true
    let free := (List.range 4096).map fun i => Config.freeByte (s.free + i)
    (width ≠ 4 ∨ ¬ go → exec (.recGo width) s = .next s) ∧
    (go → (s.imageCheck bytes = 0 → exec (.recGo 4) s = .next (boot { b with recStatus := 2, image := some bytes, imageValid := false })) ∧
      (s.imageCheck bytes ≠ 0 → exec (.recGo 4) s = .next ((boot { b with recStatus := s.imageCheck bytes }).count 0x9090 1 1))) ∧
    (¬ pulls ∨ chunk.toNat ≠ b.recChunks.length ∨ data = [] ∨ 1024 < data.length → exec (.recoveryChunkResponse chunk data) s = .next s) ∧
    (pulls → chunk.toNat = b.recChunks.length → data ≠ [] → data.length ≤ 1024 →
      (more → exec (.recoveryChunkResponse chunk data) s = .next (asked t)) ∧
      (¬ more → b.stage ≠ 0x80 → exec (.recoveryChunkResponse chunk data) s = .next { t with boot := { t.boot with image := some t.pulled, updateStatus := 2 } }) ∧
      (¬ more → b.stage = 0x80 → s.imageCheck t.pulled = 0 → exec (.recoveryChunkResponse chunk data) s = .next { t with boot := { t.boot with
        recStatus := 2, image := some t.pulled, imageValid := false, recoveredBy := 2 } })) ∧
    (pulls → b.recFailures + 1 < 16 ∨ b.stage ≠ 0x80 →
      exec .recoveryRetry s = .next (asked (boot { b with recFailures := b.recFailures + 1 }))) ∧
    (pulls → 16 ≤ b.recFailures + 1 → b.stage = 0x80 → s.recoverySource ≠ 1 → exec .recoveryRetry s = .next (
      if s.recoverySource ≠ 2 ∧ b.recNetwork = true then boot { b with recNetwork := false, recChunks := [], recFailures := 0 }
      else asked (boot { b with recNetwork := true, recChunks := [], recFailures := 0 }))) ∧
    (¬ pulls → b.stage ≠ 0x80 ∨ b.recNetwork = true ∨ ¬ idle → exec .recoveryRetry s = .next s) ∧
    (b.stage ≠ 0x80 ∨ b.recStatus ≠ 2 → exec (.recoveryImageWritten img) s = .next s) ∧
    (b.stage = 0x80 → b.recStatus = 2 →
      (imgDigest img ≠ imgDigest (b.image.getD Config.flashImage) → exec (.recoveryImageWritten img) s = .next (boot { b with recStatus := 0x15, recoveredBy := 0 })) ∧
      (imgDigest img = imgDigest (b.image.getD Config.flashImage) → s.pins.pgood = true → s.pins.modResetN = true → s.pins.oscillator = true →
        ∃ u : State, exec (.recoveryImageWritten img) s = .next u ∧ u.boot.stage = 1 ∧ u.boot.image = some img ∧ u.boot.imageValid = true ∧
          u.boot.recoveredBy = (if b.recoveredBy = 0 then 1 else b.recoveredBy) ∧ u.mem.cells = s.mem.cells ∧ u.groups = [] ∧ u.pins = { s.pins with nodeReset := false, posSampled := u.pins.posSampled })) ∧
    (¬ updating → exec (.updateDone img) s = .next s) ∧
    (updating → exec (.updateDone img) s = .next (if verdict = 0 then ended else ended.count 0x9090 1 1)) ∧
    (¬ boots → exec (.osImageLoaded p img) s = .next s) ∧
    (boots → ¬ sound → exec (.osImageLoaded p img) s = .next (s.event { cls := 6, code := 0x71, die := 6, part := p.val, location := p.val })) ∧
    (boots → sound → ∀ v w, ({ s with free := s.free + 4096 }).hubWriteRange 10 (osLoad img) (img.take (osSize img)) = some v →
      v.hubWriteRange 10 (osLoad img - 4096) free = some w → let h := p.val * (192 / w.parts); (w.hart h).running = false → ∃ u : State, exec (.osImageLoaded p img) s = .next u ∧
        u.hart h = { w.hart h with running := true, pc := BitVec.ofNat 64 (osLoad img + osEntry img), a0 := BitVec.ofNat 64 h, a1 := BitVec.ofNat 64 (osLoad img - 4096), mmode := true } ∧
        (∀ k, k ≠ h → u.hart k = w.hart k) ∧ u.mem = w.mem ∧ u.boot.osDigests = sset p.val (Config.sha3_512 (img.take (osSize img))) w.boot.osDigests)

/-- R341, R371, R372, R377, R388, R389, R392, R400, R401, R405, R417 to R419: the commands that are one write of an
object. They are served while the dictionary is, are turned away with the first status that applies and nothing else
changed, and otherwise do what their object does. The status is the command's answer (log 93); replacing the role
keys is that of log 82. -/
def Obligations.ObjectWrites : Prop :=
  ∀ (s : State) (role : Role) (src : Channel) (p : Fin 8) (v8 : BitVec 8) (v32 : BitVec 32) (v64 : BitVec 64) (hash : BitVec 512) (key : BitVec 256),
    let q := p.val + 1
    let rows : List (Instr × Option Channel × Nat × Nat × Nat) := [
      (.stackOfflineRequest role v8, none, 0x4040, 1, v8.toNat), (.spareSlotFree role v8, none, 0x4031, v8.toNat, 0), (.bootNow role p v8, none, 0x6043, q, v8.toNat),
      (.storeCommand role v32, none, 0x2000, 1, v32.toNat), (.restoreCommand role v32, none, 0x2000, 2, v32.toNat), (.slackWater role p v64, none, 0x4070, q, v64.toNat),
      (.drainDone role v8, none, 0x4100 + v8.toNat, 9, 1), (.drainDoneFailed role v8, none, 0x4100 + v8.toNat, 9, 2), (.groupImageAddress role p v64, none, 0x5060, q, v64.toNat),
      (.directoryProbeAddress role src v64, some src, 0x7102, 1, v64.toNat), (.partitionSailing role p v32, none, 0x5040, q, v32.toNat), (.recoveryRequest role v8, none, 0x9040, 1, v8.toNat),
      (.updateFromAddress role v64, none, 0x9050, 1, v64.toNat), (.updateFromNetwork role v8, none, 0x9050, 2, v8.toNat), (.commitFloor role v8, none, 0x9030, 3, v8.toNat),
      (.ownerKeyHashEnrol role hash, none, 0x9010, 1, fromLE (toBE 64 hash.toNat)), (.releaseOwnership role v32, none, 0x9010, 3, v32.toNat),
      (.ownerRoleKey role key, none, 0x9011, 1, fromLE (toBE 32 key.toNat)), (.operatorRoleKey role key, none, 0x9011, 2, fromLE (toBE 32 key.toNat))]
    let up := 5 ≤ s.boot.stage ∧ s.boot.stage ≤ 0x0A
    let taken := fun (i sub n : Nat) => s.applyWrite i sub n
    (∀ r ∈ rows, ¬ up ∨ objInfo r.2.2.1 r.2.2.2.1 = none → exec r.1 s = .next s) ∧
    (∀ r ∈ rows, up → ∀ ty size access, objInfo r.2.2.1 r.2.2.2.1 = some (ty, size, access) →
      let answer := fun (t : State) (st : Nat) => exec r.1 s = .next (t.send (.dictStatus st))
      let i := r.2.2.1; let sub := r.2.2.2.1; let n := r.2.2.2.2
      (access ≤ 1 → answer s 3) ∧
      (2 ≤ access → (s.mayWrite role i sub = false → answer (s.count 0x1040 4 1) 4) ∧
        (s.mayWrite role i sub = true → (inRange i sub n = false → answer s 6) ∧
          (inRange i sub n = true → (s.resourceHeld r.2.1 i sub n = true → answer s 8) ∧
            (s.resourceHeld r.2.1 i sub n = false → (i = 0x2000 → s.storeBusy = true → answer s 9) ∧
              (i ≠ 0x2000 ∨ s.storeBusy = false → (s.writeRefused i sub n = true → answer s 7) ∧
                (s.writeRefused i sub n = false → answer ((s.claimIndex r.2.1 i sub).applyWrite i sub n) 0))))))) ∧
    (s.mayWrite .observer 0x4040 1 = false ∧ s.mayWrite .owner 0x9010 1 = true ∧ s.mayWrite .operator 0x9010 1 = !s.owned ∧ s.mayWrite .operator 0x4040 1 = true ∧
      (∀ x, s.mayWrite (.partition x) 0x5040 q = decide (x = p)) ∧ ∀ x, s.mayWrite (.partition x) 0x4040 1 = false) ∧
    (∃ u : State, u = taken 0x2000 1 0x65766173 ∧ u.dict.saving = some (s.dict.vals.filter fun e => inSettings (e.1 / 256) (e.1 % 256)) ∧ u.dict.stored = none ∧ u.counter 0x2001 1 = 1 ∧ u.dict.vals = s.dict.vals) ∧
    taken 0x2000 2 0x64616F6C = { s with dict := { s.dict with stored := none, storeBroken := false } } ∧
    (∃ u : State, u = taken 0x4040 1 0xFF ∧ u.mem = { s.mem with hbmStacks := s.mem.hbmStacks.map fun e => (e.1, if e.2.offline then { e.2 with zeroing := true } else e.2) }) ∧
    (∀ n, n < 16 → ∃ u : State, u = taken 0x4040 1 n ∧ u.stack n = { s.stack n with offline := true, zeroing := false } ∧ ∀ k, k ≠ n → u.stack k = s.stack k) ∧
    (∃ u : State, u = taken 0x4070 q v64.toNat ∧ u.flip p.val = { s.flip p.val with pending := some v64 } ∧ ∀ k, k ≠ p.val → u.flip k = s.flip k) ∧
    (let tw := s.twin v8.toNat; tw.draining = false ∨ tw.mode ≠ 0 → taken (0x4100 + v8.toNat) 9 1 = s ∧ taken (0x4100 + v8.toNat) 9 2 = s) ∧
    (let tw := s.twin v8.toNat; tw.draining = true → tw.mode = 0 → (∃ u : State, u = taken (0x4100 + v8.toNat) 9 1 ∧
      u.twin v8.toNat = { tw with draining := false, drainFail := false, stage := 0, broken := false }) ∧ ∃ u : State, u = taken (0x4100 + v8.toNat) 9 2 ∧
      u.twin v8.toNat = { tw with draining := false, drainFail := true, stage := 0, broken := false }) ∧
    (s.imaging p.val = true → taken 0x5040 q v32.toNat = { s with mem := { s.mem with heldWrites := s.mem.heldWrites ++ [(p.val, 4096, v32.toNat)] } }) ∧
    (s.imaging p.val = false → ∃ u : State, u = taken 0x5040 q v32.toNat ∧ setting u 0x5040 q = v32.toNat ∧ u.counter 0x5042 q = setting s 0x5040 q % 2 ^ 64 ∧
      ∀ e ∈ u.net.keys, keyPart e.2.toNat = p.val → keySailing e.2.toNat ≠ v32.toNat → keyValid e.2.toNat = false) ∧
    (∃ u : State, u = taken 0x5060 q v64.toNat ∧ setting u 0x5060 q = v64.toNat ∧ sgetD u.mem.groupImage p.val 0 = if v64.toNat % 4096 = 0 ∧ s.rangeHeld p.val v64.toNat 64 = true then 1 else 3) ∧
    (∃ u : State, u = taken 0x7102 1 v64.toNat ∧ u.dict.probing = true ∧ setting u 0x7102 1 = v64.toNat) ∧
    taken 0x9040 1 1 = { s with boot := { s.boot with recoveryRequested := true } } ∧
    taken 0x9050 1 v64.toNat = { s with boot := { s.boot with updating := some v64, updateNetwork := false, updateStatus := 1, image := some [], imageValid := false } } ∧
    taken 0x9050 2 1 = { s with boot := { s.boot with updating := none, updateNetwork := true, updateStatus := 1, image := some [], imageValid := false } } ∧
    (∀ a n d, s.boot.running = some (a, n, d) → taken 0x9030 3 1 = { s with boot := { s.boot with counter0 := if n > s.boot.counter0 then n else s.boot.counter0 } }) ∧
    (s.boot.counter1 % 2 = 0 → ∃ u : State, u = taken 0x9010 1 (fromLE (toBE 64 hash.toNat)) ∧ u.boot.counter1 = s.boot.counter1 + 1 ∧ u.ownerHash = hash) ∧
    (s.boot.counter1 % 2 = 1 → ∃ u : State, u = taken 0x9010 3 0x736C6572 ∧ u.boot.counter1 = s.boot.counter1 + 1 ∧ u.ownerHash = 0 ∧ u.roleKey true = none ∧ u.roleKey false = none) ∧
    (∃ u : State, u = taken 0x9011 1 (fromLE (toBE 32 key.toNat)) ∧ u.roleKey true = some key ∧ u.owned = s.owned) ∧
    (∃ u : State, u = taken 0x9011 2 (fromLE (toBE 32 key.toNat)) ∧ u.roleKey false = some key ∧ u.owned = s.owned) ∧
    (s.boot.stage ≠ 0x0A ∨ s.boot.clearing = true ∨ s.parts ≤ p.val ∨ setting s 0x6040 q ≠ 2 → taken 0x6043 q 1 = s) ∧
    (∀ x : SpareSlot, sget? v8.toNat s.mem.slots = some x → (∀ f, (s.stack (x.pc / 64)).fill = some f → f.1 = x.pc → (s.stack (x.pc / 64)).fillWaiting = []) → ∃ u : State, u = taken 0x4031 v8.toNat 0 ∧ sget? v8.toNat u.mem.slots = none ∧ (u.pc x.pc).retired = false ∧ (u.pc x.pc).lost = false ∧
      (∀ f, (u.stack (x.pc / 64)).fill = some f → f.1 ≠ x.pc) ∧
      ∀ k, k ≠ v8.toNat → sget? k u.mem.slots = sget? k s.mem.slots)

/-- R253, R372, R373, R375, R377, R393, R402, R404, R405: what of the dictionary's commands ends later. A save ends with
the commit word or fails; an index register is released after its second; the tag state is released once nothing
claims it; a flip waits for the drains, inverts every valid twin and starts the drains that are due; a drain ends
once its writes have, and through a host window once the read behind them is answered. The hours counted are free
(log 62). -/
def Obligations.ObjectEvents : Prop :=
  ∀ (s : State) (ok : Bool) (row : Fin 4) (id : BitVec 16) (p : Fin 8) (twin : BitVec 8) (ms : BitVec 32) (vals : Sparse Nat) (step : W64),
    let up := 5 ≤ s.boot.stage ∧ s.boot.stage ≤ 0x0A
    let claim := s.counter 0x2010 1
    let kept := claim = 0 ∨ (claim = 1 ∧ s.anyCaching = true) ∨ (claim = 2 ∧ setting s 0xA062 1 = 1)
    let ts := s.partTwins p.val
    let every := setting s 0x4072 (p.val + 1)
    let due := every ≠ 0 ∧ every ≤ (s.flip p.val).sinceDrain + 1
    let t := twin.toNat
    let tw := s.twin t
    let drains := tw.draining = true ∧ tw.mode = 1 ∧ s.drainOpsOut t = false
    let a := setting s 0x5060 (p.val + 1)
    let img := s.groupImageBytes p.val
    let used := { s with free := s.free + 1 }
    exec (.sessionIdleTimeout id) s = .next { s with dict := { s.dict with sessions := s.dict.sessions.filter fun x => x.id ≠ id.toNat } } ∧
    exec (.resourceHoldExpiry row) s = .next { s with dict := { s.dict with indexHolder := sdel row.val s.dict.indexHolder } } ∧
    (kept → exec .nonCoherentTagStateRelease s = .next s) ∧
    (¬ kept → ∃ u : State, exec .nonCoherentTagStateRelease s = .next u ∧ u.counter 0x2010 1 = 0 ∧ u.mem = s.mem ∧ ∀ i, ∀ c ∈ (u.agent i).copies, c ∈ (s.agent i).copies ∧ (if claim = 1 then c.remote else c.tomb) = false) ∧
    (s.dict.saving = none → exec (.storeSaveDone ok) s = .next s) ∧
    (s.dict.saving = some vals → (∃ u : State, exec (.storeSaveDone true) s = .next u ∧ u.dict = { s.dict with saving := none, stored := some vals, storeBroken := false } ∧
        u.counter 0x2001 1 = 0 ∧ u.counter 0x2001 2 = 0 ∧ u.counter 0x2001 4 = (s.counter 0x2001 4 + 1) % 2 ^ 64) ∧
      ∃ u : State, exec (.storeSaveDone false) s = .next u ∧ u.dict = { s.dict with saving := none } ∧ u.counter 0x2001 1 = 2) ∧
    (¬ up → exec .nodeRecordWrite s = .next s) ∧
    (up → ∃ u : State, exec .nodeRecordWrite s = .next u ∧ s.mem.lifeHours ≤ u.mem.lifeHours ∧ u.mem.lifeHours ≤ s.mem.lifeHours + 1 ∧ u.mem = { s.mem with lifeHours := u.mem.lifeHours } ∧
      ∃ g, some (g, s.mem.slots, s.mem.lifeFailures, u.mem.lifeHours) ∈ u.dict.records) ∧
    (s.dict.probing = false → exec .directoryProbeDone s = .next s) ∧
    (s.dict.probing = true → ∃ u : State, exec .directoryProbeDone s = .next u ∧ u.dict = { s.dict with probing := false } ∧ u.counter 0x7102 2 = s.probe (setting s 0x7102 1) % 2 ^ 64) ∧
    ((s.flip p.val).pending = none ∨ (ts.any fun e => e.2.draining) = true → exec (.twinFlip p) s = .next s) ∧
    ((s.flip p.val).pending = some step → (ts.any fun e => e.2.draining) = false → ¬ due → (s.mem.twins.map Prod.fst).Nodup → ∃ u : State, exec (.twinFlip p) s = .next u ∧
      u.flip p.val = { pending := none, sinceDrain := (s.flip p.val).sinceDrain + 1 } ∧ u.counter 0x4071 (p.val + 1) = step.toNat ∧
      ∀ k, u.twin k = if (s.twin k).valid = true ∧ (s.twin k).part = p.val then { s.twin k with cur := !(s.twin k).cur } else s.twin k) ∧
    ((s.flip p.val).pending = some step → (ts.any fun e => e.2.draining) = false → due → (∀ e ∈ ts, e.2.mode ≠ 1) → (s.mem.twins.map Prod.fst).Nodup → ∃ u : State, exec (.twinFlip p) s = .next u ∧
      u.flip p.val = { pending := none, sinceDrain := 0 } ∧ ∀ k, u.twin k = if (s.twin k).valid = true ∧ (s.twin k).part = p.val then
        { s.twin k with cur := !(s.twin k).cur, step := step, draining := (s.twin k).mode != 0xFF } else s.twin k) ∧
    (¬ drains → exec (.hubDrainEnd twin ok ms) s = .next s) ∧
    (drains → tw.stage = 2 → exec (.hubDrainEnd twin ok ms) s = .next (s.drainEnd t (ok && !tw.broken) ms.toNat)) ∧
    (drains → tw.stage ≠ 2 → ok = false ∨ tw.broken = true → exec (.hubDrainEnd twin ok ms) s = .next (s.drainEnd t false ms.toNat)) ∧
    (drains → tw.stage ≠ 2 → ok = true → tw.broken = false →
      let w := (s.drainWrite t (s.backingDie tw.backing) (tw.target + 64 + tw.size.toNat) (toLE 8 (0x434D4954 * 2 ^ 32 + tw.step.toNat % 2 ^ 32))).drainCover t
        (tw.target + 71 + tw.size.toNat)
      (w.drainOpsOut t = true → exec (.hubDrainEnd twin ok ms) s = .next (w.setTwin t { w.twin t with stage := 2 })) ∧
      (w.drainOpsOut t = false → exec (.hubDrainEnd twin ok ms) s = .next (w.drainEnd t (!(w.twin t).broken) ms.toNat))) ∧
    (∀ a port off, window a = .host port off → tw.broken = false → s.portOpen port = true → (s.drainCover t a).drainOpsOut t = true) ∧
    (∃ u : State, u = s.drainEnd t ok ms.toNat ∧ u.twin t = { tw with draining := false, drainFail := !ok, stage := 0, broken := false } ∧ (∀ k, k ≠ t → u.twin k = s.twin k) ∧ u.mem.cells = s.mem.cells) ∧
    (s.imaging p.val = false → exec (.groupImageDone p) s = .next s) ∧
    (s.imaging p.val = true → s.rangeHeld p.val a img.length = false → s.mem.heldWrites = [] →
      exec (.groupImageDone p) s = .next { used with mem := { s.mem with groupImage := sput s.mem.groupImage p.val 3 0 } }) ∧
    (∀ w : State, s.imaging p.val = true → s.rangeHeld p.val a img.length = true → used.hubWriteRange 10 a img = some w → w.mem.heldWrites = [] →
      exec (.groupImageDone p) s = .next { w with mem := { w.mem with groupImage := sput w.mem.groupImage p.val 2 0 } })

/-- R309, R384, R388 to R397: Milmiuno frames. A frame of its command's service that passes its check is served with the
role its channel and key give, and answered by its channel, in band as a management packet of the crossing
transport; one that fails is answered with FRAME, a wrong tag with AUTH; a response repeats the request's service,
number and object; a session is opened, keeps its counter, and closes. SHA3 is opaque (log 4); the cases the chapter
leaves open are those of logs 76 to 81; the form of an in-band answer is log 160. -/
def Obligations.DictionaryFrames : Prop :=
  ∀ (s w : State) (ch : Channel) (b data : Bytes) (xo : Option Session) (x : Session) (port : Fin 12) (pkt : NctIn) (st ty size access : Nat),
    let h := mmHeader b
    let code := mmService h
    let idx := mmIndex h
    let sub := mmSub h
    let rows := [(Instr.dictRead ch b, 1), (.dictWriteFrame ch b, 2), (.dictDescribe ch b, 3), (.dictNext ch b, 4), (.sessionOpen ch b, 5), (.sessionClose ch b, 6)]
    let up := 5 ≤ s.boot.stage ∧ s.boot.stage ≤ 0x0A
    let fresh := s.dict.kept.find? (fun k => sameSource k.channel ch && k.frame = b) = none
    let t1s := ∃ sec mac, ch = .t1s sec mac
    let newer := fun (x : Session) => { s with dict := { s.dict with sessions := s.dict.sessions.map fun (y : Session) => if y.id = x.id then { y with counter := le b (b.length - 24) 8 } else y } }
    let answered := fun (i : Instr) (t : State) (st : Nat) (d : Bytes) (xo : Option Session) => exec i s = .next
      (((t.count 0x1040 1 1).keep ch b (s.respondFrame b st d xo)).send (.milmiuno ch (s.respondFrame b st d xo)))
    let got := fun (t : State) (st : Nat) (d : Bytes) => s.service ch b xo = (t, st, d)
    (∀ r ∈ rows, r.2 ≠ 1 → code ≠ r.2 → exec r.1 s = .next s) ∧ (2 ≤ code → code ≤ 6 → exec (.dictRead ch b) s = .next s) ∧
    (∀ r ∈ rows, ¬ up → s.boot.identity ≠ 2 → exec r.1 s = .next s) ∧
    (∀ r ∈ rows, code = r.2 → up → t1s → fresh →
      (mmFrameOk b = false → answered r.1 s 0x0B [] none) ∧
      (mmFrameOk b = true → mmTagged h = true → s.authenticate ch b = none → answered r.1 (s.count 0x1040 2 1) 0x0A [] none) ∧
      (mmFrameOk b = true → mmTagged h = false → s.service ch b none = (w, st, data) → answered r.1 w st data none) ∧
      (mmFrameOk b = true → mmTagged h = true → s.authenticate ch b = some x → (newer x).service ch b (some x) = (w, st, data) → answered r.1 w st data (some x))) ∧
    (∀ f : Fn, ch = .mailbox f → up → fresh → ∀ r ∈ rows, code = r.2 → let k := fnKey f.port.val f.vf.val
      ((s.mailbox k).busy = false → exec r.1 s = .next s) ∧
      ((s.mailbox k).busy = true → readBytes (s.mailbox k).req 0 b.length = b → mmFrameOk b = true → mmTagged h = false → s.service ch b none = (w, st, data) →
        exec r.1 s = .next (((w.count 0x1040 1 1).keep ch b (s.respondFrame b st data none)).mailboxDone k (s.respondFrame b st data none)))) ∧
    (∀ ip udp, ch = .inBand ip udp → up → (setting s 0x1020 4 ≠ 1 → ∀ r ∈ rows, code = r.2 → exec r.1 s = .next s) ∧
      (setting s 0x1020 4 = 1 → fresh → mmFrameOk b = true → mmTagged h = false → code ≠ 5 → ∀ r ∈ rows, code = r.2 → exec r.1 s = .next (s.count 0x1040 2 1))) ∧
    (1 ≤ code → code ≤ 4 → objExists idx = false → got s 1 []) ∧ (1 ≤ code → code ≤ 4 → objExists idx = true → objInfo idx sub = none → got s 2 []) ∧ (code = 0 ∨ 6 < code → got s 0x0C []) ∧
    (objExists idx = true → objInfo idx sub = some (ty, size, access) →
      (code = 1 → access = 3 → got s 3 []) ∧
      (code = 1 → access ≠ 3 → ty ≠ 8 → ty ≠ 9 → mmOffset h ≠ 0 → got s 5 []) ∧
      (code = 1 → access ≠ 3 → ty ≠ 8 → ty ≠ 9 → mmOffset h = 0 → got (s.objectValue idx sub size access).1 0 (toLE size (s.objectValue idx sub size access).2)) ∧
      (code = 1 → access ≠ 3 → ty = 8 ∨ ty = 9 → mmOffset h < size → mmLength h ≠ 0 →
        got (s.objectValue idx sub size access).1 0 (((toLE size (s.objectValue idx sub size access).2).drop (mmOffset h)).take (mmLength h))) ∧
      (code = 2 → let v := slice b 16 (mmLength h)
        let d := s.dictWrite (s.roleOf ch xo) (some ch) idx sub access (decide (v.length = size) && decide (mmOffset h = 0)) (fromLE v)
        got d.1 d.2 []) ∧
      (code = 3 → got s 0 (describeService idx sub ty size access)) ∧
      (code = 4 → (∀ i j, nextSub idx sub = some (i, j) → got s 0 (toLE 2 i ++ toLE 1 j)) ∧ (nextSub idx sub = none → got s 1 []))) ∧
    (∀ k : Byte, code = 5 → slice b 16 (mmLength h) = [k] → mmOffset h = 0 → k = 2 ∨ k = 3 → (s.dict.sessions.filter fun y => channelNo y.channel = channelNo ch).length < 16 →
      s.dict.sessions.length < 65535 →
      ∃ (t : State) (n nonce : Nat), got t 0 (toLE 2 n ++ toBE 16 nonce) ∧ 1 ≤ n ∧ n ≤ 65535 ∧ (∀ y ∈ s.dict.sessions, y.id ≠ n) ∧
        t = { s with free := t.free, dict := { s.dict with sessions := { id := n, channel := ch, owner := decide (k = 3), nonce := BitVec.ofNat 128 nonce, counter := 0 } :: s.dict.sessions } }) ∧
    (code = 6 → xo = none → got (s.count 0x1040 2 1) 0x0A []) ∧
    (code = 6 → xo = some x → got { s with dict := { s.dict with sessions := s.dict.sessions.filter fun y => y.id ≠ x.id } } 0 []) ∧
    (st < 256 → data.length ≤ 1024 → let r := mmHeader (s.respondFrame b st data none)
      mmVersion r = 1 ∧ mmKind r = 1 ∧ mmService r = code ∧ field r 104 8 = st ∧ mmTid r = mmTid h ∧ mmIndex r = idx ∧ mmSub r = sub ∧ mmLength r = data.length ∧ mmSession r = 0) ∧
    (let m := pkt.header.toNat;
      s.arrivesAt port pkt = true → s.frameOk pkt = true → nctWellFormed m pkt.payload = true → nctOp m = 0x20 → nctKind m = 3 → (s.count 0x5020 2 1).sailingAccepts m = true →
        exec (.nctMgmt port pkt) s = .next ((s.count 0x5020 2 1).milmiuno (some (4 * port.val + pkt.sub.val)) (.inBand pkt.src pkt.udpPort) pkt.payload)) ∧
    (∀ (ip : BitVec 128) (udp : BitVec 16) (k : Nat) (r : Bytes), r.length ≤ 4096 → ∃ f : NctFrame, s.sendAnswer (some k) (.inBand ip udp) r = (s.count 0x5020 1 1).send (.nct k f) ∧
      f.src = (s.subport k).address ∧ f.dst = ip ∧ f.udpDst = udp.toNat ∧ f.dscp = setting s 0x5010 5 ∧ f.ect = false ∧ f.payload = r ∧
      nctKind f.header.toNat = 3 ∧ nctOp f.header.toNat = 0x20 ∧ nctSailing f.header.toNat = 0 ∧ nctLen f.header.toNat = r.length)

/-- R395, R420 to R422: the SPDM responder. A request of its command's code is served from handover on and answered by
its transport; negotiation goes in its order; certificates, challenge and measurements are served after it; a long
response is announced and fetched in chunks. The wire layout is DSP0274's (log 69), and SHA3 and ML-DSA are opaque
(log 4). -/
def Obligations.SpdmResponder : Prop :=
  ∀ (s : State) (tr : SpdmTransport) (req : Bytes) (n h : Nat) (big : Bytes),
    let rows := [(Instr.spdmGetVersion tr req, 0x84), (.spdmGetCapabilities tr req, 0xE1), (.spdmNegotiateAlgorithms tr req, 0xE3), (.spdmGetDigests tr req, 0x81), (.spdmGetCertificate tr req, 0x82),
      (.spdmChallenge tr req, 0x83), (.spdmGetMeasurements tr req, 0xE0), (.spdmChunkGet tr req, 0x86), (.spdmChunkSend tr req, 0x85)]
    let code := le req 1 1
    let c := s.spdmConn tr
    let fits := match tr with | .ethernet _ _ => req.length ≤ 1024 | .doe _ => True
    let runs := 5 ≤ s.boot.stage ∧ s.boot.stage ≤ 0x0A ∧ 4 ≤ req.length ∧ fits
    let served := fun (i : Instr) => exec i s = .next (((s.spdmAnswer tr req).1.count 0x9060 2 1).send (.spdm tr (s.spdmAnswer tr req).2))
    let error := fun (e d : Nat) => s.spdmAnswer tr req = (s, [0x13, 0x7F] ++ toLE 1 e ++ toLE 1 d)
    let off := le req 4 2
    let part := slice s.chain off (le req 6 2)
    let offers := (le req 12 4).testBit 5 = true ∧ (le req 6 1).testBit 0 = true ∧ ((List.range (le req 28 1)).any fun i => slice req (32 + 4 * i) 4 = [0, 0, 0x87, 0]) = true
    (∀ r ∈ rows, ¬ runs ∨ code ≠ r.2 → exec r.1 s = .next s) ∧ (∀ r ∈ rows, runs → code = r.2 → served r.1) ∧
    (¬ runs ∨ code ∈ rows.map Prod.snd → exec (.spdmUnsupported tr req) s = .next s) ∧
    (runs → code ∉ rows.map Prod.snd → served (.spdmUnsupported tr req) ∧ error 7 code) ∧
    (code = 0x84 → s.spdmAnswer tr req = (s.setSpdmConn { transport := tr, phase := 1, vca := req ++ [0x10, 0x04, 0, 0, 0, 1, 0x00, 0x13] }, [0x10, 0x04, 0, 0, 0, 1, 0x00, 0x13])) ∧
    (code ∈ [0xE1, 0xE3, 0x81, 0x82, 0x83, 0xE0] → le req 0 1 ≠ 0x13 → error 0x41 0) ∧
    (le req 0 1 = 0x13 →
      (code = 0xE1 → c.phase = 0 → error 4 0) ∧
      (code = 0xE1 → c.phase ≠ 0 → ∃ (t : State) (rsp : Bytes), s.spdmAnswer tr req = (t, rsp) ∧ (t.spdmConn tr).phase = 2 ∧ rsp.length = 20 ∧ rsp.take 2 = [0x13, 0x61] ∧ le rsp 8 4 = 0x20016 ∧
        (∀ sec mac, tr = .ethernet sec mac → le rsp 12 4 = 1024)) ∧
      (code = 0xE3 → c.phase ≠ 2 → error 4 0) ∧ (code = 0xE3 → c.phase = 2 → ¬ offers → error 1 0) ∧
      (code = 0xE3 → c.phase = 2 → offers → ∃ (t : State) (rsp : Bytes), s.spdmAnswer tr req = (t, rsp) ∧ (t.spdmConn tr).phase = 3 ∧ rsp.take 2 = [0x13, 0x63] ∧ (t.spdmConn tr).vca = c.vca ++ req ++ rsp) ∧
      (code ∈ [0x81, 0x82, 0x83, 0xE0] → c.phase ≠ 3 → error 4 0) ∧
      (c.phase = 3 →
        (code = 0x81 → let rsp := [0x13, 0x01, 1, 1] ++ hashBytes (Config.sha3_512 s.chain)
          s.spdmAnswer tr req = (s.setSpdmConn { c with certs := c.certs ++ req ++ rsp }, rsp)) ∧
        (code = 0x82 → le req 2 1 % 16 ≠ 0 ∨ s.chain.length ≤ off → error 1 0) ∧
        (code = 0x82 → le req 2 1 % 16 = 0 → off < s.chain.length →
          let rsp := [0x13, 0x02, 0, 0] ++ toLE 2 part.length ++ toLE 2 (s.chain.length - off - part.length) ++ part
          s.spdmAnswer tr req = (s.setSpdmConn { c with certs := c.certs ++ req ++ rsp }).spdmFit tr rsp) ∧
        (code = 0x83 → le req 2 1 = 0 → le req 3 1 = 0 → 44 ≤ req.length → ∃ (t : State) (rsp : Bytes), s.spdmAnswer tr req = t.spdmFit tr rsp ∧ (t.spdmConn tr).certs = [] ∧
          rsp.take 4 = [0x13, 0x03, 0, 1] ∧ slice rsp 4 64 = hashBytes (Config.sha3_512 s.chain) ∧ slice rsp 102 8 = slice req 36 8) ∧
        (code = 0xE0 → le req 2 1 = 0 → le req 3 1 = 0 → 12 ≤ req.length → ∃ (t : State) (rsp : Bytes), s.spdmAnswer tr req = (t, rsp) ∧ rsp.take 8 = [0x13, 0x60, 14, 0, 0, 0, 0, 0] ∧ rsp.length = 50) ∧
        (code = 0xE0 → 14 < le req 3 1 → le req 3 1 ≠ 0xFF → error 1 0)) ∧
      (code = 0x86 ∨ code = 0x85 → c.phase < 2 → error 4 0) ∧ (code = 0x86 → 2 ≤ c.phase → c.largeOut = none → error 4 0) ∧
      (code = 0x86 → 2 ≤ c.phase → c.largeOut = some (h, n, big) → le req 3 1 ≠ h ∨ le req 4 2 ≠ n → error 1 0) ∧
      (code = 0x86 → 2 ≤ c.phase → c.largeOut = some (h, 0, big) → le req 3 1 = h → le req 4 2 = 0 → ∀ sec mac, tr = .ethernet sec mac → 1008 < big.length →
        s.spdmAnswer tr req = (s.setSpdmConn { c with largeOut := some (h, 1, big) }, [0x13, 0x06] ++ toLE 1 0 ++ toLE 1 h ++ toLE 2 0 ++ toLE 2 0 ++ toLE 4 1008 ++ toLE 4 big.length ++ big.take 1008)) ∧
      (code = 0x85 → 2 ≤ c.phase → le req 4 2 = 0 → (le req 2 1).testBit 0 = false → s.spdmAnswer tr req =
        (s.setSpdmConn { c with largeIn := some (le req 3 1, 1, slice req 16 (le req 8 4)) }, [0x13, 0x05, 0] ++ toLE 1 (le req 3 1) ++ toLE 2 0))) ∧
    (∀ p, tr = .doe p → s.spdmFit tr big = (s, big)) ∧
    (∀ sec mac, tr = .ethernet sec mac → (big.length ≤ 1024 → s.spdmFit tr big = (s, big)) ∧
      (1024 < big.length → ∃ k < 256, s.spdmFit tr big = (({ s with free := s.free + 1 }).setSpdmConn { c with largeOut := some (k, 0, big) }, [0x13, 0x7F, 0x0F, 0, BitVec.ofNat 8 k])))

/-- R16, R176, R203, R225, R338, R339, R366, R430: what the processor cores do to the node. An access that the
attributes or the backing refuse raises its access fault, an allowed one reads, writes or updates the window it
names, past the caches where its leaf's PBMT says so; one that meets RETRY changes nothing but that count; what
cannot be reached answers poison; a poisoned line and a tombstone raise the fault; a completing fence waits for what
the hart has out; a cache block is cleaned or flushed; the timer raises its interrupt. What misaligned atomic
accesses and lost lines do is the model's reading (log 90), and so is what a PBMT leaves of an atomic (log 148). -/
def Obligations.CoreAccesses : Prop :=
  ∀ (s u v : State) (hart : Fin 192) (a : CoreAccess) (addr : BitVec 48) (op : CboOp) (pred succ : BitVec 4) (old key : Nat) (bad : Bool),
    let h := hart.val
    let runs := (s.hart h).running = true ∧ s.die (4 + h / 96) ≠ 3
    let t := s.modHart h fun x => { x with accessFault := none }
    let pa := a.addr.toNat
    let n := a.width.toNat
    let x := field a.value.toNat 0 (8 * n)
    let w := window pa
    let ok := runs ∧ t.coreAllowed h a = true
    let mem := ok ∧ w.isMemory = true
    let reads := a.op = .load ∨ a.op = .fetch ∨ a.op = .lr
    let kind := if a.op = .fetch then 3 else if a.op = .load ∨ a.op = .lr then 1 else 2
    let run := fun (r : State) => exec (.coreAccess hart a) s = .next r
    let there := ok ∧ t.windowReached (4 + h / 96) w = true
    let holds := ∃ k, t.keyAddr pa = some k ∧ (s.hart h).reservation = some (lineOf k)
    let free := t.modHart h fun y => { y with reservation := none }
    (¬ runs → run s) ∧
    (runs → t.coreAllowed h a = false → run (t.coreFault h kind false)) ∧
    (t.coreAllowed h a = true → 1 ≤ n ∧ n ≤ 64 ∧ t.backedFor (t.hartPart h) pa = true ∧ (a.op = .amo ∨ a.op = .lr ∨ a.op = .sc → w.isMemory = true ∧ pa % n = 0 ∧ (n = 4 ∨ n = 8)) ∧
      (w.isMemory = false → pa % n = 0 ∧ n ≤ 8)) ∧
    (coreWeak a = true ↔ a.pbmt ≠ 0 ∧ a.op ≠ .amo ∧ a.op ≠ .lr ∧ a.op ≠ .sc) ∧
    (ok → w.isMemory = false → t.windowReached (4 + h / 96) w = false → (a.op = .store → run t) ∧ (reads → run (t.coreFault h kind true))) ∧
    (mem → reads → t.coreReadBytes h pa n (coreWeak a) = none → run (t.count 0x7101 4 1)) ∧
    (mem → reads → t.coreReadBytes h pa n (coreWeak a) = some (u, old, bad, true) → run (u.coreFault h kind false)) ∧
    (mem → reads → t.coreReadBytes h pa n (coreWeak a) = some (u, old, true, false) → run (u.coreFault h kind true)) ∧
    (mem → a.op = .load ∨ a.op = .fetch → t.coreReadBytes h pa n (coreWeak a) = some (u, old, false, false) → run (u.coreValue h old)) ∧
    (mem → a.op = .lr → t.coreReadBytes h pa n false = some (u, old, false, false) → run ((u.modHart h fun y => { y with reservation := (u.keyAddr pa).map lineOf }).coreValue h old)) ∧
    (mem → a.op = .store → t.coreWriteBytes h pa n x (coreWeak a) = some u → run u) ∧
    (mem → a.op = .sc → ¬ holds → run (free.coreValue h 1)) ∧ (mem → a.op = .sc → holds → free.coreWriteBytes h pa n x false = some u → run (u.coreValue h 0)) ∧
    (mem → a.op = .amo → t.coreReadBytes h pa n false = some (u, old, false, false) → u.coreWriteBytes h pa n (amoStep a.amo (8 * n) old x) false = some v → run (v.coreValue h old)) ∧
    (∀ off, there → w = .regs off → (a.op = .store → run (t.writeAt .node (some (t.hartPart h)) pa n x)) ∧ (a.op = .load → run ((t.readAt .node pa n).1.coreValue h (t.readAt .node pa n).2))) ∧
    (∀ off, there → w = .companion off → a.op = .store → run (t.send (.companionWrite off (toLE n x)))) ∧
    (∀ off, there → w = .net off → (a.op = .store → run (t.windowPut (4 + h / 96) off (2 ^ n - 1) x n (.coreStore h) none)) ∧ (a.op = .load → run (t.windowGet (4 + h / 96) off n (.core h)))) ∧
    (∀ port off, there → w = .host port off → (a.op = .store → run (t.hostWrite (t.hartPart h) port off (toLE n x) false)) ∧ (a.op = .load → run (t.hostRead (t.hartPart h) port off n (.core h) false))) ∧
    (∃ r : State, r = s.coreValue h old ∧ r.hart h = { s.hart h with lastLoad := BitVec.ofNat 512 old } ∧ (∀ k, k ≠ h → r.hart k = s.hart k) ∧ r.out = .coreResult h (BitVec.ofNat 512 old) :: s.out) ∧
    ((s.hart h).running = false ∨ pred ≠ 15 ∨ succ ≠ 15 ∨ s.coreOut h = true → exec (.coreFence hart pred succ) s = .next s) ∧
    ((s.hart h).running = true → s.coreOut h = false → exec (.coreFence hart 15 15) s = .next (s.count 0xA072 3 1)) ∧
    ((s.hart h).running = false → exec (.cboFlush hart op addr) s = .next s ∧ exec (.stimecmpMatch hart) s = .next s) ∧
    ((s.hart h).running = true → exec (.stimecmpMatch hart) s = .next (s.modHart h fun y => { y with timerIrq := true }) ∧
      (s.backedFor (s.hartPart h) addr.toNat = false → exec (.cboFlush hart op addr) s = .next (s.coreFault h 2 false)) ∧
      (s.backedFor (s.hartPart h) addr.toNat = true → (s.keyAddr addr.toNat = none → exec (.cboFlush hart op addr) s = .next s) ∧
        (s.keyAddr addr.toNat = some key → let line := lineOf key
          ((s.txn? line).isSome = true ∨ s.reachesLine (4 + h / 96) line = false → exec (.cboFlush hart op addr) s = .next s) ∧
          ((s.txn? line).isSome = false → s.reachesLine (4 + h / 96) line = true →
            exec (.cboFlush hart .clean addr) s = .next ((s.reclaimNow (s.home line) line).cleanLine line) ∧
            exec (.cboFlush hart .flush addr) s = .next (((s.reclaimNow (s.home line) line).cleanLine line).dropLine line) ∧
            exec (.cboFlush hart .inval addr) s = .next (((s.reclaimNow (s.home line) line).cleanLine line).dropLine line)))))

/-- A step takes the command at the front of the queue and is that command's effect on the state with the queue's rest;
on an empty queue the block idles, which is the model's choice (log 2). -/
def Obligations.StepRunsFront : Prop :=
  (∀ (c : Instr) (rest : List Instr) (s : State), step { s with pending := c :: rest } = exec c { s with pending := rest }) ∧
  ∀ s : State, s.pending = [] → step s = .next s

/-- Every command of the table answers a next state, whatever its operands and whatever the state, and leaves the queue
as it is; so a run never stops. -/
def Obligations.EveryCommandAnswers : Prop :=
  (∀ (c : Instr) (s : State), ∃ t, exec c s = .next t ∧ t.pending = s.pending) ∧
  ∀ (n : Nat) (s : State), runSafe n s

/-- R425, R446 to R448: what every step keeps. Memory keeps its canonical form, so that equal memories are equal data;
and the power sequence keeps its order: node reset is released only with PGOOD asserted, MOD_RESET_N deasserted and
the oscillator running, and the rails are up or rising only with PWR_EN asserted, the input in range and no trip
latched. -/
def Obligations.StepKeepsInvariant : Prop :=  ∀ s t : State, Memory.wf s.mem.cells = true ∧ PowerOrder s.pins → step s = .next t → Memory.wf t.mem.cells = true ∧ PowerOrder t.pins

/-- The invariant that every step keeps holds after reset. -/
def Obligations.ResetMeetsInvariant : Prop := Memory.wf State.reset.mem.cells = true ∧ PowerOrder State.reset.pins

/-- R198, R254, R304, R307, R315, R325, R341, R354, R412, R449: reset. The boot is at stage 01h, nothing is resident and
nothing waits; the queues, the fault queues, the group and key tables, the schedule slots, the repair ports, the
cores and the test access port hold their reset values. The queue's target, wait and re-read fields are the model's
own (log 130). -/
def Obligations.ResetValues : Prop :=
  let s := State.reset
  s.boot.stage = 1 ∧ s.pending = [] ∧ s.mem.cells = [] ∧ s.groups = [] ∧ s.kernels = [] ∧
  (∀ k, s.queue k = { qbase := 0, enable := false, ctx := 0, log2size := 8, qseq := 0, qhead := 0, qdone := 0, stopped := false, fetchErr := false, cplLost := false, waiting := false, phase := true, target := 0, rereads := 0 }) ∧
  (∀ p, (s.xl p).fqBase = 0 ∧ (s.xl p).fqSize = 256 ∧ (s.xl p).fqHead = 0 ∧ (s.xl p).fqTail = 0 ∧ (s.xl p).enable = false ∧ (s.xl p).inten = false ∧ (s.xl p).overflow = false ∧
    (s.xl p).invDrop = false ∧ (s.xl p).invDone = 0 ∧ (s.xl p).invIssued = 0 ∧ ∀ k, sgetD (s.xl p).fqLost k 0 = 0) ∧
  (∀ g, grpState (s.groupEntry g) = 0 ∧ field (s.groupEntry g) 416 32 = 2000 ∧ grpSailing (s.groupEntry g) = 0) ∧ (∀ i, s.keyEntry i = 0) ∧ (∀ j, s.aperture j = 0) ∧
  (∀ k, (s.slotReg k).addr = 0 ∧ (s.slotReg k).state = 0) ∧ (∀ k, (s.stack k).wir = 0xFF ∧ (s.stack k).busy = false ∧ (s.stack k).result = 0) ∧
  (∀ h, (s.hart h).running = false ∧ s.coreFreq h = 800 * 2 ^ 16 + 800) ∧ (∀ d i, s.tallyValue d i = 0) ∧ (∀ i j, s.counter i j = 0) ∧ (∀ i j, setting s i j = dictDefault i j) ∧
  ∀ d, (sgetD s.taps d {} : Tap).ir = 0x01
end

