-- ==== Sys2Proof/Laws/Arrays.lean ====
section
/-! SUPPORT. Errors in on-die arrays (R365): with none, an access meets none; what an access has met does not stay. -/
namespace Sys2Proof.Laws
open Sys2Proof.Machine

/-- With no array in error, an access meets nothing. -/
theorem meetArrays_none {s : State} (h : s.mem.arrays = []) (kind : ArrayKind) (place cls : Nat) (p : Nat → Bool) :
    s.meetArrays kind place cls p = (s, []) := by
  simp [State.meetArrays, h]

theorem meetEntries_none {s : State} (h : s.mem.arrays = []) (kind : ArrayKind) (place source acc : Nat) (p : Nat → Bool) :
    s.meetEntries kind place source acc p = (s, none) := by
  simp [State.meetEntries, meetArrays_none h]

theorem meetScratch_none {s : State} (h : s.mem.arrays = []) (cl acc : Nat) (ranges : List (Nat × Nat)) :
    s.meetScratch cl acc ranges = (s, none) := by
  simp [State.meetScratch, meetArrays_none h]

theorem meetCopies_none {s : State} (h : s.mem.arrays = []) (line : Nat) : s.meetCopies line = s := by
  simp [State.meetCopies, h]

theorem meetLine_none {s : State} (h : s.mem.arrays = []) (home line : Nat) : s.meetLine home line = s := by
  simp [State.meetLine, h]

end Sys2Proof.Laws
end

