-- ==== Sys2Proof/Laws/Sparse.lean ====
section
/-! SUPPORT. Sparse tables: what each operation makes of every entry, and that it keeps the canonical form. -/
namespace Sys2Proof.Laws
open Sys2Proof.Machine

variable {α : Type}

/-! ### Entries: these hold of every list, canonical or not -/

@[simp] theorem sget?_sset_same (k : Nat) (a : α) (m : Sparse α) : sget? k (sset k a m) = some a := by
  induction m with
  | nil => simp [sset, sget?]
  | cons e r ih =>
    obtain ⟨i, x⟩ := e
    by_cases h : k < i
    · simp [sset, sget?, h]
    · by_cases h2 : k = i
      · simp [sset, sget?, h2]
      · have h3 : ¬ i = k := fun e => h2 e.symm
        simp [sset, sget?, h, h2, h3, ih]

theorem sget?_sset_other {k j : Nat} (a : α) (m : Sparse α) (hj : j ≠ k) : sget? j (sset k a m) = sget? j m := by
  have hk : ¬ k = j := fun e => hj e.symm
  induction m with
  | nil => simp [sset, sget?, hk]
  | cons e r ih =>
    obtain ⟨i, x⟩ := e
    by_cases h : k < i
    · simp [sset, sget?, h, hk]
    · by_cases h2 : k = i
      · subst h2
        simp [sset, sget?, hk]
      · simp only [sset, h, ↓reduceIte, h2, sget?, ih]

@[simp] theorem sget?_sdel_same (k : Nat) (m : Sparse α) : sget? k (sdel k m) = none := by
  induction m with
  | nil => rfl
  | cons e r ih =>
    obtain ⟨i, x⟩ := e
    by_cases h : i = k
    · simp [sdel, h, ih]
    · simp [sdel, sget?, h, ih]

theorem sget?_sdel_other {k j : Nat} (m : Sparse α) (hj : j ≠ k) : sget? j (sdel k m) = sget? j m := by
  induction m with
  | nil => rfl
  | cons e r ih =>
    obtain ⟨i, x⟩ := e
    by_cases h : i = k
    · have h2 : ¬ i = j := fun e => hj (e.symm.trans h)
      simp only [sdel, h, ↓reduceIte, sget?, ih]
      rw [if_neg (by rw [← h]; exact h2)]
    · simp only [sdel, h, ↓reduceIte, sget?, ih]

section
variable [DecidableEq α]

/-- What is stored is read back. -/
@[simp] theorem sgetD_sput_same (m : Sparse α) (k : Nat) (a d : α) : sgetD (sput m k a d) k d = a := by
  unfold sput sgetD
  split
  · next e => rw [sget?_sdel_same]; exact e.symm
  · rw [sget?_sset_same]; rfl

/-- Every other entry reads as before. -/
theorem sgetD_sput_other {k j : Nat} (m : Sparse α) (a d : α) (hj : j ≠ k) : sgetD (sput m k a d) j d = sgetD m j d := by
  unfold sput sgetD
  split
  · rw [sget?_sdel_other m hj]
  · rw [sget?_sset_other a m hj]

end

/-! ### The canonical form -/

/-- A bound on the keys may be lowered. -/
theorem keysRise_weaken {m : Sparse α} {o : Option Nat} {b : Nat} (h : keysRise (some b) m = true)
    (k : ∀ c, o = some c → c ≤ b) : keysRise o m = true := by
  cases m with
  | nil => rfl
  | cons e r =>
    obtain ⟨i, x⟩ := e
    cases o with
    | none => simp_all [keysRise]
    | some c =>
      have := k c rfl
      simp [keysRise] at h ⊢
      exact ⟨by omega, h.2⟩

theorem keysRise_sset {m : Sparse α} (k : Nat) (a : α) (o : Option Nat) (h : keysRise o m = true)
    (hk : ∀ c, o = some c → c < k) : keysRise o (sset k a m) = true := by
  induction m generalizing o with
  | nil => cases o <;> simp_all [sset, keysRise]
  | cons e r ih =>
    obtain ⟨i, x⟩ := e
    by_cases h1 : k < i
    · cases o <;> simp_all [sset, keysRise]
    · by_cases h2 : k = i
      · cases o <;> simp_all [sset, keysRise]
      · have h3 : i < k := by omega
        cases o with
        | none =>
          simp [keysRise] at h
          simp [sset, h1, h2, keysRise, ih (some i) h (by simp [h3])]
        | some c =>
          simp [keysRise] at h
          simp [sset, h1, h2, keysRise, h.1, ih (some i) h.2 (by simp [h3])]

theorem keysRise_filter {m : Sparse α} (p : Nat × α → Bool) (o : Option Nat) (h : keysRise o m = true) :
    keysRise o (m.filter p) = true := by
  induction m generalizing o with
  | nil => exact h
  | cons e r ih =>
    obtain ⟨i, x⟩ := e
    have hr : keysRise (some i) r = true := by cases o <;> simp_all [keysRise]
    by_cases hp : p (i, x) = true
    · cases o with
      | none => simp [hp, keysRise, ih _ hr]
      | some c =>
        simp [keysRise] at h
        simp [hp, keysRise, h.1, ih _ hr]
    · simp only [List.filter_cons, hp]
      cases o with
      | none => exact ih _ (keysRise_weaken hr (by simp))
      | some c =>
        simp [keysRise] at h
        exact ih _ (keysRise_weaken hr (by simp; omega))

/-- Dropping an entry keeps every other one, in order. -/
theorem sdel_eq_filter (k : Nat) (m : Sparse α) : sdel k m = m.filter fun e => decide (e.1 ≠ k) := by
  induction m with
  | nil => rfl
  | cons e r ih =>
    obtain ⟨i, x⟩ := e
    by_cases h : i = k
    · simp [sdel, h, ih]
    · simp [sdel, h, ih]

section
variable [DecidableEq α]

theorem all_sset {m : Sparse α} (k : Nat) (a d : α) (h : (m.all fun e => decide (e.2 ≠ d)) = true) (ha : a ≠ d) :
    ((sset k a m).all fun e => decide (e.2 ≠ d)) = true := by
  induction m with
  | nil => simp [sset, ha]
  | cons e r ih =>
    obtain ⟨i, x⟩ := e
    simp only [List.all_cons, Bool.and_eq_true, decide_eq_true_eq] at h
    by_cases h1 : k < i
    · simp only [sset, h1, ↓reduceIte, List.all_cons, Bool.and_eq_true, decide_eq_true_eq]
      exact ⟨ha, h⟩
    · by_cases h2 : k = i
      · simp only [sset, h2, ↓reduceIte, Nat.lt_irrefl, List.all_cons, Bool.and_eq_true, decide_eq_true_eq]
        exact ⟨ha, h.2⟩
      · simp only [sset, h1, h2, ↓reduceIte, List.all_cons, Bool.and_eq_true, decide_eq_true_eq]
        exact ⟨h.1, ih h.2⟩

/-- Dropping entries keeps the canonical form. -/
theorem sparseWf_filter {m : Sparse α} (d : α) (p : Nat × α → Bool) (h : sparseWf d m = true) : sparseWf d (m.filter p) = true := by
  simp only [sparseWf, Bool.and_eq_true] at h ⊢
  refine ⟨keysRise_filter p none h.1, ?_⟩
  rw [List.all_eq_true] at h ⊢
  intro e he
  exact h.2 e (List.mem_filter.1 he).1

/-- Storing an entry keeps the canonical form. -/
theorem sparseWf_sput {m : Sparse α} (k : Nat) (a d : α) (h : sparseWf d m = true) : sparseWf d (sput m k a d) = true := by
  unfold sput
  split
  · rw [sdel_eq_filter]
    exact sparseWf_filter d _ h
  · next ha =>
    simp only [sparseWf, Bool.and_eq_true] at h ⊢
    exact ⟨keysRise_sset k a none h.1 (by simp), all_sset k a d h.2 ha⟩

end

end Sys2Proof.Laws
end

