-- ==== Sys2Proof/Laws/Issue.lean ====
section
/-! SUPPORT. The issue of an instruction: what it answers once its checks pass, and what a lane-wise
operation leaves in the group. -/
namespace Sys2Proof.Laws
open Sys2Proof.Machine

/-- An instruction whose checks pass answers what its effect answers from the state after the fetch. -/
theorem issue_of_passes {s t : State} {id : GroupId} {cls op : Nat} {w : Fields} {sig : Sig} {g : Group} {kn : Kernel}
    (h : Passes s id cls op w sig g kn t) (wideOp : Bool) (feature : Kernel → Option Nat)
    (ranges : Kernel → Group → Option FaultInfo) (run : State → Nat → Group → Kernel → Eff)
    (hf : feature kn = none) (hr : ranges kn g = none) (hw : wideOp = true → g.active = g.launch) :
    s.issue id cls op w sig wideOp feature ranges run =
      match run t (gkey id) g kn with
      | .done u => u
      | .fault u f => u.takeFault (gkey id) g (w.word cls op) f
      | .hold u => u := by
  obtain ⟨turn, ⟨pa, b, x, fetched⟩, legal, inRange, sound⟩ := h
  have hd : ¬ (wideOp = true ∧ g.active ≠ g.launch) := fun c => c.2 (hw c.1)
  simp only [State.issue, turn, fetched, legal, hf, inRange, hr, hd, meetEntries_none sound, if_false, Bool.false_eq_true] <;>
    cases run t (gkey id) g kn <;> rfl

/-- An instruction of the group alone whose checks pass leaves the group its effect gives. -/
theorem issueGroup_of_passes {s t : State} {id : GroupId} {cls op : Nat} {w : Fields} {sig : Sig} {g : Group}
    {kn : Kernel} (h : Passes s id cls op w sig g kn t) (f : State → Nat → Group → Kernel → Except FaultInfo Group) :
    s.issueGroup id cls op w sig f =
      match f t (gkey id) g kn with
      | .ok g' => t.setGroup (gkey id) g'
      | .error e => t.takeFault (gkey id) g (w.word cls op) e := by
  rw [State.issueGroup, issue_of_passes h false _ _ _ rfl rfl (fun c => absurd c Bool.false_ne_true)]
  cases f t (gkey id) g kn <;> rfl

theorem mem_setBits {x w l : Nat} : l ∈ setBits x w ↔ l < w ∧ x.testBit l = true := by
  simp [setBits]

theorem mem_lanes {g : Group} {l : Nat} : l ∈ g.lanes ↔ l < 32 ∧ g.active.getLsbD l = true := by
  simp [Group.lanes, mem_setBits, BitVec.getLsbD]

theorem nodup_lanes (g : Group) : g.lanes.Nodup := List.Pairwise.filter _ List.nodup_range

theorem get_setReg (g : Group) (l r v k : Nat) :
    sgetD (g.setReg l r v).regs k 0 = if k = 256 * l + r then BitVec.ofNat 32 v else sgetD g.regs k 0 := by
  unfold Group.setReg
  split
  · next e => subst e; exact sgetD_sput_same _ _ _ _
  · next e => exact sgetD_sput_other _ _ _ e

/-- One lane's result of a register operation. -/
theorem get_set (g : Group) {l r l' r' : Nat} {wd : Bool} (v : Nat) (hr : r' + b2n wd < 256) (hr' : r < 256) :
    sgetD (g.set l' r' wd v).regs (256 * l + r) 0 =
      if l = l' ∧ r = r' then BitVec.ofNat 32 v
      else if l = l' ∧ wd = true ∧ r = r' + 1 then BitVec.ofNat 32 (v / 2 ^ 32)
      else sgetD g.regs (256 * l + r) 0 := by
  cases wd
  · have : (256 * l + r = 256 * l' + r') ↔ (l = l' ∧ r = r') := by
      simp [b2n] at hr; omega
    simp only [Group.set, Bool.false_eq_true, if_false, get_setReg, this, false_and, and_false]
  · simp only [b2n, if_true] at hr
    have e1 : (256 * l + r = 256 * l' + r') ↔ (l = l' ∧ r = r') := by omega
    have e2 : (256 * l + r = 256 * l' + (r' + 1)) ↔ (l = l' ∧ r = r' + 1) := by omega
    simp only [Group.set, if_true, get_setReg, e1, e2, true_and]
    by_cases h1 : l = l' ∧ r = r' + 1
    · have : ¬ (l = l' ∧ r = r') := by omega
      simp [h1]
    · simp [h1]

/-- A lane-wise operation changes registers and sticky flags alone. -/
theorem laneOp_shape (rd : Nat) (wd : Bool) (f : Nat → Nat × Flags) (ls : List Nat) (g : Group) :
    ls.foldl (fun x l => let (v, fl) := f l; (x.set l rd wd v).flag fl) g =
      { g with
        regs := (ls.foldl (fun x l => x.set l rd wd (f l).1) g).regs
        flags := ls.foldl (fun x l => x ||| (f l).2) g.flags } := by
  induction ls generalizing g with
  | nil => rfl
  | cons a r ih =>
    simp only [List.foldl_cons]
    rw [ih]
    have e : ∀ (ls : List Nat) (x y : Group), x.regs = y.regs →
        (ls.foldl (fun x l => x.set l rd wd (f l).1) x).regs = (ls.foldl (fun x l => x.set l rd wd (f l).1) y).regs := by
      intro ls
      induction ls with
      | nil => intro x y h; exact h
      | cons b q ih2 =>
        intro x y h
        refine ih2 _ _ ?_
        cases wd <;> simp [Group.set, Group.setReg, h]
    rw [e r ((g.set a rd wd (f a).1).flag (f a).2) (g.set a rd wd (f a).1) rfl]
    cases wd <;> rfl

/-- The registers after a register operation of the listed lanes. -/
theorem foldl_set_regs (rd : Nat) (wd : Bool) (v : Nat → Nat) (hr : rd + b2n wd < 256) (ls : List Nat)
    (hn : ls.Nodup) (g : Group) {l r : Nat} (h : r < 256) :
    sgetD (ls.foldl (fun x l => x.set l rd wd (v l)) g).regs (256 * l + r) 0 =
      if l ∈ ls ∧ r = rd then BitVec.ofNat 32 (v l)
      else if l ∈ ls ∧ wd = true ∧ r = rd + 1 then BitVec.ofNat 32 (v l / 2 ^ 32)
      else sgetD g.regs (256 * l + r) 0 := by
  induction ls generalizing g with
  | nil => simp
  | cons a q ih =>
    rw [List.foldl_cons, ih (List.nodup_cons.mp hn).2, get_set _ _ hr h]
    have ha := (List.nodup_cons.mp hn).1
    by_cases e : l = a
    · subst e; simp [ha]
    · simp [e]

/-- The registers an operation names exist, and a pair is even, so RD (and RD + 1) is below 256. -/
theorem range_rd {w : Fields} {sig : Sig} {g : Group} {wd : Bool} (h : sig.range w g = none)
    (hrd : sig.rd = if wd then .p else .r) : w.rd.toNat + b2n wd < 256 := by
  have hlt := w.rd.isLt
  cases wd
  · simpa [b2n] using hlt
  · simp only [if_true] at hrd
    unfold Sig.range at h
    have hmem : (Opnd.p, w.rd.toNat) ∈ sig.fields w := by simp [Sig.fields, hrd]
    simp only at h
    split at h
    · simp at h
    · next h1 =>
      split at h
      · simp at h
      · next h2 =>
        have := List.find?_eq_none.mp h2 _ hmem
        simp at this
        simp only [b2n, if_true]; omega

/-- A lane-wise instruction whose checks pass has its result in every active lane. -/
theorem laneResult_of_passes {s t : State} {id : GroupId} {cls op : Nat} {w : Fields} {sig : Sig} {g : Group}
    {kn : Kernel} {wd : Bool} (h : Passes s id cls op w sig g kn t) (hrd : sig.rd = if wd then .p else .r)
    (f : State → Nat → Group → Kernel → Except FaultInfo Group) (v : Nat → Nat × Flags)
    (hf : f t (gkey id) g kn = .ok (g.laneOp w.rd.toNat wd v).next) :
    LaneResult (.next (s.issueGroup id cls op w sig f)) t id g w.rd.toNat wd v := by
  rw [issueGroup_of_passes h, hf]
  refine ⟨(g.lanes.foldl (fun x l => x.set l w.rd.toNat wd (v l).1) g).regs, ?_, fun l hl r hr => ?_⟩
  rotate_left
  · rw [foldl_set_regs _ _ (fun l => (v l).1) (range_rd h.inRange hrd) _ (nodup_lanes g) g hr]
    simp only [mem_lanes, hl, true_and]
  · simp only [Group.laneOp, laneOp_shape, Group.stepped, Group.next]

/-- The same with the results given another way. -/
theorem LaneResult.congr {o : Answer} {t : State} {id : GroupId} {g : Group} {rd : Nat} {wd : Bool}
    {v v' : Nat → Nat × Flags} (h : LaneResult o t id g rd wd v) (e : ∀ l, v l = v' l) : LaneResult o t id g rd wd v' := by
  rwa [← funext e]

end Sys2Proof.Laws
end

