-- ==== Sys2Proof/Laws/Memory.lean ====
section
/-! SUPPORT. The memory cells: a byte stored is read back, every other byte reads as before, and every
operation keeps the canonical form. -/
namespace Sys2Proof.Laws
open Sys2Proof.Machine

@[simp] theorem readByte_writeByte_same (m : List Host.Cell) (a : Nat) (v : Byte) : readByte (writeByte m a v) a = v :=
  sgetD_sput_same m a v emptyByte
theorem readByte_writeByte_other {a b : Nat} (m : List Host.Cell) (v : Byte) (hb : b ≠ a) :
    readByte (writeByte m a v) b = readByte m b := sgetD_sput_other m v emptyByte hb
theorem wf_writeByte {m : List Host.Cell} (a : Nat) (v : Byte) (h : Memory.wf m = true) : Memory.wf (writeByte m a v) = true :=
  sparseWf_sput a v emptyByte h

theorem wf_writeBytes {m : List Host.Cell} (a : Nat) (l : Bytes) (h : Memory.wf m = true) : Memory.wf (writeBytes m a l) = true := by
  induction l generalizing m a with
  | nil => exact h
  | cons b r ih => exact ih (a + 1) (wf_writeByte a b h)

theorem readByte_writeBytes_outside {a b : Nat} (m : List Host.Cell) (l : Bytes) (hb : b < a ∨ a + l.length ≤ b) :
    readByte (writeBytes m a l) b = readByte m b := by
  induction l generalizing m a with
  | nil => rfl
  | cons v r ih =>
    simp only [List.length_cons] at hb
    rw [writeBytes, ih _ (by omega), readByte_writeByte_other _ v (by omega)]

theorem readByte_writeBytes_inside {a i : Nat} (m : List Host.Cell) (l : Bytes) (hi : i < l.length) :
    readByte (writeBytes m a l) (a + i) = l[i] := by
  induction l generalizing m a i with
  | nil => cases hi
  | cons v r ih =>
    cases i with
    | zero =>
      rw [writeBytes, readByte_writeBytes_outside _ _ (by omega)]
      exact readByte_writeByte_same m a v
    | succ j =>
      have e : a + (j + 1) = a + 1 + j := by omega
      rw [writeBytes, e, ih _ (by simpa using hi)]
      rfl

theorem wf_writeMasked {m : List Host.Cell} (a mask data n : Nat) (h : Memory.wf m = true) :
    Memory.wf (writeMasked m a mask data n) = true := by
  unfold writeMasked
  induction (List.range n) generalizing m with
  | nil => exact h
  | cons i r ih =>
    simp only [List.foldl_cons]
    apply ih
    split
    · exact wf_writeByte _ _ h
    · exact h

/-- A masked store of `n` bytes from `a` changes no byte outside them. -/
theorem readByte_writeMasked_outside {a b : Nat} (m : List Host.Cell) (mask data n : Nat) (hb : b < a ∨ a + n ≤ b) :
    readByte (writeMasked m a mask data n) b = readByte m b := by
  unfold writeMasked
  have key : ∀ (l : List Nat) (m : List Host.Cell), (∀ i ∈ l, i < n) →
      readByte (l.foldl (fun m i => if mask.testBit i then writeByte m (a + i) (BitVec.ofNat 8 (data >>> (8 * i))) else m) m) b
        = readByte m b := by
    intro l
    induction l with
    | nil => intro m _; rfl
    | cons i r ih =>
      intro m hl
      have hi := hl i (by simp)
      simp only [List.foldl_cons]
      rw [ih _ (fun j hj => hl j (by simp [hj]))]
      split
      · exact readByte_writeByte_other _ _ (by omega)
      · rfl
  exact key _ m fun i hi => List.mem_range.1 hi

theorem wf_filter {m : List Host.Cell} (p : Host.Cell → Bool) (h : Memory.wf m = true) : Memory.wf (m.filter p) = true :=
  sparseWf_filter emptyByte p h

theorem wf_empty : Memory.wf [] = true := rfl

end Sys2Proof.Laws
end

