-- ==== Sys2Proof/Laws/Keeps.lean ====
section
/-! SUPPORT. What every operation of the model keeps: the command queue, the canonical form of memory and
the order of the power sequence. One lemma for each operation, in the order of the files. -/
namespace Sys2Proof.Laws
open Sys2Proof.Machine

/-- From `s`, a state whose queue, memory cells and pins are these has kept the queue, the canonical form of
memory and the power order. -/
def KeepsC (s : State) (pending : List Instr) (cells : List Host.Cell) (pins : Pins) : Prop :=
  pending = s.pending ∧ (Memory.wf s.mem.cells = true → Memory.wf cells = true) ∧ (PowerOrder s.pins → PowerOrder pins)
def Keeps (s t : State) : Prop := KeepsC s t.pending t.mem.cells t.pins
def KeepsP {α : Type} (s : State) (p : State × α) : Prop := Keeps s p.1
def KeepsO (s : State) (o : Option State) : Prop := ∀ t, o = some t → Keeps s t
def KeepsOP {α : Type} (s : State) (o : Option (State × α)) : Prop := ∀ p, o = some p → KeepsP s p
def KeepsE (s : State) : Eff → Prop
  | .done t => Keeps s t
  | .fault t _ => Keeps s t
  | .hold t => Keeps s t
def KeepsA (s : State) (a : Answer) : Prop := ∀ t, a = .next t → Keeps s t

theorem Keeps.refl (s : State) : Keeps s s := ⟨rfl, id, id⟩
theorem Keeps.trans {s t u : State} (h : Keeps s t) (k : Keeps t u) : Keeps s u :=
  ⟨k.1.trans h.1, fun a => k.2.1 (h.2.1 a), fun a => k.2.2 (h.2.2 a)⟩
theorem Keeps.ofC {s t : State} (h : Keeps s t) : KeepsC s t.pending t.mem.cells t.pins := h
theorem KeepsP.mk {α : Type} {s t : State} {x : α} (h : Keeps s t) : KeepsP s (t, x) := h
theorem KeepsP.fst {α : Type} {s : State} {p : State × α} (h : KeepsP s p) : Keeps s p.1 := h
theorem KeepsP.eq {α : Type} {s u : State} {p : State × α} {x : α} (e : p = (u, x)) (h : KeepsP s p) : Keeps s u := by
  subst e; exact h
theorem KeepsO.none {s : State} : KeepsO s Option.none := fun _ h => nomatch h
theorem KeepsO.some {s t : State} (h : Keeps s t) : KeepsO s (Option.some t) := fun _ e => Option.some.inj e ▸ h
theorem KeepsO.eq {s u : State} {o : Option State} (e : o = Option.some u) (h : KeepsO s o) : Keeps s u := h u e
theorem KeepsOP.none {α : Type} {s : State} : KeepsOP (α := α) s Option.none := fun _ h => nomatch h
theorem KeepsOP.some {α : Type} {s : State} {p : State × α} (h : KeepsP s p) : KeepsOP s (Option.some p) :=
  fun _ e => Option.some.inj e ▸ h
theorem KeepsOP.eq {α : Type} {s u : State} {o : Option (State × α)} {x : α} (e : o = Option.some (u, x)) (h : KeepsOP s o) :
    Keeps s u := h _ e
theorem KeepsOP.eqP {α : Type} {s : State} {o : Option (State × α)} {p : State × α} (e : o = Option.some p) (h : KeepsOP s o) :
    KeepsP s p := h _ e
theorem KeepsO.getD {s t : State} {o : Option State} (h : KeepsO s o) (k : Keeps s t) : Keeps s (o.getD t) := by
  cases o
  · exact k
  · exact h _ rfl
theorem KeepsO.bind {α : Type} {s : State} {o : Option α} {f : α → Option State} (h : ∀ x, KeepsO s (f x)) : KeepsO s (o.bind f) := by
  cases o
  · exact KeepsO.none
  · exact h _
theorem KeepsO.bindS {s : State} {o : Option State} {f : State → Option State} (h : KeepsO s o)
    (k : ∀ t, Keeps s t → KeepsO s (f t)) : KeepsO s (o.bind f) := by
  cases o
  · exact KeepsO.none
  · exact k _ (h _ rfl)
theorem KeepsO.bindP {α : Type} {s : State} {o : Option (State × α)} {f : State × α → Option State} (h : KeepsOP s o)
    (k : ∀ t, KeepsP s t → KeepsO s (f t)) : KeepsO s (o.bind f) := by
  cases o
  · exact KeepsO.none
  · exact k _ (h _ rfl)
theorem KeepsOP.bindS {α : Type} {s : State} {o : Option State} {f : State → Option (State × α)} (h : KeepsO s o)
    (k : ∀ t, Keeps s t → KeepsOP s (f t)) : KeepsOP s (o.bind f) := by
  cases o
  · exact KeepsOP.none
  · exact k _ (h _ rfl)
theorem KeepsOP.bindP {α β : Type} {s : State} {o : Option (State × β)} {f : State × β → Option (State × α)} (h : KeepsOP s o)
    (k : ∀ t, KeepsP s t → KeepsOP s (f t)) : KeepsOP s (o.bind f) := by
  cases o
  · exact KeepsOP.none
  · exact k _ (h _ rfl)
theorem KeepsO.mapS {s : State} {o : Option State} {f : State → State} (h : KeepsO s o)
    (k : ∀ t, Keeps s t → Keeps s (f t)) : KeepsO s (o.map f) := by
  cases o
  · exact KeepsO.none
  · exact KeepsO.some (k _ (h _ rfl))
theorem KeepsO.mapP {α : Type} {s : State} {o : Option (State × α)} {f : State × α → State} (h : KeepsOP s o)
    (k : ∀ t, KeepsP s t → Keeps s (f t)) : KeepsO s (o.map f) := by
  cases o
  · exact KeepsO.none
  · exact KeepsO.some (k _ (h _ rfl))
theorem KeepsOP.mapS {α : Type} {s : State} {o : Option State} {f : State → State × α} (h : KeepsO s o)
    (k : ∀ t, Keeps s t → KeepsP s (f t)) : KeepsOP s (o.map f) := by
  cases o
  · exact KeepsOP.none
  · exact KeepsOP.some (k _ (h _ rfl))
theorem KeepsOP.mapP {α β : Type} {s : State} {o : Option (State × β)} {f : State × β → State × α} (h : KeepsOP s o)
    (k : ∀ t, KeepsP s t → KeepsP s (f t)) : KeepsOP s (o.map f) := by
  cases o
  · exact KeepsOP.none
  · exact KeepsOP.some (k _ (h _ rfl))
theorem KeepsA.next {s t : State} (h : Keeps s t) : KeepsA s (.next t) := fun _ e => by cases e; exact h
theorem Keeps.foldl {α : Type} {s t : State} {xs : List α} {f : State → α → State} (h : Keeps s t)
    (k : ∀ t x, Keeps s t → Keeps s (f t x)) : Keeps s (xs.foldl f t) := by
  induction xs generalizing t with
  | nil => exact h
  | cons x xs ih => exact ih (k _ _ h)
theorem KeepsP.foldl {α β : Type} {s : State} {p : State × β} {xs : List α} {f : State × β → α → State × β} (h : KeepsP s p)
    (k : ∀ p x, KeepsP s p → KeepsP s (f p x)) : KeepsP s (xs.foldl f p) := by
  induction xs generalizing p with
  | nil => exact h
  | cons x xs ih => exact ih (k _ _ h)
theorem KeepsO.foldl {α : Type} {s : State} {p : Option State} {xs : List α} {f : Option State → α → Option State} (h : KeepsO s p)
    (k : ∀ p x, KeepsO s p → KeepsO s (f p x)) : KeepsO s (xs.foldl f p) := by
  induction xs generalizing p with
  | nil => exact h
  | cons x xs ih => exact ih (k _ _ h)
theorem KeepsOP.foldl {α β : Type} {s : State} {p : Option (State × β)} {xs : List α}
    {f : Option (State × β) → α → Option (State × β)} (h : KeepsOP s p)
    (k : ∀ p x, KeepsOP s p → KeepsOP s (f p x)) : KeepsOP s (xs.foldl f p) := by
  induction xs generalizing p with
  | nil => exact h
  | cons x xs ih => exact ih (k _ _ h)
theorem KeepsE.done {s t : State} (h : Keeps s t) : KeepsE s (.done t) := h
theorem KeepsE.fault {s t : State} {f : FaultInfo} (h : Keeps s t) : KeepsE s (.fault t f) := h
theorem KeepsE.hold {s t : State} (h : Keeps s t) : KeepsE s (.hold t) := h
theorem Keeps.cut {s t : State} {P : Prop} (h : Keeps s t) (k : Keeps s t → P) : P := k h
theorem Keeps.lit {s t u : State} (h : Keeps s t) (hp : u.pending = t.pending) (hm : u.mem.cells = t.mem.cells)
    (hn : u.pins = t.pins) : Keeps s u := by
  unfold Keeps at *
  rw [hp, hm, hn]
  exact h
theorem KeepsO.map {α : Type} {s : State} {o : Option α} {f : α → State} (h : ∀ x, Keeps s (f x)) : KeepsO s (o.map f) := by
  cases o
  · exact KeepsO.none
  · exact KeepsO.some (h _)
theorem KeepsOP.map {α β : Type} {s : State} {o : Option α} {f : α → State × β} (h : ∀ x, KeepsP s (f x)) : KeepsOP s (o.map f) := by
  cases o
  · exact KeepsOP.none
  · exact KeepsOP.some (h _)
theorem KeepsOP.bind {α β : Type} {s : State} {o : Option α} {f : α → Option (State × β)} (h : ∀ x, KeepsOP s (f x)) :
    KeepsOP s (o.bind f) := by
  cases o
  · exact KeepsOP.none
  · exact h _
def KeepsH (s : State) : Handled → Prop
  | .done t => Keeps s t
  | .hold t => Keeps s t
  | .error t _ => Keeps s t
def KeepsF (s : State) : Finish → Prop
  | .done t => Keeps s t
  | .flushing t => Keeps s t
  | .later => True
theorem KeepsH.done {s t : State} (h : Keeps s t) : KeepsH s (.done t) := h
theorem KeepsH.hold {s t : State} (h : Keeps s t) : KeepsH s (.hold t) := h
theorem KeepsH.error {s t : State} {n : Nat} (h : Keeps s t) : KeepsH s (.error t n) := h
theorem KeepsF.done {s t : State} (h : Keeps s t) : KeepsF s (.done t) := h
theorem KeepsF.flushing {s t : State} (h : Keeps s t) : KeepsF s (.flushing t) := h
theorem KeepsF.later {s : State} : KeepsF s .later := trivial
theorem KeepsF.eqDone {s u : State} {f : Finish} (e : f = .done u) (h : KeepsF s f) : Keeps s u := by subst e; exact h
theorem KeepsF.eqFlushing {s u : State} {f : Finish} (e : f = .flushing u) (h : KeepsF s f) : Keeps s u := by subst e; exact h
theorem KeepsH.eqDone {s u : State} {f : Handled} (e : f = .done u) (h : KeepsH s f) : Keeps s u := by subst e; exact h
theorem KeepsH.eqHold {s u : State} {f : Handled} (e : f = .hold u) (h : KeepsH s f) : Keeps s u := by subst e; exact h
theorem KeepsH.eqError {s u : State} {n : Nat} {f : Handled} (e : f = .error u n) (h : KeepsH s f) : Keeps s u := by subst e; exact h
theorem KeepsE.eqDone {s u : State} {f : Eff} (e : f = .done u) (h : KeepsE s f) : Keeps s u := by subst e; exact h
theorem KeepsE.eqHold {s u : State} {f : Eff} (e : f = .hold u) (h : KeepsE s f) : Keeps s u := by subst e; exact h
theorem KeepsE.eqFault {s u : State} {n : FaultInfo} {f : Eff} (e : f = .fault u n) (h : KeepsE s f) : Keeps s u := by subst e; exact h

end Sys2Proof.Laws
end

