-- ==== Sys2Proof/Laws/KeepsMemory.lean ====
section
/-! SUPPORT. What every operation keeps (Laws/Keeps.lean): memory, coherence, faults, translation and the issue of an instruction. -/
namespace Sys2Proof.Laws
open Sys2Proof.Machine

theorem keeps_setLink {s t : State} (h : Keeps s t) {a1 a2} : Keeps s (State.setLink t a1 a2) := by
  unfold State.setLink
  exact Keeps.lit (t := t) h rfl rfl rfl
theorem keeps_setCluster {s t : State} (h : Keeps s t) {a1 a2} : Keeps s (State.setCluster t a1 a2) := by
  unfold State.setCluster
  exact Keeps.lit (t := t) h rfl rfl rfl
theorem keeps_modCluster {s t : State} (h : Keeps s t) {a1 a2} : Keeps s (State.modCluster t a1 a2) := by
  unfold State.modCluster
  exact keeps_setCluster h
theorem keeps_setGroup {s t : State} (h : Keeps s t) {a1 a2} : Keeps s (State.setGroup t a1 a2) := by
  unfold State.setGroup
  exact Keeps.lit (t := t) h rfl rfl rfl
theorem keeps_setKernel {s t : State} (h : Keeps s t) {a1 a2} : Keeps s (State.setKernel t a1 a2) := by
  unfold State.setKernel
  exact Keeps.lit (t := t) h rfl rfl rfl
theorem keeps_modKernel {s t : State} (h : Keeps s t) {a1 a2} : Keeps s (State.modKernel t a1 a2) := by
  unfold State.modKernel
  split
  · exact keeps_setKernel h
  · exact h
theorem keeps_modGroup {s t : State} (h : Keeps s t) {a1 a2} : Keeps s (State.modGroup t a1 a2) := by
  unfold State.modGroup
  split
  · exact keeps_setGroup h
  · exact h
theorem keeps_setAgent {s t : State} (h : Keeps s t) {a1 a2} : Keeps s (State.setAgent t a1 a2) := by
  unfold State.setAgent
  exact Keeps.lit (t := t) h rfl rfl rfl
theorem keeps_modAgent {s t : State} (h : Keeps s t) {a1 a2} : Keeps s (State.modAgent t a1 a2) := by
  unfold State.modAgent
  exact keeps_setAgent h
theorem keeps_setXl {s t : State} (h : Keeps s t) {a1 a2} : Keeps s (State.setXl t a1 a2) := by
  unfold State.setXl
  exact Keeps.lit (t := t) h rfl rfl rfl
theorem keeps_modXl {s t : State} (h : Keeps s t) {a1 a2} : Keeps s (State.modXl t a1 a2) := by
  unfold State.modXl
  exact keeps_setXl h
theorem keeps_setDx {s t : State} (h : Keeps s t) {a1 a2} : Keeps s (State.setDx t a1 a2) := by
  unfold State.setDx
  exact Keeps.lit (t := t) h rfl rfl rfl
theorem keeps_setTally {s t : State} (h : Keeps s t) {a1 a2} : Keeps s (State.setTally t a1 a2) := by
  unfold State.setTally
  exact Keeps.lit (t := t) h rfl rfl rfl
theorem keeps_setCounter {s t : State} (h : Keeps s t) {a1 a2 a3} : Keeps s (State.setCounter t a1 a2 a3) := by
  unfold State.setCounter
  exact Keeps.lit (t := t) h rfl rfl rfl
theorem keeps_count {s t : State} (h : Keeps s t) {a1 a2 a3} : Keeps s (State.count t a1 a2 a3) := by
  unfold State.count
  exact keeps_setCounter h
theorem keeps_useFree {s t : State} (h : Keeps s t) : Keeps s (State.useFree t) := by
  unfold State.useFree
  exact Keeps.lit (t := t) h rfl rfl rfl
theorem keeps_send {s t : State} (h : Keeps s t) {a1} : Keeps s (State.send t a1) := by
  unfold State.send
  exact Keeps.lit (t := t) h rfl rfl rfl
theorem keeps_trace {s t : State} (h : Keeps s t) {a1 a2} : Keeps s (State.trace t a1 a2) := by
  unfold State.trace
  split
  · extract_lets +onlyGivenNames -merge x3 x4
    exact Keeps.lit (t := t) h rfl rfl rfl
  · exact h
theorem keeps_setInterval {s t : State} (h : Keeps s t) {a1} : Keeps s (State.setInterval t a1) := by
  unfold State.setInterval
  generalize State.interval t a1 = o
  cases o
  · exact keeps_setCounter (keeps_useFree h)
  · exact keeps_setCounter h
theorem keeps_newEvent {s t : State} (h : Keeps s t) {a1} : Keeps s (State.newEvent t a1) := by
  unfold State.newEvent
  extract_lets +onlyGivenNames -merge x1 x2 x3 x4 x5 x6 x7 x8 m u
  extract_lets +onlyGivenNames -merge x9
  have h9 : Keeps s x9 := Keeps.lit h rfl rfl rfl
  clear_value x9
  extract_lets +onlyGivenNames -merge x10
  have h10 : Keeps s x10 := by
    unfold x10
    split
    · exact keeps_count h9
    · exact h9
  clear_value x10
  extract_lets +onlyGivenNames -merge x11
  have h11 : Keeps s x11 := by
    unfold x11
    split
    · exact Keeps.foldl h10 fun _ _ k => keeps_setInterval k
    · exact h10
  clear_value x11
  exact keeps_trace (keeps_count (keeps_count h11))
theorem keeps_event {s t : State} (h : Keeps s t) {a1} : Keeps s (State.event t a1) := by
  unfold State.event
  split
  · exact keeps_newEvent h
  · split
    · exact keeps_newEvent (keeps_useFree h)
    · refine keeps_count ?_
      exact Keeps.lit h rfl rfl rfl
theorem keeps_setMark {s t : State} (h : Keeps s t) {a1 a2} : Keeps s (State.setMark t a1 a2) := by
  unfold State.setMark
  exact Keeps.lit (t := t) h rfl rfl rfl
theorem keeps_dropUpset {s t : State} (h : Keeps s t) {a1} : Keeps s (State.dropUpset t a1) := by
  unfold State.dropUpset
  exact Keeps.lit (t := t) h rfl rfl rfl
/-- Storing in a sector keeps the canonical form of memory. -/
theorem keeps_putSector {s t : State} (h : Keeps s t) {a1 a2 a3} : Keeps s (State.putSector t a1 a2 a3) := by
  unfold State.putSector
  split
  · exact ⟨h.1, fun w => wf_writeMasked _ _ _ _ (wf_writeMasked _ _ _ _ (h.2.1 w)), h.2.2⟩
  · exact ⟨h.1, fun w => wf_writeMasked _ _ _ _ (h.2.1 w), h.2.2⟩
theorem keeps_dramWrite {s t : State} (h : Keeps s t) {a1 a2 a3} : Keeps s (State.dramWrite t a1 a2 a3) := by
  unfold State.dramWrite
  split
  · exact h
  · exact keeps_count h
  · exact keeps_count h
  · split
    · exact keeps_putSector (keeps_dropUpset (keeps_setMark h))
    · split
      · exact h
      · exact keeps_putSector h
theorem keeps_dramPoison {s t : State} (h : Keeps s t) {a1} : Keeps s (State.dramPoison t a1) := by
  unfold State.dramPoison
  split
  · exact keeps_setMark h
  · exact h
theorem keeps_dramWriteLine {s t : State} (h : Keeps s t) {a1 a2 a3 a4} : Keeps s (State.dramWriteLine t a1 a2 a3 a4) := by
  unfold State.dramWriteLine
  refine Keeps.foldl ?_ fun u1 z2 h3 => ?_
  · exact h
  · split
    · exact keeps_dramPoison h3
    · exact keeps_dramWrite h3
theorem keeps_dropL1 {s t : State} (h : Keeps s t) {a1 a2} : Keeps s (State.dropL1 t a1 a2) := by
  unfold State.dropL1
  exact keeps_modCluster h
theorem keeps_invalidateL1 {s t : State} (h : Keeps s t) {a1} : Keeps s (State.invalidateL1 t a1) := by
  unfold State.invalidateL1
  exact keeps_modCluster h
theorem keeps_dropRemote {s t : State} (h : Keeps s t) {a1} : Keeps s (State.dropRemote t a1) := by
  unfold State.dropRemote
  extract_lets +onlyGivenNames -merge x1
  have h2 : Keeps s x1 := Keeps.lit (t := t) h rfl rfl rfl
  clear_value x1
  exact keeps_modAgent h2
theorem keeps_acquire {s t : State} (h : Keeps s t) {a1 a2} : Keeps s (State.acquire t a1 a2) := by
  unfold State.acquire
  extract_lets +onlyGivenNames -merge x1 x2
  have h3 : Keeps s x2 := by
    unfold x2
    split
    · exact keeps_invalidateL1 h
    · exact h
  clear_value x2
  split
  · exact keeps_dropRemote h3
  · exact h3
theorem keeps_arrayEvent {s t : State} (h : Keeps s t) {a1 a2 a3} : Keeps s (State.arrayEvent t a1 a2 a3) := by
  unfold State.arrayEvent
  exact keeps_event h
theorem keeps_meetArrays {s t : State} (h : Keeps s t) {a1 a2 a3 a4} : KeepsP s (State.meetArrays t a1 a2 a3 a4) := by
  unfold State.meetArrays
  extract_lets +onlyGivenNames -merge x1 x2 x3
  split
  · exact KeepsP.mk h
  · extract_lets +onlyGivenNames -merge x8 x9
    have h10 : Keeps s x9 := Keeps.lit (t := t) h rfl rfl rfl
    clear_value x9
    refine KeepsP.mk ?_
    refine Keeps.foldl ?_ fun u11 z12 h13 => ?_
    · exact h10
    · split <;> exact keeps_arrayEvent h13
theorem keeps_setStack {s t : State} (h : Keeps s t) {a1 a2} : Keeps s (State.setStack t a1 a2) := by
  unfold State.setStack
  exact Keeps.lit (t := t) h rfl rfl rfl
theorem keeps_modStack {s t : State} (h : Keeps s t) {a1 a2} : Keeps s (State.modStack t a1 a2) := by
  unfold State.modStack
  exact keeps_setStack h
theorem keeps_modPc {s t : State} (h : Keeps s t) {a1 a2} : Keeps s (State.modPc t a1 a2) := by
  unfold State.modPc
  exact Keeps.lit (t := t) h rfl rfl rfl
theorem keeps_writeRecord {s t : State} (h : Keeps s t) : Keeps s (State.writeRecord t) := by
  unfold State.writeRecord
  extract_lets +onlyGivenNames -merge x1 x2 x3 x4 x5
  exact Keeps.lit (t := t) h rfl rfl rfl
theorem keeps_setSlotEntry {s t : State} (h : Keeps s t) {a1 a2} : Keeps s (State.setSlotEntry t a1 a2) := by
  unfold State.setSlotEntry
  refine keeps_writeRecord ?_
  exact Keeps.lit (t := t) h rfl rfl rfl
theorem keeps_losePc {s t : State} (h : Keeps s t) {a1 a2} : Keeps s (State.losePc t a1 a2) := by
  unfold State.losePc
  exact keeps_event (keeps_modPc h)
theorem keeps_retireNow {s t : State} (h : Keeps s t) {a1 a2} : Keeps s (State.retireNow t a1 a2) := by
  unfold State.retireNow
  extract_lets +onlyGivenNames -merge x1 x2
  have h3 : Keeps s x2 := keeps_event (keeps_modPc h)
  clear_value x2
  split
  · exact keeps_losePc h3
  · split
    · exact keeps_losePc h3
    · extract_lets +onlyGivenNames -merge x18
      have h19 : Keeps s x18 := keeps_modStack (keeps_setSlotEntry h3)
      clear_value x18
      exact keeps_event h19
theorem keeps_retire {s t : State} (h : Keeps s t) {a1 a2} : Keeps s (State.retire t a1 a2) := by
  unfold State.retire
  extract_lets +onlyGivenNames -merge x1 x2
  split
  · split
    · exact h
    · exact keeps_retireNow h
  · split
    · split
      · exact keeps_modPc h
      · exact h
    · split
      · exact h
      · split
        · extract_lets +onlyGivenNames -merge x35
          have h36 : Keeps s x35 := keeps_modStack h
          clear_value x35
          exact keeps_losePc (keeps_event (keeps_modPc h36))
        · split
          · exact h
          · exact keeps_modStack h
theorem keeps_sectorCorrected {s t : State} (h : Keeps s t) {a1} : Keeps s (State.sectorCorrected t a1) := by
  unfold State.sectorCorrected
  split
  · exact keeps_event (keeps_count h)
  · split
    extract_lets +onlyGivenNames -merge x23
    have h24 : Keeps s x23 := keeps_event (keeps_count h)
    clear_value x23
    extract_lets +onlyGivenNames -merge x25 x26
    split
    · split
      · exact h24
      · extract_lets +onlyGivenNames -merge x33
        have h34 : Keeps s x33 := keeps_modPc h24
        clear_value x33
        split
        · exact keeps_retire h34
        · exact h34
    · exact keeps_modPc h24
theorem keeps_countLost {s t : State} (h : Keeps s t) {a1} : Keeps s (State.countLost t a1) := by
  unfold State.countLost
  split <;> exact keeps_count h
theorem keeps_sectorLost {s t : State} (h : Keeps s t) {a1 a2} : Keeps s (State.sectorLost t a1 a2) := by
  unfold State.sectorLost
  extract_lets +onlyGivenNames -merge x1
  have h2 : Keeps s x1 := keeps_countLost (keeps_dramPoison h)
  clear_value x1
  split
  · exact keeps_event h2
  · split
    extract_lets +onlyGivenNames -merge x25
    have h26 : Keeps s x25 := keeps_event h2
    clear_value x25
    extract_lets +onlyGivenNames -merge x27
    split
    · exact h26
    · extract_lets +onlyGivenNames -merge x32
      have h33 : Keeps s x32 := keeps_modPc h26
      clear_value x32
      split
      · exact keeps_retire h33
      · exact h33
theorem keeps_freeSector {s t : State} (h : Keeps s t) : KeepsP s (State.freeSector t) := by
  unfold State.freeSector
  extract_lets +onlyGivenNames -merge x1
  refine KeepsP.mk ?_
  exact Keeps.lit (t := t) h rfl rfl rfl
theorem keeps_setUpset {s t : State} (h : Keeps s t) {a1 a2 a3} : Keeps s (State.setUpset t a1 a2 a3) := by
  unfold State.setUpset
  exact Keeps.lit (t := t) h rfl rfl rfl
theorem keeps_meetUpset {s t : State} (h : Keeps s t) {a1} : Keeps s (State.meetUpset t a1) := by
  unfold State.meetUpset
  split
  extract_lets +onlyGivenNames -merge x9 x10
  split
  · exact h
  · extract_lets +onlyGivenNames -merge x15
    have h16 : Keeps s x15 := keeps_setUpset h
    clear_value x15
    split
    · exact h16
    · split
      · exact keeps_sectorCorrected h16
      · split
        · exact keeps_sectorLost h16
        · extract_lets +onlyGivenNames -merge x29 x30
          have h31 : Keeps s x30 := keeps_useFree h16
          clear_value x30
          split
          · split
            rename_i e41
            exact keeps_sectorCorrected (keeps_dramWrite (KeepsP.eq e41 (keeps_freeSector h31)))
          · exact keeps_sectorLost h31
theorem keeps_readSectors {s t : State} (h : Keeps s t) {a1 a2} : Keeps s (State.readSectors t a1 a2) := by
  unfold State.readSectors
  exact Keeps.foldl h fun _ _ h3 => keeps_meetUpset h3
theorem keeps_setTxn {s t : State} (h : Keeps s t) {a1} : Keeps s (State.setTxn t a1) := by
  unfold State.setTxn
  exact Keeps.lit (t := t) h rfl rfl rfl
theorem keeps_dropTxn {s t : State} (h : Keeps s t) {a1} : Keeps s (State.dropTxn t a1) := by
  unfold State.dropTxn
  exact Keeps.lit (t := t) h rfl rfl rfl
theorem keeps_giveRetry {s t : State} (h : Keeps s t) {a1 a2} : Keeps s (State.giveRetry t a1 a2) := by
  unfold State.giveRetry
  extract_lets +onlyGivenNames -merge x1 x2 x3
  exact keeps_count (keeps_setAgent h)
theorem keeps_acceptTxn {s t : State} (h : Keeps s t) {a1 a2} : Keeps s (State.acceptTxn t a1 a2) := by
  unfold State.acceptTxn
  extract_lets +onlyGivenNames -merge x1 x2
  have h3 : Keeps s x2 := keeps_setAgent h
  clear_value x2
  extract_lets +onlyGivenNames -merge x4 x5 x6
  exact keeps_setTxn h3
theorem keeps_breakReservations {s t : State} (h : Keeps s t) {a1 a2} : Keeps s (State.breakReservations t a1 a2) := by
  unfold State.breakReservations
  split
  · extract_lets +onlyGivenNames -merge x3
    exact Keeps.lit (t := t) h rfl rfl rfl
  · exact h
theorem keeps_performSnoop {s t : State} (h : Keeps s t) {a1 a2} : Keeps s (State.performSnoop t a1 a2) := by
  unfold State.performSnoop
  split
  · exact h
  · split
    · exact h
    · extract_lets +onlyGivenNames -merge x23 x24
      split
      · exact keeps_setTxn h
      · extract_lets +onlyGivenNames -merge x35 x36 x37 x38 x39 x40 x41
        have h42 : Keeps s x41 := by
          unfold x41
          refine keeps_setAgent ?_
          split
          · exact keeps_breakReservations h
          · exact h
        clear_value x41
        extract_lets +onlyGivenNames -merge x47
        have h48 : Keeps s x47 := by
          unfold x47
          split
          · exact keeps_count h42
          · exact h42
        clear_value x47
        exact keeps_setTxn h48
theorem keeps_takeResponse {s t : State} (h : Keeps s t) {a1 a2 a3} : Keeps s (State.takeResponse t a1 a2 a3) := by
  unfold State.takeResponse
  split
  · exact h
  · split
    · exact h
    · extract_lets +onlyGivenNames -merge x27 x28
      exact keeps_setTxn (keeps_setAgent h)
theorem keeps_poisonLine {s t : State} (h : Keeps s t) {a1 a2 a3} : Keeps s (State.poisonLine t a1 a2 a3) := by
  unfold State.poisonLine
  extract_lets +onlyGivenNames -merge x1
  have h2 : Keeps s x1 := Keeps.foldl (keeps_modAgent h) fun _ _ h5 => keeps_dramPoison h5
  clear_value x1
  exact keeps_count (keeps_event h2)
theorem keeps_recoverLine {s t : State} (h : Keeps s t) {a1 a2 a3} : Keeps s (State.recoverLine t a1 a2 a3) := by
  unfold State.recoverLine
  extract_lets +onlyGivenNames -merge x1
  have h2 : Keeps s x1 := by
    unfold x1
    split
    · exact keeps_dramWriteLine h
    · exact h
  clear_value x1
  extract_lets +onlyGivenNames -merge x13
  have h14 : Keeps s x13 := by
    unfold x13
    split
    · exact h2
    · exact keeps_modAgent (keeps_breakReservations h2)
  clear_value x13
  exact keeps_count (keeps_modAgent h14)
theorem keeps_reclaimLine {s t : State} (h : Keeps s t) {a1 a2 a3} : Keeps s (State.reclaimLine t a1 a2 a3) := by
  unfold State.reclaimLine
  split
  · exact h
  · extract_lets +onlyGivenNames -merge x5
    have h6 : Keeps s x5 := keeps_count h
    clear_value x5
    extract_lets +onlyGivenNames -merge x7 x8
    split
    · exact keeps_modAgent h6
    · split
      · exact keeps_modAgent h6
      · split
        · exact keeps_recoverLine h6
        · exact keeps_poisonLine (Keeps.foldl h6 fun _ _ h33 => keeps_modAgent (keeps_breakReservations h33))
      · exact keeps_poisonLine (Keeps.foldl h6 fun _ _ h42 => keeps_modAgent (keeps_breakReservations h42))
theorem keeps_loseSector {s t : State} (h : Keeps s t) {a1 a2} : Keeps s (State.loseSector t a1 a2) := by
  unfold State.loseSector
  extract_lets +onlyGivenNames -merge x1 x2
  split
  · exact h
  · extract_lets +onlyGivenNames -merge x13
    have h14 : Keeps s x13 := by
      unfold x13
      split
      · exact h
      · exact keeps_dramPoison h
    clear_value x13
    exact keeps_modAgent h14
theorem keeps_meetCopies {s t : State} (h : Keeps s t) {a1} : Keeps s (State.meetCopies t a1) := by
  unfold State.meetCopies
  split
  · exact h
  · refine Keeps.foldl ?_ fun u5 z6 h7 => ?_
    · exact h
    · refine Keeps.foldl ?_ fun u8 z9 h10 => ?_
      · exact h7
      · extract_lets +onlyGivenNames -merge x11
        split
        rename_i e19
        split
        · exact KeepsP.eq e19 (keeps_meetArrays h10)
        · exact keeps_loseSector (KeepsP.eq e19 (keeps_meetArrays h10))
theorem keeps_loseTag {s t : State} (h : Keeps s t) {a1 a2} : Keeps s (State.loseTag t a1 a2) := by
  unfold State.loseTag
  extract_lets +onlyGivenNames -merge x1 x2 x3
  have h4 : Keeps s x3 := Keeps.foldl h fun _ _ h7 => keeps_modAgent (keeps_breakReservations h7)
  clear_value x3
  split
  · exact keeps_poisonLine h4
  · exact keeps_modAgent h4
theorem keeps_meetLine {s t : State} (h : Keeps s t) {a1 a2} : Keeps s (State.meetLine t a1 a2) := by
  unfold State.meetLine
  split
  · exact h
  · split
    rename_i e12
    refine keeps_meetCopies ?_
    split
    · exact KeepsP.eq e12 (keeps_meetArrays h)
    · exact keeps_loseTag (KeepsP.eq e12 (keeps_meetArrays h))
theorem keeps_reclaimNow {s t : State} (h : Keeps s t) {a1 a2} : Keeps s (State.reclaimNow t a1 a2) := by
  unfold State.reclaimNow
  extract_lets +onlyGivenNames -merge x1
  have h2 : Keeps s x1 := keeps_meetLine h
  clear_value x1
  refine Keeps.foldl ?_ fun u3 z4 h5 => ?_
  · exact h2
  · split
    · exact keeps_reclaimLine h5
    · exact h5
theorem keeps_cleanHome {s t : State} (h : Keeps s t) {a1 a2 a3} : Keeps s (State.cleanHome t a1 a2 a3) := by
  unfold State.cleanHome
  split
  · exact h
  · extract_lets +onlyGivenNames -merge x11
    have h12 : Keeps s x11 := keeps_dramWriteLine h
    clear_value x11
    exact keeps_modAgent h12
theorem keeps_homeComplete {s t : State} (h : Keeps s t) {a1 a2} : Keeps s (State.homeComplete t a1 a2) := by
  unfold State.homeComplete
  extract_lets +onlyGivenNames -merge x1 x2 x3 x4 x5 x6
  have h7 : Keeps s x6 := keeps_readSectors h
  clear_value x6
  split
  extract_lets +onlyGivenNames -merge x16
  have h17 : Keeps s x16 := by
    unfold x16
    split
    · exact keeps_cleanHome h7
    · exact h7
  clear_value x16
  exact keeps_setTxn h17
theorem keeps_finishTxn {s t : State} (h : Keeps s t) {a1 a2} : Keeps s (State.finishTxn t a1 a2) := by
  unfold State.finishTxn
  extract_lets +onlyGivenNames -merge x1
  have h2 : Keeps s x1 := keeps_count (keeps_dropTxn h)
  clear_value x1
  split
  · exact keeps_modAgent h2
  · exact keeps_modAgent h2
  · exact keeps_modAgent h2
  · exact h2
theorem keeps_homeEvc {s t : State} (h : Keeps s t) {a1 a2 a3} : Keeps s (State.homeEvc t a1 a2 a3) := by
  unfold State.homeEvc
  exact keeps_modAgent h
theorem keeps_homeWbk {s t : State} (h : Keeps s t) {a1 a2 a3} : Keeps s (State.homeWbk t a1 a2 a3) := by
  unfold State.homeWbk
  split
  · exact h
  · split
    · extract_lets +onlyGivenNames -merge x13
      have h14 : Keeps s x13 := keeps_dramWriteLine h
      clear_value x13
      extract_lets +onlyGivenNames -merge x15
      have h16 : Keeps s x15 := keeps_modAgent h14
      clear_value x15
      exact keeps_homeEvc h16
    · exact h
theorem keeps_evict {s t : State} (h : Keeps s t) {a1 a2} : Keeps s (State.evict t a1 a2) := by
  unfold State.evict
  extract_lets +onlyGivenNames -merge x1
  have h2 : Keeps s x1 := keeps_meetCopies h
  clear_value x1
  extract_lets +onlyGivenNames -merge x3 x4
  have h5 : Keeps s x4 := keeps_modAgent (keeps_breakReservations h2)
  clear_value x4
  split
  · split
    · exact h5
    · exact keeps_count h5
  · split
    · exact h5
    · extract_lets +onlyGivenNames -merge x18
      split
      · exact keeps_dramWriteLine h5
      · split
        · exact keeps_count (keeps_homeEvc h5)
        · exact keeps_count (keeps_homeEvc h5)
        · exact keeps_count (keeps_homeWbk h5)
        · exact keeps_count (keeps_homeWbk h5)
        · exact h5
theorem keeps_makeRoomL3 {s t : State} (h : Keeps s t) {a1} : KeepsOP s (State.makeRoomL3 t a1) := by
  unfold State.makeRoomL3
  extract_lets +onlyGivenNames -merge x1 x2
  split
  · exact KeepsOP.some (KeepsP.mk h)
  · extract_lets +onlyGivenNames -merge x7
    exact KeepsOP.map fun u8 => KeepsP.mk (keeps_evict (keeps_useFree h))
theorem keeps_makeRoom {s t : State} (h : Keeps s t) {a1 a2 a3} : KeepsOP s (State.makeRoom t a1 a2 a3) := by
  unfold State.makeRoom
  split
  · exact KeepsOP.some (KeepsP.mk h)
  · split
    · exact keeps_makeRoomL3 h
    · extract_lets +onlyGivenNames -merge x9 x10 x11 x12 x13 x14 x15 x16
      split
      · exact KeepsOP.map fun u19 => KeepsP.mk (keeps_evict h)
      · split
        · exact KeepsOP.some (KeepsP.mk h)
        · extract_lets +onlyGivenNames -merge x33 x34
          exact KeepsOP.map fun u35 => KeepsP.mk (keeps_evict h)
theorem keeps_placeCopy {s t : State} (h : Keeps s t) {a1 a2 a3} : Keeps s (State.placeCopy t a1 a2 a3) := by
  unfold State.placeCopy
  exact keeps_modAgent h
theorem keeps_reserveWay {s t : State} (h : Keeps s t) {a1 a2} : KeepsOP s (State.reserveWay t a1 a2) := by
  unfold State.reserveWay
  split
  · exact KeepsOP.some (KeepsP.mk h)
  · refine KeepsOP.mapP ?_ fun u5 h6 => ?_
    · exact keeps_makeRoom h
    · split
      exact KeepsP.mk h6
theorem keeps_installFill {s t : State} (h : Keeps s t) {a1 a2} : Keeps s (State.installFill t a1 a2) := by
  unfold State.installFill
  split
  · exact keeps_placeCopy h
  · exact keeps_placeCopy (keeps_modAgent h)
theorem keeps_runSnoops {s t : State} (h : Keeps s t) {a1 a2} : Keeps s (State.runSnoops t a1 a2) := by
  unfold State.runSnoops
  split
  · exact h
  · exact Keeps.foldl h fun _ _ h13 => keeps_takeResponse (keeps_performSnoop h13)
theorem keeps_homeTakes {s t : State} (h : Keeps s t) {a1 a2} : Keeps s (State.homeTakes t a1 a2) := by
  unfold State.homeTakes
  split
  · split
    · exact h
    · exact keeps_modAgent h
  · exact keeps_dramWriteLine h
theorem keeps_backInvalidate {s t : State} (h : Keeps s t) {a1 a2} : Keeps s (State.backInvalidate t a1 a2) := by
  unfold State.backInvalidate
  split
  · exact h
  · extract_lets +onlyGivenNames -merge x11
    have h12 : Keeps s x11 := keeps_reclaimNow h
    clear_value x11
    split
    · exact h12
    · extract_lets +onlyGivenNames -merge x17 x18
      have h19 : Keeps s x18 := keeps_runSnoops (keeps_acceptTxn h12)
      clear_value x18
      split
      · exact h19
      · exact keeps_count (keeps_modAgent (keeps_dropTxn (keeps_homeTakes h19)))
theorem keeps_dirRoom {s t : State} (h : Keeps s t) {a1 a2 a3 a4} : Keeps s (State.dirRoom t a1 a2 a3 a4) := by
  unfold State.dirRoom
  split
  · exact keeps_backInvalidate h
  · exact h
theorem keeps_runRead {s t : State} (h : Keeps s t) {a1 a2 a3 a4 a5} : KeepsOP s (State.runRead t a1 a2 a3 a4 a5) := by
  unfold State.runRead
  extract_lets +onlyGivenNames -merge x1
  split
  · exact KeepsOP.none
  · refine KeepsOP.bindP ?_ fun u6 h7 => ?_
    · exact keeps_reserveWay h
    · split
      extract_lets +onlyGivenNames -merge x14
      have h15 : Keeps s x14 := keeps_runSnoops (keeps_acceptTxn (keeps_dirRoom h7))
      clear_value x14
      split
      · exact KeepsOP.none
      · extract_lets +onlyGivenNames -merge x26
        have h27 : Keeps s x26 := keeps_homeComplete h15
        clear_value x26
        split
        · exact KeepsOP.none
        · extract_lets +onlyGivenNames -merge x38
          have h39 : Keeps s x38 := keeps_finishTxn h27
          clear_value x38
          refine KeepsOP.some ?_
          refine KeepsP.mk ?_
          split
          · exact h39
          · exact keeps_installFill h39
theorem keeps_collect {s t : State} (h : Keeps s t) {a1 a2} : Keeps s (State.collect t a1 a2) := by
  unfold State.collect
  extract_lets +onlyGivenNames -merge x1
  have h2 : Keeps s x1 := keeps_cleanHome h
  clear_value x1
  exact keeps_dramWriteLine h2
theorem keeps_runInvalidate {s t : State} (h : Keeps s t) {a1 a2 a3} : KeepsO s (State.runInvalidate t a1 a2 a3) := by
  unfold State.runInvalidate
  extract_lets +onlyGivenNames -merge x1
  split
  · exact KeepsO.none
  · extract_lets +onlyGivenNames -merge x6 x7
    have h8 : Keeps s x7 := keeps_runSnoops (keeps_acceptTxn h)
    clear_value x7
    split
    · exact KeepsO.none
    · extract_lets +onlyGivenNames -merge x19
      have h20 : Keeps s x19 := keeps_collect h8
      clear_value x19
      extract_lets +onlyGivenNames -merge x21
      have h22 : Keeps s x21 := keeps_modAgent h20
      clear_value x21
      exact KeepsO.some (keeps_count (keeps_dropTxn h22))
theorem keeps_writeLineBytes {s t : State} (h : Keeps s t) {a1 a2 a3} : Keeps s (State.writeLineBytes t a1 a2 a3) := by
  unfold State.writeLineBytes
  refine Keeps.foldl ?_ fun u1 z2 h3 => ?_
  · exact h
  · extract_lets +onlyGivenNames -merge x4
    split
    · exact h3
    · refine keeps_dramWrite ?_
      split
      · exact h3
      · exact keeps_meetUpset h3
theorem keeps_homeDead {s t : State} (h : Keeps s t) {a1 a2} : Keeps s (State.homeDead t a1 a2) := by
  unfold State.homeDead
  exact keeps_modAgent h
theorem keeps_runDead {s t : State} (h : Keeps s t) {a1 a2} : KeepsO s (State.runDead t a1 a2) := by
  unfold State.runDead
  extract_lets +onlyGivenNames -merge x1
  split
  · exact KeepsO.none
  · extract_lets +onlyGivenNames -merge x6
    exact KeepsO.some (keeps_count (keeps_dropTxn (keeps_homeDead (keeps_runSnoops (keeps_acceptTxn h)))))
theorem keeps_settleTxns {s t : State} (h : Keeps s t) {a1 a2} : Keeps s (State.settleTxns t a1 a2) := by
  unfold State.settleTxns
  refine Keeps.foldl ?_ fun u1 z2 h3 => ?_
  · exact h
  · split
    · exact h3
    · split
      · split
        · exact keeps_finishTxn h3
        · split
          · exact keeps_dropTxn (keeps_collect h3)
          · split
            · exact keeps_finishTxn h3
            · exact keeps_dropTxn h3
      · split
        · extract_lets +onlyGivenNames -merge x26
          have h27 : Keeps s x26 := by
            unfold x26
            split
            · exact keeps_reclaimLine h3
            · assumption
          clear_value x26
          exact keeps_setTxn h27
        · exact h3
theorem keeps_track {s t : State} (h : Keeps s t) {a1 a2 a3 a4} : KeepsP s (State.track t a1 a2 a3 a4) := by
  unfold State.track
  split
  · exact KeepsP.mk h
  · split
    exact KeepsP.mk (keeps_modAgent h)
theorem keeps_countLookup {s t : State} (h : Keeps s t) {a1 a2} : Keeps s (State.countLookup t a1 a2) := by
  unfold State.countLookup
  extract_lets +onlyGivenNames -merge x1
  split
  · split
    · exact h
    · exact keeps_count (keeps_count h)
  · exact keeps_count h
theorem keeps_lookup {s t : State} (h : Keeps s t) {a1 a2} : Keeps s (State.lookup t a1 a2) := by
  unfold State.lookup
  split
  · exact keeps_countLookup h
  · exact h
theorem keeps_touch {s t : State} (h : Keeps s t) {a1 a2 a3} : Keeps s (State.touch t a1 a2 a3) := by
  unfold State.touch
  exact keeps_placeCopy h
theorem keeps_readTomb {s t : State} (h : Keeps s t) {a1 a2} : KeepsO s (State.readTomb t a1 a2) := by
  unfold State.readTomb
  extract_lets +onlyGivenNames -merge x1
  exact KeepsO.map fun u2 => keeps_count (keeps_modAgent h)
theorem keeps_halfRead {s t : State} (h : Keeps s t) {a1 a2 a3 a4 a5 a6} : KeepsOP s (State.halfRead t a1 a2 a3 a4 a5 a6) := by
  unfold State.halfRead
  split
  · rename_i e6
    exact KeepsOP.some (KeepsP.mk (KeepsO.eq e6 (keeps_readTomb h)))
  · extract_lets +onlyGivenNames -merge x11
    have h12 : Keeps s x11 := keeps_lookup h
    clear_value x11
    extract_lets +onlyGivenNames -merge x13 x14 x15 x16 x17
    have h18 : KeepsOP s x17 := by
      unfold x17
      split
      · exact KeepsOP.some (KeepsP.mk h12)
      · refine KeepsOP.mapP ?_ fun u23 h24 => ?_
        · exact keeps_runRead h12
        · split
          refine KeepsP.mk ?_
          split
          · exact h24
          · exact keeps_count h24
    clear_value x17
    refine KeepsOP.bindP ?_ fun u35 h36 => ?_
    · exact h18
    · split
      extract_lets +onlyGivenNames -merge x45
      have h46 : KeepsO s x45 := by
        unfold x45
        split
        · exact KeepsO.mapP (keeps_runRead h36) fun u49 h50 => KeepsP.fst h50
        · refine KeepsO.some ?_
          split
          · split
            · exact h36
            · exact keeps_touch h36
          · exact h36
      clear_value x45
      refine KeepsOP.mapS ?_ fun u67 h68 => ?_
      · exact h46
      · split <;> exact KeepsP.mk h68
theorem keeps_clusterRead {s t : State} (h : Keeps s t) {a1 a2 a3 a4 a5} : KeepsOP s (State.clusterRead t a1 a2 a3 a4 a5) := by
  unfold State.clusterRead
  split
  · exact KeepsOP.some (KeepsP.mk h)
  · extract_lets +onlyGivenNames -merge x5
    split
    rename_i e13
    exact keeps_halfRead (KeepsP.eq e13 (keeps_track (keeps_reclaimNow h)))
theorem keeps_walkRead {s t : State} (h : Keeps s t) {a1 a2 a3} : KeepsOP s (State.walkRead t a1 a2 a3) := by
  unfold State.walkRead
  split
  · exact KeepsOP.some (KeepsP.mk h)
  · exact keeps_halfRead (keeps_reclaimNow h)
theorem keeps_clearTombs {s t : State} (h : Keeps s t) {a1} : Keeps s (State.clearTombs t a1) := by
  unfold State.clearTombs
  refine Keeps.foldl ?_ fun u1 z2 h3 => ?_
  · exact h
  · split
    · split
      · exact keeps_modAgent h3
      · exact h3
    · exact h3
theorem keeps_uncachedWrite {s t : State} (h : Keeps s t) {a1 a2 a3 a4} : KeepsO s (State.uncachedWrite t a1 a2 a3 a4) := by
  unfold State.uncachedWrite
  exact KeepsO.mapS (keeps_runInvalidate (keeps_clearTombs h)) fun u1 h2 => keeps_writeLineBytes h2
theorem keeps_ownedWrite {s t : State} (h : Keeps s t) {a1 a2 a3 a4 a5} : KeepsO s (State.ownedWrite t a1 a2 a3 a4 a5) := by
  unfold State.ownedWrite
  extract_lets +onlyGivenNames -merge x1 x2
  split
  · extract_lets +onlyGivenNames -merge x9
    split
    · split
      · unfold x2
        split
        · exact KeepsO.some (keeps_placeCopy h)
        · exact KeepsO.none
      · refine KeepsO.bindP ?_ fun u26 h27 => ?_
        · exact keeps_runRead h
        · split
          unfold x2
          split
          · exact KeepsO.some (keeps_placeCopy h27)
          · exact KeepsO.none
    · split
      · refine KeepsO.bindP ?_ fun u48 h49 => ?_
        · exact keeps_runRead h
        · split
          unfold x2
          split
          · exact KeepsO.some (keeps_placeCopy h49)
          · exact KeepsO.none
      · refine KeepsO.bindP ?_ fun u68 h69 => ?_
        · exact keeps_runRead h
        · split
          unfold x2
          split
          · exact KeepsO.some (keeps_placeCopy h69)
          · exact KeepsO.none
  · refine KeepsO.bindP ?_ fun u90 h91 => ?_
    · exact keeps_runRead h
    · split
      unfold x2
      split
      · exact KeepsO.some (keeps_placeCopy h91)
      · exact KeepsO.none
theorem keeps_cachedWrite {s t : State} (h : Keeps s t) {a1 a2 a3 a4 a5} : KeepsO s (State.cachedWrite t a1 a2 a3 a4 a5) := by
  unfold State.cachedWrite
  exact keeps_ownedWrite (keeps_clearTombs h)
theorem keeps_clusterWrite {s t : State} (h : Keeps s t) {a1 a2 a3 a4 a5 a6} : KeepsO s (State.clusterWrite t a1 a2 a3 a4 a5 a6) := by
  unfold State.clusterWrite
  split
  · exact KeepsO.some h
  · extract_lets +onlyGivenNames -merge x5 x6
    split
    rename_i e14
    extract_lets +onlyGivenNames -merge x15
    have h16 : Keeps s x15 := keeps_lookup (KeepsP.eq e14 (keeps_track (keeps_reclaimNow h)))
    clear_value x15
    extract_lets +onlyGivenNames -merge x17
    split
    · refine KeepsO.mapS ?_ fun u20 h21 => ?_
      · exact keeps_uncachedWrite h16
      · split
        · exact keeps_count h21
        · exact h21
    · exact keeps_cachedWrite h16
theorem keeps_homeAllocate {s t : State} (h : Keeps s t) {a1 a2 a3 a4} : Keeps s (State.homeAllocate t a1 a2 a3 a4) := by
  unfold State.homeAllocate
  extract_lets +onlyGivenNames -merge x1 x2 x3
  split
  · exact h
  · extract_lets +onlyGivenNames -merge x8
    split
    · exact keeps_placeCopy h
    · split
      · exact h
      · rename_i e30
        exact keeps_placeCopy (KeepsOP.eq e30 (keeps_makeRoom (keeps_modAgent h)))
theorem keeps_uncachedRead {s t : State} (h : Keeps s t) {a1 a2 a3} : KeepsOP s (State.uncachedRead t a1 a2 a3) := by
  unfold State.uncachedRead
  extract_lets +onlyGivenNames -merge x1
  split
  · exact KeepsOP.some (KeepsP.mk h)
  · extract_lets +onlyGivenNames -merge x6
    have h7 : Keeps s x6 := keeps_reclaimNow h
    clear_value x6
    split
    · rename_i e13
      exact KeepsOP.some (KeepsP.mk (KeepsO.eq e13 (keeps_readTomb h7)))
    · refine KeepsOP.mapP ?_ fun u18 h19 => ?_
      · exact keeps_runRead (keeps_lookup h7)
      · split
        extract_lets +onlyGivenNames -merge x26
        exact KeepsP.mk (keeps_homeAllocate h19)
theorem keeps_hubWrite {s t : State} (h : Keeps s t) {a1 a2 a3 a4} : KeepsO s (State.hubWrite t a1 a2 a3 a4) := by
  unfold State.hubWrite
  split
  · exact KeepsO.some h
  · extract_lets +onlyGivenNames -merge x5
    have h6 : Keeps s x5 := keeps_lookup (keeps_reclaimNow h)
    clear_value x5
    refine KeepsO.mapS ?_ fun u7 h8 => ?_
    · exact keeps_uncachedWrite h6
    · split
      exact keeps_homeAllocate h8
theorem keeps_coreRead {s t : State} (h : Keeps s t) {a1 a2 a3 a4} : KeepsOP s (State.coreRead t a1 a2 a3 a4) := by
  unfold State.coreRead
  split
  · exact KeepsOP.some (KeepsP.mk h)
  · extract_lets +onlyGivenNames -merge x5
    have h6 : Keeps s x5 := keeps_reclaimNow h
    clear_value x5
    split
    · rename_i e12
      exact KeepsOP.some (KeepsP.mk (KeepsO.eq e12 (keeps_readTomb h6)))
    · extract_lets +onlyGivenNames -merge x17 x18 x19 x20
      split
      · exact KeepsOP.some (KeepsP.mk h6)
      · refine KeepsOP.mapP ?_ fun u25 h26 => ?_
        · exact keeps_runRead (keeps_lookup h6)
        · split
          unfold x20
          extract_lets +onlyGivenNames -merge x33 x34
          exact KeepsP.mk (keeps_homeAllocate h26)
theorem keeps_coreWrite {s t : State} (h : Keeps s t) {a1 a2 a3 a4 a5} : KeepsO s (State.coreWrite t a1 a2 a3 a4 a5) := by
  unfold State.coreWrite
  split
  · exact KeepsO.some h
  · extract_lets +onlyGivenNames -merge x5
    have h6 : Keeps s x5 := keeps_reclaimNow h
    clear_value x5
    extract_lets +onlyGivenNames -merge x7
    split
    · exact keeps_hubWrite h6
    · refine keeps_cachedWrite ?_
      split
      · exact h6
      · exact keeps_lookup h6
theorem keeps_uncachedBytes {s t : State} (h : Keeps s t) {a1 a2 a3} : KeepsOP s (State.uncachedBytes t a1 a2 a3) := by
  unfold State.uncachedBytes
  split
  · exact KeepsOP.some (KeepsP.mk h)
  · extract_lets +onlyGivenNames -merge x11 x12 x13 x14
    refine KeepsOP.mapP ?_ fun u15 h16 => ?_
    · exact keeps_uncachedRead h
    · split
      exact KeepsP.mk h16
theorem keeps_hubReadRange {s t : State} (h : Keeps s t) {a1 a2 a3} : KeepsOP s (State.hubReadRange t a1 a2 a3) := by
  unfold State.hubReadRange
  refine KeepsOP.foldl ?_ fun u1 z2 h3 => ?_
  · exact KeepsOP.some (KeepsP.mk h)
  · split
    refine KeepsOP.bindP ?_ fun u10 h11 => ?_
    · exact h3
    · split
      refine KeepsOP.mapP ?_ fun u22 h23 => ?_
      · exact keeps_uncachedBytes h11
      · split
        exact KeepsP.mk h23
theorem keeps_hubWriteRange {s t : State} (h : Keeps s t) {a1 a2 a3} : KeepsO s (State.hubWriteRange t a1 a2 a3) := by
  unfold State.hubWriteRange
  refine KeepsO.foldl ?_ fun u1 z2 h3 => ?_
  · exact KeepsO.some h
  · split
    refine KeepsO.bindS ?_ fun u10 h11 => ?_
    · exact h3
    · split
      · exact KeepsO.some h11
      · extract_lets +onlyGivenNames -merge x22
        exact keeps_hubWrite h11
theorem keeps_countAdder {s t : State} (h : Keeps s t) {a1 a2 a3} : Keeps s (State.countAdder t a1 a2 a3) := by
  unfold State.countAdder
  extract_lets +onlyGivenNames -merge x1
  have h2 : Keeps s x1 := keeps_count h
  clear_value x1
  extract_lets +onlyGivenNames -merge x3
  have h4 : Keeps s x3 := by
    unfold x3
    split
    · exact h2
    · exact keeps_count (keeps_count h2)
  clear_value x3
  split
  · exact h4
  · exact keeps_count (keeps_count h4)
theorem keeps_readRange {s t : State} (h : Keeps s t) {a1 a2} : Keeps s (State.readRange t a1 a2) := by
  unfold State.readRange
  exact keeps_readSectors h
theorem keeps_memPatch {s t : State} (h : Keeps s t) {a1 a2} : Keeps s (State.memPatch t a1 a2) := by
  unfold State.memPatch
  exact keeps_writeLineBytes h
theorem keeps_adderApply {s t : State} (h : Keeps s t) {a1 a2 a3 a4 a5} : KeepsP s (State.adderApply t a1 a2 a3 a4 a5) := by
  unfold State.adderApply
  extract_lets +onlyGivenNames -merge x1 x2
  have h3 : Keeps s x2 := keeps_readRange (keeps_modAgent h)
  clear_value x2
  split
  · exact KeepsP.mk (keeps_count h3)
  · extract_lets +onlyGivenNames -merge x8
    split
    exact KeepsP.mk (keeps_countAdder (keeps_memPatch h3))
theorem keeps_adderAtomic {s t : State} (h : Keeps s t) {a1 a2 a3 a4 a5 a6} : KeepsOP s (State.adderAtomic t a1 a2 a3 a4 a5 a6) := by
  unfold State.adderAtomic
  split
  · exact KeepsOP.some (KeepsP.mk h)
  · split
    · exact KeepsOP.some (KeepsP.mk h)
    · extract_lets +onlyGivenNames -merge x9
      have h10 : Keeps s x9 := keeps_clearTombs (keeps_reclaimNow h)
      clear_value x9
      exact KeepsOP.mapS (keeps_runInvalidate h10) fun u11 h12 => keeps_adderApply h12
theorem keeps_reduceApply {s t : State} (h : Keeps s t) {a1 a2 a3 a4} : KeepsP s (State.reduceApply t a1 a2 a3 a4) := by
  unfold State.reduceApply
  extract_lets +onlyGivenNames -merge x1
  have h2 : Keeps s x1 := keeps_readRange (keeps_modAgent h)
  clear_value x1
  split
  · exact KeepsP.mk (keeps_count h2)
  · split
    exact KeepsP.mk (keeps_countAdder (keeps_memPatch h2))
theorem keeps_adderReduce {s t : State} (h : Keeps s t) {a1 a2 a3 a4 a5} : KeepsOP s (State.adderReduce t a1 a2 a3 a4 a5) := by
  unfold State.adderReduce
  split
  · exact KeepsOP.some (KeepsP.mk h)
  · split
    · exact KeepsOP.some (KeepsP.mk h)
    · extract_lets +onlyGivenNames -merge x9
      have h10 : Keeps s x9 := keeps_clearTombs (keeps_reclaimNow h)
      clear_value x9
      exact KeepsOP.mapS (keeps_runInvalidate h10) fun u11 h12 => keeps_reduceApply h12
theorem keeps_setFn {s t : State} (h : Keeps s t) {a1 a2 a3} : Keeps s (State.setFn t a1 a2 a3) := by
  unfold State.setFn
  exact Keeps.lit (t := t) h rfl rfl rfl
theorem keeps_modFn {s t : State} (h : Keeps s t) {a1 a2 a3} : Keeps s (State.modFn t a1 a2 a3) := by
  unfold State.modFn
  exact keeps_setFn h
theorem keeps_deliver {s t : State} (h : Keeps s t) {a1} : Keeps s (State.deliver t a1) := by
  unfold State.deliver
  extract_lets +onlyGivenNames -merge x1 x2 x3 x4 x5 x6
  split
  · refine keeps_send ?_
    exact Keeps.lit (t := t) h rfl rfl rfl
  · exact h
theorem keeps_raise {s t : State} (h : Keeps s t) {a1} : Keeps s (State.raise t a1) := by
  unfold State.raise
  refine keeps_deliver ?_
  exact Keeps.lit (t := t) h rfl rfl rfl
theorem keeps_deliverAll {s t : State} (h : Keeps s t) : Keeps s (State.deliverAll t) := by
  unfold State.deliverAll
  exact Keeps.foldl h fun _ _ h3 => keeps_deliver h3
theorem keeps_faultInterrupt {s t : State} (h : Keeps s t) {a1} : Keeps s (State.faultInterrupt t a1) := by
  unfold State.faultInterrupt
  split
  · exact keeps_raise h
  · exact h
theorem keeps_enqueueRecord {s t : State} (h : Keeps s t) {a1 a2} : KeepsO s (State.enqueueRecord t a1 a2) := by
  unfold State.enqueueRecord
  extract_lets +onlyGivenNames -merge x1
  refine KeepsO.mapS ?_ fun u2 h3 => ?_
  · exact keeps_hubWriteRange h
  · extract_lets +onlyGivenNames -merge x4
    have h5 : Keeps s x4 := keeps_modXl h3
    clear_value x4
    extract_lets +onlyGivenNames -merge x6
    have h7 : Keeps s x6 := by
      unfold x6
      split
      · exact keeps_count h5
      · exact h5
    clear_value x6
    extract_lets +onlyGivenNames -merge x12
    have h13 : Keeps s x12 := keeps_setCounter (keeps_count h7)
    clear_value x12
    split
    · exact keeps_faultInterrupt h13
    · exact h13
theorem keeps_drainWaiting {s t : State} (h : Keeps s t) {a1} : Keeps s (State.drainWaiting t a1) := by
  unfold State.drainWaiting
  refine KeepsP.fst ?_
  refine KeepsP.foldl ?_ fun u1 z2 h3 => ?_
  · exact KeepsP.mk h
  · extract_lets +onlyGivenNames -merge x4
    split
    · exact KeepsP.mk (KeepsP.fst h3)
    · split
      · rename_i e14
        exact KeepsP.mk (keeps_modXl (KeepsO.eq e14 (keeps_enqueueRecord (KeepsP.fst h3))))
      · exact KeepsP.mk (KeepsP.fst h3)
theorem keeps_drainRecords {s t : State} (h : Keeps s t) : Keeps s (State.drainRecords t) := by
  unfold State.drainRecords
  exact Keeps.foldl h fun _ _ h3 => keeps_drainWaiting h3
theorem keeps_loseRecord {s t : State} (h : Keeps s t) {a1 a2} : Keeps s (State.loseRecord t a1 a2) := by
  unfold State.loseRecord
  exact keeps_count (keeps_modXl h)
theorem keeps_setOverflow {s t : State} (h : Keeps s t) {a1} : Keeps s (State.setOverflow t a1) := by
  unfold State.setOverflow
  split
  · exact h
  · exact keeps_faultInterrupt (keeps_modXl h)
theorem keeps_recordFault {s t : State} (h : Keeps s t) {a1 a2 a3} : KeepsP s (State.recordFault t a1 a2 a3) := by
  unfold State.recordFault
  extract_lets +onlyGivenNames -merge x1 x2 x3 x4
  have h5 : Keeps s x4 := keeps_useFree (keeps_setDx h)
  clear_value x4
  extract_lets +onlyGivenNames -merge x6
  have h7 : Keeps s x6 := keeps_trace h5
  clear_value x6
  extract_lets +onlyGivenNames -merge x8
  have h9 : Keeps s x8 := by
    unfold x8
    split
    · exact keeps_count h7
    · split
      · exact keeps_count h7
      · exact h7
  clear_value x8
  extract_lets +onlyGivenNames -merge x18
  refine KeepsP.mk ?_
  split
  · exact keeps_loseRecord h9
  · split
    · refine keeps_setOverflow ?_
      split
      · exact keeps_modXl h9
      · exact keeps_loseRecord h9
    · exact keeps_drainWaiting (keeps_modXl h9)
theorem keeps_clearEngines {s t : State} (h : Keeps s t) {a1 a2} : Keeps s (State.clearEngines t a1 a2) := by
  unfold State.clearEngines
  extract_lets +onlyGivenNames -merge x1
  exact keeps_modCluster h
theorem keeps_setGroupEntry {s t : State} (h : Keeps s t) {a1 a2} : Keeps s (State.setGroupEntry t a1 a2) := by
  unfold State.setGroupEntry
  exact Keeps.lit (t := t) h rfl rfl rfl
theorem keeps_modGroupEntry {s t : State} (h : Keeps s t) {a1 a2} : Keeps s (State.modGroupEntry t a1 a2) := by
  unfold State.modGroupEntry
  exact keeps_setGroupEntry h
theorem keeps_bind {s t : State} (h : Keeps s t) {a1 a2} : Keeps s (State.bind t a1 a2) := by
  unfold State.bind
  exact Keeps.foldl h fun _ _ h3 => keeps_modGroupEntry h3
theorem keeps_unbind {s t : State} (h : Keeps s t) {a1} : Keeps s (State.unbind t a1) := by
  unfold State.unbind
  exact Keeps.foldl h fun _ _ h3 => keeps_modGroupEntry h3
theorem keeps_abortKernel {s t : State} (h : Keeps s t) {a1 a2} : Keeps s (State.abortKernel t a1 a2) := by
  unfold State.abortKernel
  split
  · exact h
  · split
    · exact h
    · extract_lets +onlyGivenNames -merge x15 x16 x17
      have h18 : Keeps s x17 := Keeps.foldl h fun _ _ h21 => keeps_clearEngines h21
      clear_value x17
      extract_lets +onlyGivenNames -merge x22 x23
      have h24 : Keeps s x23 := Keeps.lit (t := x17) h18 rfl rfl rfl
      clear_value x23
      extract_lets +onlyGivenNames -merge x25
      have h26 : Keeps s x25 := keeps_setKernel (keeps_unbind h24)
      clear_value x25
      exact keeps_count h26
theorem keeps_faultEvent {s t : State} (h : Keeps s t) {a1 a2} : Keeps s (State.faultEvent t a1 a2) := by
  unfold State.faultEvent
  split
  · exact keeps_event h
  · exact h
theorem keeps_takeFault {s t : State} (h : Keeps s t) {a1 a2 a3 a4} : Keeps s (State.takeFault t a1 a2 a3 a4) := by
  unfold State.takeFault
  extract_lets +onlyGivenNames -merge x1 x2 x3
  split
  rename_i e11
  split
  · extract_lets +onlyGivenNames -merge x14
    have h15 : Keeps s x14 := keeps_setGroup (KeepsP.eq e11 (keeps_recordFault (keeps_faultEvent h)))
    clear_value x14
    exact Keeps.lit (t := x14) h15 rfl rfl rfl
  · exact keeps_abortKernel (keeps_setGroup (KeepsP.eq e11 (keeps_recordFault (keeps_faultEvent h))))
theorem keeps_engineFault {s t : State} (h : Keeps s t) {a1 a2 a3 a4 a5} : KeepsP s (State.engineFault t a1 a2 a3 a4 a5) := by
  unfold State.engineFault
  split
  · exact KeepsP.mk h
  · extract_lets +onlyGivenNames -merge x11 x12 x13
    split
    rename_i v19 _ e21
    split
    · refine KeepsP.mk ?_
      exact Keeps.lit (t := v19) (KeepsP.eq e21 (keeps_recordFault (keeps_faultEvent h))) rfl rfl rfl
    · exact KeepsP.mk (keeps_abortKernel (keeps_setGroup (KeepsP.eq e21 (keeps_recordFault (keeps_faultEvent h)))))
theorem keeps_utlbPut {s t : State} (h : Keeps s t) {a1 a2} : Keeps s (State.utlbPut t a1 a2) := by
  unfold State.utlbPut
  exact keeps_modCluster h
theorem keeps_dtlbPut {s t : State} (h : Keeps s t) {a1 a2} : Keeps s (State.dtlbPut t a1 a2) := by
  unfold State.dtlbPut
  exact keeps_setDx h
theorem keeps_tlbDrop {s t : State} (h : Keeps s t) {a1 a2 a3 a4 a5} : Keeps s (State.tlbDrop t a1 a2 a3 a4 a5) := by
  unfold State.tlbDrop
  extract_lets +onlyGivenNames -merge x1 x2
  have h3 : Keeps s x2 := keeps_modCluster h
  clear_value x2
  exact keeps_setDx h3
theorem keeps_walkPut {s t : State} (h : Keeps s t) {a1 a2} : Keeps s (State.walkPut t a1 a2) := by
  unfold State.walkPut
  exact keeps_setDx h
theorem keeps_walk {s t : State} (h : Keeps s t) {a0 a2 a3 a4 a5 a6 a7 a8 a9 a10} :
    KeepsP s (State.walk a0 t a2 a3 a4 a5 a6 a7 a8 a9 a10) := by
  induction a0 generalizing t a6 a7 a10 with
  | zero => exact h
  | succ n ih =>
    simp only [State.walk]
    split
    · exact h
    · split
      · exact h
      · split
        · exact h
        · rename_i u r e
          have k : Keeps s u := KeepsOP.eq e (keeps_walkRead h)
          repeat' split
          all_goals first | exact k | exact ih (keeps_walkPut k)
theorem keeps_takeFailed {s t : State} (h : Keeps s t) {a1 a2 a3 a4} : KeepsO s (State.takeFailed t a1 a2 a3 a4) := by
  unfold State.takeFailed
  extract_lets +onlyGivenNames -merge x1
  split
  · refine KeepsO.some ?_
    exact Keeps.lit (t := t) h rfl rfl rfl
  · exact KeepsO.none
theorem keeps_askHost {s t : State} (h : Keeps s t) {a1 a2 a3 a4 a5 a6} : Keeps s (State.askHost t a1 a2 a3 a4 a5 a6) := by
  unfold State.askHost
  extract_lets +onlyGivenNames -merge x1 x2 x3 x4 x5
  split
  · exact Keeps.lit (t := t) h rfl rfl rfl
  · extract_lets +onlyGivenNames -merge x10 x11 x12 x13
    have h14 : Keeps s x13 := Keeps.lit (t := t) h rfl rfl rfl
    clear_value x13
    exact keeps_send (keeps_count h14)
theorem keeps_hostAccess {s t : State} (h : Keeps s t) {a1 a2 a3 a4 a5 a6 a7 a8} : KeepsP s (State.hostAccess t a1 a2 a3 a4 a5 a6 a7 a8) := by
  unfold State.hostAccess
  extract_lets +onlyGivenNames -merge x1 x2 x3 x4 x5 x6
  split
  · exact KeepsP.mk (keeps_utlbPut h)
  · split
    · exact KeepsP.mk (keeps_utlbPut h)
    · split
      · exact KeepsP.mk h
      · split
        · rename_i e36
          exact KeepsP.mk (KeepsO.eq e36 (keeps_takeFailed h))
        · exact KeepsP.mk (keeps_askHost h)
theorem keeps_useLeaf {s t : State} (h : Keeps s t) {a1 a2 a3 a4 a5 a6 a7 a8 a9 a10 a11} : KeepsP s (State.useLeaf t a1 a2 a3 a4 a5 a6 a7 a8 a9 a10 a11) := by
  unfold State.useLeaf
  extract_lets +onlyGivenNames -merge x1 x2 x3
  split
  · exact KeepsP.mk (keeps_tlbDrop h)
  · split
    · split
      · rename_i e27
        split <;> exact KeepsP.mk (KeepsP.eq e27 (keeps_hostAccess h))
      · exact keeps_hostAccess h
    · extract_lets +onlyGivenNames -merge x38
      split
      · split
        · exact KeepsP.mk h
        · split <;> exact KeepsP.mk h
      · split <;> exact KeepsP.mk h
theorem keeps_translateAs {s t : State} (h : Keeps s t) {a1 a2 a3 a4 a5 a6 a7} : KeepsP s (State.translateAs t a1 a2 a3 a4 a5 a6 a7) := by
  unfold State.translateAs
  extract_lets +onlyGivenNames -merge x1
  split
  · exact KeepsP.mk h
  · split
    · exact KeepsP.mk h
    · extract_lets +onlyGivenNames -merge x10 x11 x12
      split
      · exact keeps_useLeaf (keeps_utlbPut h)
      · split
        · exact keeps_useLeaf (keeps_utlbPut h)
        · extract_lets +onlyGivenNames -merge x33
          have h34 : Keeps s x33 := keeps_count (keeps_count h)
          clear_value x33
          extract_lets +onlyGivenNames -merge x35
          split
          split
          · rename_i e49
            exact KeepsP.mk (KeepsP.eq e49 (keeps_walk h34))
          · rename_i e57
            exact KeepsP.mk (KeepsP.eq e57 (keeps_walk h34))
          · rename_i e69
            exact KeepsP.mk (KeepsP.eq e69 (keeps_walk h34))
          · rename_i e81
            extract_lets +onlyGivenNames -merge x82
            split
            · rename_i e90
              exact KeepsP.mk (KeepsP.eq e90 (keeps_useLeaf (KeepsP.eq e81 (keeps_walk h34))))
            · rename_i e100
              extract_lets +onlyGivenNames -merge x101
              exact KeepsP.mk (keeps_utlbPut (keeps_dtlbPut (KeepsP.eq e100 (keeps_useLeaf (KeepsP.eq e81 (keeps_walk h34))))))
theorem keeps_translate {s t : State} (h : Keeps s t) {a1 a2 a3 a4 a5} : KeepsP s (State.translate t a1 a2 a3 a4 a5) := by
  unfold State.translate
  exact keeps_translateAs h
theorem keeps_stallIn {s t : State} (h : Keeps s t) {a1 a2 a3} : KeepsE s (State.stallIn t a1 a2 a3) := by
  unfold State.stallIn
  exact KeepsE.hold (keeps_setGroup h)
theorem keeps_meetScratch {s t : State} (h : Keeps s t) {a1 a2 a3} : KeepsP s (State.meetScratch t a1 a2 a3) := by
  unfold State.meetScratch
  split
  · rename_i e6
    exact KeepsP.mk (KeepsP.eq e6 (keeps_meetArrays h))
  · rename_i e16
    exact KeepsP.mk (KeepsP.eq e16 (keeps_meetArrays h))
theorem keeps_meetEntries {s t : State} (h : Keeps s t) {a1 a2 a3 a4 a5} : KeepsP s (State.meetEntries t a1 a2 a3 a4 a5) := by
  unfold State.meetEntries
  split
  · rename_i e6
    exact KeepsP.mk (KeepsP.eq e6 (keeps_meetArrays h))
  · rename_i e16
    exact KeepsP.mk (KeepsP.eq e16 (keeps_meetArrays h))
theorem keeps_fetchCheck {s t : State} (h : Keeps s t) {a1 a2 a3} : KeepsP s (State.fetchCheck t a1 a2 a3) := by
  unfold State.fetchCheck
  extract_lets +onlyGivenNames -merge x1 x2
  split
  · exact KeepsP.mk h
  · split
    · rename_i e18
      split
      · extract_lets +onlyGivenNames -merge x25 x26
        split <;> exact KeepsP.mk (KeepsP.eq e18 (keeps_translate h))
      · exact KeepsP.mk (KeepsP.eq e18 (keeps_translate h))
    · exact keeps_translate h
theorem keeps_issue {s t : State} (h : Keeps s t) {a1 a2 a3 a4 a5 a6 a7 a8 a9}
    (k : ∀ u g x n, Keeps s u → KeepsE s (a9 u g x n)) : Keeps s (State.issue t a1 a2 a3 a4 a5 a6 a7 a8 a9) := by
  unfold State.issue
  extract_lets gk word
  split
  · exact h
  · rename_i g kn _
    have hf : KeepsP s (State.fetchCheck t gk g kn) := keeps_fetchCheck h
    split
    · rename_i e
      have hu := KeepsP.eq e hf
      exact keeps_takeFault (keeps_useFree hu)
    · rename_i e
      exact keeps_setGroup (KeepsP.eq e hf)
    · rename_i e
      exact KeepsP.eq e hf
    · rename_i e
      have hu := KeepsP.eq e hf
      split
      · split
        · exact h
        · exact keeps_takeFault hu
      · split
        · exact keeps_takeFault hu
        · split
          · exact keeps_takeFault hu
          · split
            · exact keeps_takeFault hu
            · split
              · exact keeps_takeFault hu
              · have hm := keeps_meetEntries hu (a1 := .registers) (a2 := gk) (a3 := 6) (a4 := 0) (a5 := (a5.reads a2 a3 a4).contains)
                split
                · rename_i e
                  exact keeps_takeFault (KeepsP.eq e hm)
                · rename_i e
                  have hr := k _ gk g kn (KeepsP.eq e hm)
                  split
                  · rename_i e
                    exact KeepsE.eqDone e hr
                  · rename_i e
                    exact keeps_takeFault (KeepsE.eqFault e hr)
                  · rename_i e
                    exact KeepsE.eqHold e hr
theorem keeps_issueGroup {s t : State} (h : Keeps s t) {a1 a2 a3 a4 a5 a6} : Keeps s (State.issueGroup t a1 a2 a3 a4 a5 a6) := by
  unfold State.issueGroup
  refine keeps_issue h fun u g x n k => ?_
  split
  · exact keeps_setGroup k
  · exact k

end Sys2Proof.Laws
end

