-- ==== Sys2Proof/Laws/KeepsUnits.lean ====
section
/-! SUPPORT. What every operation keeps (Laws/Keeps.lean): power, network, host, repair and register units. -/
namespace Sys2Proof.Laws
open Sys2Proof.Machine

theorem keeps_setHalf {s t : State} (h : Keeps s t) {a1 a2} : Keeps s (State.setHalf t a1 a2) := by
  unfold State.setHalf
  exact Keeps.lit (t := t) h rfl rfl rfl
theorem keeps_modHalf {s t : State} (h : Keeps s t) {a1 a2} : Keeps s (State.modHalf t a1 a2) := by
  unfold State.modHalf
  exact keeps_setHalf h
theorem keeps_modDpow {s t : State} (h : Keeps s t) {a1 a2} : Keeps s (State.modDpow t a1 a2) := by
  unfold State.modDpow
  exact Keeps.lit (t := t) h rfl rfl rfl
theorem keeps_markCap {s t : State} (h : Keeps s t) {a1 a2} : Keeps s (State.markCap t a1 a2) := by
  unfold State.markCap
  extract_lets +onlyGivenNames -merge x1
  exact Keeps.lit (t := t) h rfl rfl rfl
theorem keeps_powerSettle {s t : State} (h : Keeps s t) : Keeps s (State.powerSettle t) := by
  unfold State.powerSettle
  extract_lets +onlyGivenNames -merge x1
  have h2 : Keeps s x1 := by
    unfold x1
    refine Keeps.foldl ?_ fun u3 z4 h5 => ?_
    · exact h
    · split
      · exact keeps_count (keeps_markCap h5)
      · exact h5
  clear_value x1
  refine Keeps.foldl ?_ fun u10 z11 h12 => ?_
  · exact h2
  · split
    · assumption
    · extract_lets +onlyGivenNames -merge x23
      split
      · exact keeps_count (keeps_modKernel h12)
      · assumption
theorem keeps_controlCaps {s t : State} (h : Keeps s t) {a1} : Keeps s (State.controlCaps t a1) := by
  unfold State.controlCaps
  extract_lets +onlyGivenNames -merge x1 x2 x3 x4
  have h5 : Keeps s x4 := by
    unfold x4
    refine Keeps.foldl ?_ fun u6 z7 h8 => ?_
    · exact h
    · extract_lets +onlyGivenNames -merge x9
      exact keeps_modHalf h8
  clear_value x4
  refine Keeps.foldl ?_ fun u10 z11 h12 => ?_
  · exact h5
  · extract_lets +onlyGivenNames -merge x13
    exact keeps_modDpow h12
theorem keeps_controlHalf {s t : State} (h : Keeps s t) {a1 a2} : Keeps s (State.controlHalf t a1 a2) := by
  unfold State.controlHalf
  extract_lets +onlyGivenNames -merge x1 x2 x3 x4 x5
  exact keeps_modHalf h
theorem keeps_execControlPeriod {s t : State} (h : Keeps s t) {a0} : KeepsA s (execControlPeriod a0 t) := by
  unfold execControlPeriod
  extract_lets +onlyGivenNames -merge x1
  have h2 : Keeps s x1 := keeps_controlCaps h
  clear_value x1
  extract_lets +onlyGivenNames -merge x3
  have h4 : Keeps s x3 := Keeps.foldl h2 fun _ _ h7 => keeps_controlHalf h7
  clear_value x3
  refine KeepsA.next ?_
  refine keeps_powerSettle ?_
  exact Keeps.lit (t := x3) h4 rfl rfl rfl
theorem keeps_execLimiterPeriod {s t : State} (h : Keeps s t) {a0 a1 a2} : KeepsA s (execLimiterPeriod a0 a1 a2 t) := by
  unfold execLimiterPeriod
  extract_lets +onlyGivenNames -merge x1 x2 x3
  have h4 : Keeps s x3 := keeps_modHalf h
  clear_value x3
  extract_lets +onlyGivenNames -merge x5
  have h6 : Keeps s x5 := keeps_count h4
  clear_value x5
  extract_lets +onlyGivenNames -merge x7
  have h8 : Keeps s x7 := by
    unfold x7
    split
    · exact h4
    · exact Keeps.lit (t := x5) h6 rfl rfl rfl
  clear_value x7
  exact KeepsA.next (keeps_powerSettle h8)
theorem keeps_execTelemetryRecord {s t : State} (h : Keeps s t) {a0 a1} : KeepsA s (execTelemetryRecord a0 a1 t) := by
  unfold execTelemetryRecord
  exact KeepsA.next (keeps_modDpow h)
theorem keeps_execTelemetryMissing {s t : State} (h : Keeps s t) {a0} : KeepsA s (execTelemetryMissing a0 t) := by
  unfold execTelemetryMissing
  exact KeepsA.next (keeps_event (keeps_modDpow h))
theorem keeps_execPowerManagerCommand {s t : State} (h : Keeps s t) {a0 a1} : KeepsA s (execPowerManagerCommand a0 a1 t) := by
  unfold execPowerManagerCommand
  extract_lets +onlyGivenNames -merge x1
  refine KeepsA.next ?_
  split
  · exact h
  · extract_lets +onlyGivenNames -merge x6
    have h7 : Keeps s x6 := keeps_modDpow h
    clear_value x6
    extract_lets +onlyGivenNames -merge x8 x9
    have h10 : Keeps s x9 := by
      unfold x9
      split
      · unfold x8
        exact keeps_modHalf (keeps_modHalf h7)
      · exact h7
    clear_value x9
    exact keeps_powerSettle h10
theorem keeps_execDieFallback {s t : State} (h : Keeps s t) {a0} : KeepsA s (execDieFallback a0 t) := by
  unfold execDieFallback
  refine KeepsA.next ?_
  split
  · exact keeps_powerSettle (keeps_modDpow h)
  · exact h
theorem keeps_execManagerTakeover {s t : State} (h : Keeps s t) : KeepsA s (execManagerTakeover t) := by
  unfold execManagerTakeover
  refine KeepsA.next ?_
  split
  · exact h
  · refine keeps_event ?_
    refine keeps_count ?_
    exact Keeps.lit (t := t) h rfl rfl rfl
theorem keeps_execPwrAlertAssert {s t : State} (h : Keeps s t) : KeepsA s (execPwrAlertAssert t) := by
  unfold execPwrAlertAssert
  refine KeepsA.next ?_
  split
  · exact h
  · extract_lets +onlyGivenNames -merge x5 x6
    have h7 : Keeps s x6 := Keeps.lit (t := t) h rfl rfl rfl
    clear_value x6
    split
    · exact keeps_powerSettle (keeps_count h7)
    · exact h7
theorem keeps_execPwrAlertRelease {s t : State} (h : Keeps s t) : KeepsA s (execPwrAlertRelease t) := by
  unfold execPwrAlertRelease
  refine KeepsA.next ?_
  split
  · exact Keeps.lit (t := t) h rfl rfl rfl
  · exact h
theorem keeps_execAlertHoldExpiry {s t : State} (h : Keeps s t) : KeepsA s (execAlertHoldExpiry t) := by
  unfold execAlertHoldExpiry
  refine KeepsA.next ?_
  split
  · extract_lets +onlyGivenNames -merge x3 x4
    have h5 : Keeps s x4 := Keeps.lit (t := t) h rfl rfl rfl
    clear_value x4
    exact keeps_powerSettle (Keeps.foldl h5 fun _ _ h8 => keeps_modHalf h8)
  · exact h
theorem keeps_execCapDisengage {s t : State} (h : Keeps s t) {a0} : KeepsA s (execCapDisengage a0 t) := by
  unfold execCapDisengage
  refine KeepsA.next ?_
  split
  · exact keeps_markCap h
  · exact h
theorem keeps_recCheck {s t : State} (h : Keeps s t) {a1} : Keeps s (State.recCheck t a1) := by
  unfold State.recCheck
  extract_lets +onlyGivenNames -merge x1
  split
  · exact Keeps.lit (t := t) h rfl rfl rfl
  · refine keeps_count ?_
    exact Keeps.lit (t := t) h rfl rfl rfl
theorem keeps_recGo {s t : State} (h : Keeps s t) : Keeps s (State.recGo t) := by
  unfold State.recGo
  split
  · exact keeps_recCheck h
  · exact h
theorem keeps_setFlow {s t : State} (h : Keeps s t) {a1 a2} : Keeps s (State.setFlow t a1 a2) := by
  unfold State.setFlow
  exact Keeps.lit (t := t) h rfl rfl rfl
theorem keeps_modFlow {s t : State} (h : Keeps s t) {a1 a2} : Keeps s (State.modFlow t a1 a2) := by
  unfold State.modFlow
  exact keeps_setFlow h
theorem keeps_setSubport {s t : State} (h : Keeps s t) {a1 a2} : Keeps s (State.setSubport t a1 a2) := by
  unfold State.setSubport
  exact Keeps.lit (t := t) h rfl rfl rfl
theorem keeps_modSubport {s t : State} (h : Keeps s t) {a1 a2} : Keeps s (State.modSubport t a1 a2) := by
  unfold State.modSubport
  exact keeps_setSubport h
theorem keeps_drainPort {s t : State} (h : Keeps s t) {a1} : Keeps s (State.drainPort t a1) := by
  unfold State.drainPort
  extract_lets +onlyGivenNames -merge x1
  split
  · exact h
  · exact keeps_setSubport (keeps_useFree h)
theorem keeps_readyPorts {s t : State} (h : Keeps s t) {a1} : KeepsP s (State.readyPorts t a1) := by
  unfold State.readyPorts
  extract_lets +onlyGivenNames -merge x1 x2
  have h3 : Keeps s x2 := Keeps.foldl h fun _ _ h6 => keeps_drainPort h6
  clear_value x2
  exact KeepsP.mk h3
theorem keeps_queueFrame {s t : State} (h : Keeps s t) {a1 a2} : Keeps s (State.queueFrame t a1 a2) := by
  unfold State.queueFrame
  extract_lets +onlyGivenNames -merge x1 x2
  exact keeps_send (keeps_modSubport h)
theorem keeps_emit {s t : State} (h : Keeps s t) {a1 a2 a3 a4 a5 a6} : Keeps s (State.emit t a1 a2 a3 a4 a5 a6) := by
  unfold State.emit
  extract_lets +onlyGivenNames -merge x1 x2
  exact keeps_queueFrame (keeps_count h)
theorem keeps_sendPacket {s t : State} (h : Keeps s t) {a1 a2} : Keeps s (State.sendPacket t a1 a2) := by
  unfold State.sendPacket
  extract_lets +onlyGivenNames -merge x1
  split
  rename_i e9
  split
  · exact KeepsP.eq e9 (keeps_readyPorts h)
  · exact keeps_emit (keeps_setFlow (KeepsP.eq e9 (keeps_readyPorts h)))
theorem keeps_resend {s t : State} (h : Keeps s t) {a1 a2 a3} : Keeps s (State.resend t a1 a2 a3) := by
  unfold State.resend
  split
  rename_i e8
  split
  · exact KeepsP.eq e8 (keeps_readyPorts h)
  · exact keeps_emit (keeps_count (keeps_modFlow (KeepsP.eq e8 (keeps_readyPorts h))))
theorem keeps_moveQueue {s t : State} (h : Keeps s t) {a1} : Keeps s (State.moveQueue t a1) := by
  unfold State.moveQueue
  extract_lets +onlyGivenNames -merge x1
  split
  rename_i e9
  refine keeps_modSubport ?_
  refine KeepsP.eq e9 ?_
  refine KeepsP.foldl ?_ fun u10 z11 h12 => ?_
  · exact KeepsP.mk (keeps_modSubport h)
  · unfold State.moveFrame
    split
    extract_lets +onlyGivenNames -merge x19
    split
    · exact h12
    · split
      rename_i e31
      split
      · exact KeepsP.mk (KeepsP.eq e31 (keeps_readyPorts h12))
      · extract_lets +onlyGivenNames -merge x44 x45
        exact KeepsP.mk (keeps_queueFrame (keeps_setFlow (KeepsP.eq e31 (keeps_readyPorts h12))))
theorem keeps_pump {s t : State} (h : Keeps s t) {a1} : Keeps s (State.pump t a1) := by
  unfold State.pump
  refine Keeps.foldl ?_ fun u1 z2 h3 => ?_
  · exact h
  · split
    · exact keeps_sendPacket h3
    · exact h3
theorem keeps_pumpAll {s t : State} (h : Keeps s t) : Keeps s (State.pumpAll t) := by
  unfold State.pumpAll
  extract_lets +onlyGivenNames -merge x1
  have h2 : Keeps s x1 := Keeps.foldl h fun _ _ h5 => keeps_moveQueue h5
  clear_value x1
  exact Keeps.foldl h2 fun _ _ h8 => keeps_pump h8
theorem keeps_enqueuePacket {s t : State} (h : Keeps s t) {a1 a2 a3 a4 a5 a6 a7 a8 a9 a10 a11} : Keeps s (State.enqueuePacket t a1 a2 a3 a4 a5 a6 a7 a8 a9 a10 a11) := by
  unfold State.enqueuePacket
  extract_lets +onlyGivenNames -merge x1 x2 x3 x4
  exact keeps_setFlow h
theorem keeps_sendAck {s t : State} (h : Keeps s t) {a1} : Keeps s (State.sendAck t a1) := by
  unfold State.sendAck
  extract_lets +onlyGivenNames -merge x1 x2 x3
  split
  rename_i e11
  split
  · exact KeepsP.eq e11 (keeps_readyPorts h)
  · extract_lets +onlyGivenNames -merge x24
    exact keeps_emit (keeps_setFlow (KeepsP.eq e11 (keeps_readyPorts h)))
theorem keeps_remoteIncomplete {s t : State} (h : Keeps s t) {a1 a2 a3 a4} : Keeps s (State.remoteIncomplete t a1 a2 a3 a4) := by
  unfold State.remoteIncomplete
  split
  · exact h
  · split
    · exact h
    · exact keeps_abortKernel (KeepsP.fst (keeps_recordFault h))
theorem keeps_fillArrives {s t : State} (h : Keeps s t) {a1 a2 a3} : Keeps s (State.fillArrives t a1 a2 a3) := by
  unfold State.fillArrives
  exact keeps_modCluster h
theorem keeps_xferArrives {s t : State} (h : Keeps s t) {a1 a2 a3 a4 a5} : Keeps s (State.xferArrives t a1 a2 a3 a4 a5) := by
  unfold State.xferArrives
  exact keeps_modCluster h
theorem keeps_coreFault {s t : State} (h : Keeps s t) {a1 a2 a3} : Keeps s (State.coreFault t a1 a2 a3) := by
  unfold State.coreFault
  extract_lets +onlyGivenNames -merge x1 x2
  have h3 : Keeps s x2 := Keeps.lit (t := t) h rfl rfl rfl
  clear_value x2
  split
  · exact keeps_event h3
  · exact h3
theorem keeps_failUser {s t : State} (h : Keeps s t) {a1 a2 a3 a4} : Keeps s (State.failUser t a1 a2 a3 a4) := by
  unfold State.failUser
  split
  · exact keeps_modKernel h
  · exact keeps_fillArrives h
  · exact keeps_xferArrives h
  · split
    · split
      · extract_lets +onlyGivenNames -merge x45
        exact keeps_takeFault h
      · exact h
    · exact h
  · extract_lets +onlyGivenNames -merge x62
    split
    · exact h
    · extract_lets +onlyGivenNames -merge x67 x68
      have h69 : Keeps s x68 := Keeps.lit (t := t) h rfl rfl rfl
      clear_value x68
      extract_lets +onlyGivenNames -merge x70
      have h71 : Keeps s x70 := keeps_raise (keeps_count h69)
      clear_value x70
      split
      · exact keeps_remoteIncomplete h71
      · exact h71
  · exact keeps_modKernel h
  · exact keeps_modKernel h
  · exact Keeps.lit (t := t) h rfl rfl rfl
  · exact keeps_coreFault h
  · exact h
theorem keeps_finishUser {s t : State} (h : Keeps s t) {a1 a2} : Keeps s (State.finishUser t a1 a2) := by
  unfold State.finishUser
  split
  · exact Keeps.lit (t := t) h rfl rfl rfl
  · exact h
theorem keeps_dropOp {s t : State} (h : Keeps s t) {a1} : Keeps s (State.dropOp t a1) := by
  unfold State.dropOp
  exact Keeps.lit (t := t) h rfl rfl rfl
theorem keeps_failOp {s t : State} (h : Keeps s t) {a1 a2 a3} : Keeps s (State.failOp t a1 a2 a3) := by
  unfold State.failOp
  extract_lets +onlyGivenNames -merge x1
  have h2 : Keeps s x1 := keeps_modFlow (keeps_dropOp h)
  clear_value x1
  extract_lets +onlyGivenNames -merge x3
  have h4 : Keeps s x3 := by
    unfold x3
    split
    · exact h2
    · exact keeps_modGroupEntry h2
  clear_value x3
  exact keeps_failUser (keeps_count h4)
theorem keeps_startOp {s t : State} (h : Keeps s t) {a1 a2 a3 a4} : Keeps s (State.startOp t a1 a2 a3 a4) := by
  unfold State.startOp
  extract_lets +onlyGivenNames -merge x1 x2 x3
  have h4 : Keeps s x3 := Keeps.lit (t := t) h rfl rfl rfl
  clear_value x3
  extract_lets +onlyGivenNames -merge x5
  split
  · exact keeps_failOp h4
  · extract_lets +onlyGivenNames -merge x10 x11 x12
    have h13 : Keeps s x12 := Keeps.lit (t := x3) h4 rfl rfl rfl
    clear_value x12
    extract_lets +onlyGivenNames -merge x14
    have h15 : Keeps s x14 := by
      unfold x14
      refine Keeps.foldl ?_ fun u16 z17 h18 => ?_
      · exact h13
      · split
        exact keeps_enqueuePacket h18
    clear_value x14
    exact keeps_pump h15
theorem keeps_respond {s t : State} (h : Keeps s t) {a1 a2 a3 a4} : Keeps s (State.respond t a1 a2 a3 a4) := by
  unfold State.respond
  exact keeps_pump (keeps_enqueuePacket h)
theorem keeps_closeGroup {s t : State} (h : Keeps s t) {a1} : Keeps s (State.closeGroup t a1) := by
  unfold State.closeGroup
  extract_lets +onlyGivenNames -merge x1 x2
  have h3 : Keeps s x2 := Keeps.foldl h fun _ _ h6 => keeps_failOp h6
  clear_value x2
  extract_lets +onlyGivenNames -merge x7 x8
  have h9 : Keeps s x8 := Keeps.lit (t := x2) h3 rfl rfl rfl
  clear_value x8
  exact keeps_modGroupEntry h9
theorem keeps_settleClosing {s t : State} (h : Keeps s t) {a1} : Keeps s (State.settleClosing t a1) := by
  unfold State.settleClosing
  split
  · exact keeps_closeGroup h
  · exact h
theorem keeps_windowPut {s t : State} (h : Keeps s t) {a1 a2 a3 a4 a5 a6 a7} : Keeps s (State.windowPut t a1 a2 a3 a4 a5 a6 a7) := by
  unfold State.windowPut
  refine Keeps.foldl ?_ fun u1 z2 h3 => ?_
  · exact h
  · split
    split
    exact keeps_startOp h3
theorem keeps_windowGet {s t : State} (h : Keeps s t) {a1 a2 a3 a4} : Keeps s (State.windowGet t a1 a2 a3 a4) := by
  unfold State.windowGet
  split
  exact keeps_startOp h
theorem keeps_windowAtomic {s t : State} (h : Keeps s t) {a1 a2 a3 a4 a5 a6 a7} : Keeps s (State.windowAtomic t a1 a2 a3 a4 a5 a6 a7) := by
  unfold State.windowAtomic
  split
  exact keeps_startOp h
theorem keeps_setQueue {s t : State} (h : Keeps s t) {a1 a2} : Keeps s (State.setQueue t a1 a2) := by
  unfold State.setQueue
  exact Keeps.lit (t := t) h rfl rfl rfl
theorem keeps_modQueue {s t : State} (h : Keeps s t) {a1 a2} : Keeps s (State.modQueue t a1 a2) := by
  unfold State.modQueue
  exact keeps_setQueue h
theorem keeps_setSession {s t : State} (h : Keeps s t) {a1 a2 a3} : Keeps s (State.setSession t a1 a2 a3) := by
  unfold State.setSession
  extract_lets +onlyGivenNames -merge x1 x2
  have h3 : Keeps s x2 := keeps_modFn h
  clear_value x2
  split
  · exact h3
  · exact Keeps.foldl h3 fun _ _ h10 => keeps_raise h10
theorem keeps_sessionRefused {s t : State} (h : Keeps s t) {a1 a2} : Keeps s (State.sessionRefused t a1 a2) := by
  unfold State.sessionRefused
  exact keeps_modFn h
theorem keeps_sessionCtl {s t : State} (h : Keeps s t) {a1 a2} : Keeps s (State.sessionCtl t a1 a2) := by
  unfold State.sessionCtl
  extract_lets f openNew
  have ho : ∀ u, Keeps s u → Keeps s (openNew u) := by
    intro u k
    unfold openNew
    extract_lets id src v w
    have hv : Keeps s v := Keeps.lit k rfl rfl rfl
    clear_value v
    have hw : Keeps s w := Keeps.foldl hv fun _ _ m => keeps_modQueue m
    clear_value w
    exact keeps_setSession (keeps_modFn hw)
  clear_value openNew
  split
  · exact h
  · split
    · split
      · exact keeps_sessionRefused h
      · split
        · exact keeps_sessionRefused h
        · exact ho _ h
    · split
      · exact keeps_sessionRefused h
      · split
        · exact keeps_sessionRefused h
        · exact keeps_setSession (keeps_count h)
    · split
      · exact keeps_sessionRefused h
      · exact keeps_setSession (keeps_modFn h)
    · split
      · exact keeps_sessionRefused h
      · exact ho _ (Keeps.foldl h fun _ _ k => keeps_abortKernel (keeps_modKernel k))
    · exact h
theorem keeps_writeRoute {s t : State} (h : Keeps s t) {a1 a2} : Keeps s (State.writeRoute t a1 a2) := by
  unfold State.writeRoute
  refine keeps_deliver ?_
  exact Keeps.lit (t := t) h rfl rfl rfl
theorem keeps_intSend {s t : State} (h : Keeps s t) {a1} : Keeps s (State.intSend t a1) := by
  unfold State.intSend
  split
  · exact keeps_raise h
  · exact h
theorem keeps_claim {s t : State} (h : Keeps s t) {a1} : KeepsP s (State.claim t a1) := by
  unfold State.claim
  split
  · refine KeepsP.mk ?_
    exact Keeps.lit (t := t) h rfl rfl rfl
  · exact KeepsP.mk h
theorem keeps_modHart {s t : State} (h : Keeps s t) {a1 a2} : Keeps s (State.modHart t a1 a2) := by
  unfold State.modHart
  exact Keeps.lit (t := t) h rfl rfl rfl
theorem keeps_hartStart {s t : State} (h : Keeps s t) {a1 a2 a3} : Keeps s (State.hartStart t a1 a2 a3) := by
  unfold State.hartStart
  split
  · split
    · exact h
    · exact keeps_modHart h
  · split
    · exact h
    · exact keeps_modHart h
theorem keeps_tallyInc {s t : State} (h : Keeps s t) {a1 a2 a3} : Keeps s (State.tallyInc t a1 a2 a3) := by
  unfold State.tallyInc
  exact keeps_setTally h
theorem keeps_tallyAddReg {s t : State} (h : Keeps s t) {a1 a2 a3} : Keeps s (State.tallyAddReg t a1 a2 a3) := by
  unfold State.tallyAddReg
  split
  · exact keeps_tallyInc h
  · exact keeps_count h
theorem keeps_hostWrite {s t : State} (h : Keeps s t) {a1 a2 a3 a4 a5} : Keeps s (State.hostWrite t a1 a2 a3 a4 a5) := by
  unfold State.hostWrite
  split
  · exact keeps_send h
  · exact keeps_count h
theorem keeps_hostArrives {s t : State} (h : Keeps s t) {a1 a2 a3} : Keeps s (State.hostArrives t a1 a2 a3) := by
  unfold State.hostArrives
  split
  · exact keeps_fillArrives h
  · exact keeps_xferArrives h
  · split
    · exact keeps_coreFault h
    · exact keeps_send (keeps_modHart h)
  · split
    · exact Keeps.lit (t := t) h rfl rfl rfl
    · exact h
  · exact h
theorem keeps_sendRead {s t : State} (h : Keeps s t) {a1} : Keeps s (State.sendRead t a1) := by
  unfold State.sendRead
  exact keeps_send h
theorem keeps_hostRead {s t : State} (h : Keeps s t) {a1 a2 a3 a4 a5 a6} : Keeps s (State.hostRead t a1 a2 a3 a4 a5 a6) := by
  unfold State.hostRead
  split
  · extract_lets +onlyGivenNames -merge x3 x4 x5 x6
    have h7 : Keeps s x6 := Keeps.lit (t := t) h rfl rfl rfl
    clear_value x6
    split
    · exact keeps_sendRead h7
    · exact h7
  · exact keeps_hostArrives h
theorem keeps_nextRead {s t : State} (h : Keeps s t) {a1} : Keeps s (State.nextRead t a1) := by
  unfold State.nextRead
  split
  · split
    · extract_lets +onlyGivenNames -merge x9
      refine keeps_sendRead ?_
      exact Keeps.lit (t := t) h rfl rfl rfl
    · exact h
  · exact h
theorem keeps_writeFqBase {s t : State} (h : Keeps s t) {a1 a2} : Keeps s (State.writeFqBase t a1 a2) := by
  unfold State.writeFqBase
  split
  · exact h
  · exact keeps_modXl h
theorem keeps_writeFqSize {s t : State} (h : Keeps s t) {a1 a2} : Keeps s (State.writeFqSize t a1 a2) := by
  unfold State.writeFqSize
  split
  · exact h
  · exact keeps_modXl h
theorem keeps_writeFqHead {s t : State} (h : Keeps s t) {a1 a2} : Keeps s (State.writeFqHead t a1 a2) := by
  unfold State.writeFqHead
  split
  · exact h
  · exact keeps_drainWaiting (keeps_modXl h)
theorem keeps_writeFqCtl {s t : State} (h : Keeps s t) {a1 a2 a3} : Keeps s (State.writeFqCtl t a1 a2 a3) := by
  unfold State.writeFqCtl
  exact keeps_drainWaiting (keeps_modXl h)
theorem keeps_readFqLost {s t : State} (h : Keeps s t) {a1 a2} : KeepsP s (State.readFqLost t a1 a2) := by
  unfold State.readFqLost
  exact KeepsP.mk (keeps_modXl h)
theorem keeps_writeCtxRoot {s t : State} (h : Keeps s t) {a1 a2 a3} : Keeps s (State.writeCtxRoot t a1 a2 a3) := by
  unfold State.writeCtxRoot
  split
  · exact h
  · exact keeps_modXl h
theorem keeps_writeCtxId {s t : State} (h : Keeps s t) {a1 a2 a3} : Keeps s (State.writeCtxId t a1 a2 a3) := by
  unfold State.writeCtxId
  extract_lets +onlyGivenNames -merge x1 x2 x3
  split
  · split
    · exact h
    · unfold x3
      exact keeps_modXl h
  · split
    · exact h
    · unfold x3
      exact keeps_modXl h
theorem keeps_writeInvCtl {s t : State} (h : Keeps s t) {a1 a2} : Keeps s (State.writeInvCtl t a1 a2) := by
  unfold State.writeInvCtl
  extract_lets +onlyGivenNames -merge x1 x2 x3
  split <;> exact keeps_setXl h
theorem keeps_reask {s t : State} (h : Keeps s t) {a1} : Keeps s (State.reask t a1) := by
  unfold State.reask
  refine Keeps.foldl ?_ fun u1 z2 h3 => ?_
  · exact h
  · extract_lets +onlyGivenNames -merge x4 x5 x6 x7
    have h8 : Keeps s x7 := Keeps.lit (t := u1) h3 rfl rfl rfl
    clear_value x7
    exact keeps_send (keeps_count h8)
theorem keeps_dropTranslations {s t : State} (h : Keeps s t) {a1 a2 a3 a4 a5} : Keeps s (State.dropTranslations t a1 a2 a3 a4 a5) := by
  unfold State.dropTranslations
  extract_lets +onlyGivenNames -merge x1 x2
  have h3 : Keeps s x2 := keeps_reask h
  clear_value x2
  exact Keeps.lit (t := x2) h3 rfl rfl rfl
theorem keeps_writeResume {s t : State} (h : Keeps s t) {a1 a2} : Keeps s (State.writeResume t a1 a2) := by
  unfold State.writeResume
  split
  · exact keeps_count h
  · extract_lets +onlyGivenNames -merge x11
    have h12 : Keeps s x11 := Keeps.lit (t := t) h rfl rfl rfl
    clear_value x11
    split
    · split
      · exact keeps_abortKernel (keeps_setGroup h12)
      · exact h12
    · split
      · exact h12
      · exact keeps_modGroup h12
theorem keeps_groupWriteError {s t : State} (h : Keeps s t) {a1} : Keeps s (State.groupWriteError t a1) := by
  unfold State.groupWriteError
  exact keeps_modGroupEntry h
theorem keeps_moveGroupState {s t : State} (h : Keeps s t) {a1 a2} : Keeps s (State.moveGroupState t a1 a2) := by
  unfold State.moveGroupState
  extract_lets +onlyGivenNames -merge x1
  split
  · exact h
  · split
    · extract_lets +onlyGivenNames -merge x16
      have h17 : Keeps s x16 := keeps_setGroupEntry h
      clear_value x16
      exact Keeps.lit (t := x16) h17 rfl rfl rfl
    · exact keeps_groupWriteError h
  · split
    · exact keeps_groupWriteError h
    · exact keeps_setGroupEntry h
  · exact keeps_closeGroup h
  · exact keeps_groupWriteError h
theorem keeps_writeGroupState {s t : State} (h : Keeps s t) {a1 a2} : Keeps s (State.writeGroupState t a1 a2) := by
  unfold State.writeGroupState
  extract_lets +onlyGivenNames -merge x1
  split
  · exact Keeps.lit (t := t) h rfl rfl rfl
  · exact keeps_moveGroupState h
theorem keeps_writeGroupWord {s t : State} (h : Keeps s t) {a1 a2 a3 a4 a5} : Keeps s (State.writeGroupWord t a1 a2 a3 a4 a5) := by
  unfold State.writeGroupWord
  split
  · exact h
  · extract_lets +onlyGivenNames -merge x5 x6 x7 x8 x9 x10 x11 x12
    have h13 : Keeps s x12 := keeps_setGroupEntry h
    clear_value x12
    split
    · exact keeps_writeGroupState h13
    · exact h13
theorem keeps_writeApertureWord {s t : State} (h : Keeps s t) {a1 a2 a3 a4 a5} : Keeps s (State.writeApertureWord t a1 a2 a3 a4 a5) := by
  unfold State.writeApertureWord
  split
  · exact h
  · extract_lets +onlyGivenNames -merge x5 x6 x7 x8
    split
    · split
      · unfold x8
        exact Keeps.lit (t := t) h rfl rfl rfl
      · exact h
    · extract_lets +onlyGivenNames -merge x17
      unfold x8
      exact Keeps.lit (t := t) h rfl rfl rfl
theorem keeps_setKey {s t : State} (h : Keeps s t) {a1 a2} : Keeps s (State.setKey t a1 a2) := by
  unfold State.setKey
  exact Keeps.lit (t := t) h rfl rfl rfl
theorem keeps_writeKeyWord {s t : State} (h : Keeps s t) {a1 a2 a3 a4 a5} : Keeps s (State.writeKeyWord t a1 a2 a3 a4 a5) := by
  unfold State.writeKeyWord
  split
  · exact h
  · extract_lets +onlyGivenNames -merge x5 x6 x7 x8
    split
    · split
      · split
        · exact keeps_setKey h
        · exact keeps_count h
      · exact keeps_setKey h
    · exact keeps_setKey h
theorem keeps_setSailing {s t : State} (h : Keeps s t) {a1 a2} : Keeps s (State.setSailing t a1 a2) := by
  unfold State.setSailing
  extract_lets +onlyGivenNames -merge x1
  have h2 : Keeps s x1 := keeps_setCounter h
  clear_value x1
  extract_lets +onlyGivenNames -merge x3 x4
  have h5 : Keeps s x4 := Keeps.lit (t := x1) h2 rfl rfl rfl
  clear_value x4
  extract_lets +onlyGivenNames -merge x6
  exact Keeps.lit (t := x4) h5 rfl rfl rfl
theorem keeps_setSched {s t : State} (h : Keeps s t) {a1 a2} : Keeps s (State.setSched t a1 a2) := by
  unfold State.setSched
  exact Keeps.lit (t := t) h rfl rfl rfl
theorem keeps_schedFail {s t : State} (h : Keeps s t) {a1 a2 a3} : Keeps s (State.schedFail t a1 a2 a3) := by
  unfold State.schedFail
  extract_lets +onlyGivenNames -merge x1 x2
  have h3 : Keeps s x2 := keeps_setSched h
  clear_value x2
  extract_lets +onlyGivenNames -merge x4
  have h5 : Keeps s x4 := keeps_raise (keeps_count h3)
  clear_value x4
  split
  · exact keeps_remoteIncomplete h5
  · exact h5
theorem keeps_schedSettle {s t : State} (h : Keeps s t) {a1} : Keeps s (State.schedSettle t a1) := by
  unfold State.schedSettle
  extract_lets +onlyGivenNames -merge x1
  split
  · split
    · exact keeps_schedFail h
    · split
      · exact keeps_schedFail h
      · extract_lets +onlyGivenNames -merge x28
        have h29 : Keeps s x28 := keeps_tallyInc h
        clear_value x28
        extract_lets +onlyGivenNames -merge x30
        have h31 : Keeps s x30 := keeps_setSched h29
        clear_value x30
        exact keeps_raise (keeps_count h31)
  · exact h
theorem keeps_schedSettleAll {s t : State} (h : Keeps s t) : Keeps s (State.schedSettleAll t) := by
  unfold State.schedSettleAll
  exact Keeps.foldl h fun _ _ h3 => keeps_schedSettle h3
theorem keeps_seqGo {s t : State} (h : Keeps s t) {a1} : Keeps s (State.seqGo t a1) := by
  unfold State.seqGo
  extract_lets +onlyGivenNames -merge x1
  split
  · exact keeps_count h
  · extract_lets +onlyGivenNames -merge x6
    split
    extract_lets +onlyGivenNames -merge x15 x16 x17 x18 x19
    have h20 : Keeps s x19 := keeps_setSched h
    clear_value x19
    split
    · exact keeps_schedFail (keeps_useFree h20)
    · split
      · exact keeps_schedFail h20
      · exact h20
theorem keeps_schedAdvance {s t : State} (h : Keeps s t) {a1 a2} : Keeps s (State.schedAdvance t a1 a2) := by
  unfold State.schedAdvance
  extract_lets +onlyGivenNames -merge x1
  exact keeps_setSched h
theorem keeps_schedRun {s t : State} (h : Keeps s t) {a1 a2 a3} : Keeps s (State.schedRun t a1 a2 a3) := by
  unfold State.schedRun
  extract_lets +onlyGivenNames -merge x1 x2
  split
  · exact h
  · split
    split
    · exact keeps_schedFail (keeps_useFree h)
    · split
      · exact h
      · split
        · exact keeps_schedFail h
        · extract_lets +onlyGivenNames -merge x35 x36 x37 x38 x39 x40 x41 x42 x43 x44
          have h45 : Keeps s x44 := by
            unfold x44
            split
            · exact keeps_schedAdvance h
            · split
              · exact keeps_schedFail h
              · split
                · exact keeps_schedAdvance h
                · exact h
            · unfold x41
              extract_lets +onlyGivenNames -merge x68
              exact keeps_startOp (keeps_schedAdvance h)
            · split
              split
              · exact keeps_schedFail h
              · split
                · exact keeps_schedAdvance h
                · unfold x41
                  extract_lets +onlyGivenNames -merge x93
                  exact keeps_startOp (keeps_schedAdvance h)
          clear_value x44
          exact keeps_schedSettle h45
theorem keeps_execGroupStateOpen {s t : State} (h : Keeps s t) {a0 a1} : KeepsA s (execGroupStateOpen a0 a1 t) := by
  unfold execGroupStateOpen
  exact KeepsA.next (keeps_writeGroupWord h)
theorem keeps_execGroupStateClosing {s t : State} (h : Keeps s t) {a0 a1} : KeepsA s (execGroupStateClosing a0 a1 t) := by
  unfold execGroupStateClosing
  exact KeepsA.next (keeps_writeGroupWord h)
theorem keeps_execGroupStateClosed {s t : State} (h : Keeps s t) {a0 a1} : KeepsA s (execGroupStateClosed a0 a1 t) := by
  unfold execGroupStateClosed
  exact KeepsA.next (keeps_writeGroupWord h)
theorem keeps_execGroupClosingDone {s t : State} (h : Keeps s t) {a0} : KeepsA s (execGroupClosingDone a0 t) := by
  unfold execGroupClosingDone
  exact KeepsA.next (keeps_settleClosing h)
theorem keeps_execKeyEntryValid {s t : State} (h : Keeps s t) {a0 a1 a2} : KeepsA s (execKeyEntryValid a0 a1 a2 t) := by
  unfold execKeyEntryValid
  refine KeepsA.next ?_
  split
  · exact keeps_writeKeyWord h
  · exact h
theorem keeps_execSeqGo {s t : State} (h : Keeps s t) {a0 a1 a2} : KeepsA s (execSeqGo a0 a1 a2 t) := by
  unfold execSeqGo
  refine KeepsA.next ?_
  split
  · exact keeps_seqGo h
  · exact h
theorem keeps_execScheduleNop {s t : State} (h : Keeps s t) {a0 a1} : KeepsA s (execScheduleNop a0 a1 t) := by
  unfold execScheduleNop
  exact KeepsA.next (keeps_schedRun h)
theorem keeps_execSchedulePut {s t : State} (h : Keeps s t) {a0 a1} : KeepsA s (execSchedulePut a0 a1 t) := by
  unfold execSchedulePut
  exact KeepsA.next (keeps_schedRun h)
theorem keeps_execScheduleReduce {s t : State} (h : Keeps s t) {a0 a1} : KeepsA s (execScheduleReduce a0 a1 t) := by
  unfold execScheduleReduce
  exact KeepsA.next (keeps_schedRun h)
theorem keeps_execScheduleTadd {s t : State} (h : Keeps s t) {a0 a1} : KeepsA s (execScheduleTadd a0 a1 t) := by
  unfold execScheduleTadd
  exact KeepsA.next (keeps_schedRun h)
theorem keeps_execScheduleWait {s t : State} (h : Keeps s t) {a0 a1} : KeepsA s (execScheduleWait a0 a1 t) := by
  unfold execScheduleWait
  exact KeepsA.next (keeps_schedRun h)
theorem keeps_nextFill {s t : State} (h : Keeps s t) {a1} : Keeps s (State.nextFill t a1) := by
  unfold State.nextFill
  extract_lets +onlyGivenNames -merge x1
  have h2 : Keeps s x1 := keeps_modStack h
  clear_value x1
  extract_lets +onlyGivenNames -merge x3
  refine Keeps.foldl ?_ fun u4 z5 h6 => ?_
  · exact h2
  · split
    split
    · exact h6
    · exact keeps_retireNow (keeps_modStack h6)
theorem keeps_parityError {s t : State} (h : Keeps s t) {a1} : Keeps s (State.parityError t a1) := by
  unfold State.parityError
  split
  · exact h
  · extract_lets +onlyGivenNames -merge x11 x12 x13
    have h14 : Keeps s x13 := keeps_modPc h
    clear_value x13
    split
    · exact keeps_retire h14
    · exact h14
theorem keeps_execPatrolScrub {s t : State} (h : Keeps s t) {a0 a1} : KeepsA s (execPatrolScrub a0 a1 t) := by
  unfold execPatrolScrub
  refine KeepsA.next ?_
  split
  · exact h
  · extract_lets +onlyGivenNames -merge x11
    split
    · exact keeps_parityError h
    · extract_lets +onlyGivenNames -merge x20
      have h21 : Keeps s x20 := by
        unfold x20
        split
        · exact h
        · exact keeps_setUpset h
      clear_value x20
      split
      · exact h
      · split
        · exact h21
        · split
          · exact keeps_countLost h
          · exact keeps_meetUpset h21
theorem keeps_execPseudoChannelHardFailure {s t : State} (h : Keeps s t) {a0} : KeepsA s (execPseudoChannelHardFailure a0 t) := by
  unfold execPseudoChannelHardFailure
  exact KeepsA.next (keeps_retire h)
theorem keeps_fillStep {s t : State} (h : Keeps s t) {a1 a2} : Keeps s (State.fillStep t a1 a2) := by
  unfold State.fillStep
  split
  · exact h
  · split
    · extract_lets +onlyGivenNames -merge x17
      have h18 : Keeps s x17 := keeps_modPc h
      clear_value x17
      extract_lets +onlyGivenNames -merge x19
      have h20 : Keeps s x19 := by
        unfold x19
        split
        · exact keeps_setSlotEntry h18
        · exact h18
      clear_value x19
      exact keeps_nextFill (keeps_event h20)
    · extract_lets +onlyGivenNames -merge x35 x36 x37
      have h38 : Keeps s x37 := by
        unfold x37
        refine Keeps.foldl ?_ fun u39 z40 h41 => ?_
        · exact h
        · extract_lets +onlyGivenNames -merge x42
          split
          · exact keeps_event (keeps_count (keeps_dramPoison h41))
          · exact keeps_meetUpset h41
      clear_value x37
      split
      · extract_lets +onlyGivenNames -merge x49
        have h50 : Keeps s x49 := by
          unfold x49
          split
          · exact keeps_setSlotEntry h38
          · exact h38
        clear_value x49
        exact keeps_nextFill (keeps_event (keeps_count h50))
      · exact keeps_modStack h38
theorem keeps_execFillGranule {s t : State} (h : Keeps s t) {a0 a1} : KeepsA s (execFillGranule a0 a1 t) := by
  unfold execFillGranule
  exact KeepsA.next (keeps_fillStep h)
theorem keeps_execTier2PackageFailure {s t : State} (h : Keeps s t) {a0} : KeepsA s (execTier2PackageFailure a0 t) := by
  unfold execTier2PackageFailure
  refine KeepsA.next ?_
  split
  · exact h
  · refine keeps_event ?_
    exact Keeps.lit (t := t) h rfl rfl rfl
theorem keeps_writeCtrl {s t : State} (h : Keeps s t) {a1 a2} : Keeps s (State.writeCtrl t a1 a2) := by
  unfold State.writeCtrl
  exact keeps_modStack h
theorem keeps_wrapperRun {s t : State} (h : Keeps s t) {a1} : KeepsP s (State.wrapperRun t a1) := by
  unfold State.wrapperRun
  extract_lets +onlyGivenNames -merge x1 x2 x3
  split
  · split <;> exact KeepsP.mk h
  · split
    · exact KeepsP.mk h
    · extract_lets +onlyGivenNames -merge x20
      split
      · exact KeepsP.mk h
      · extract_lets +onlyGivenNames -merge x25
        exact KeepsP.mk h
  · extract_lets +onlyGivenNames -merge x30 x31 x32
    split
    · exact KeepsP.mk h
    · split
      · exact KeepsP.mk h
      · split
        · exact KeepsP.mk h
        · split <;> exact KeepsP.mk (keeps_modPc h)
  · extract_lets +onlyGivenNames -merge x53
    split
    · exact KeepsP.mk h
    · split
      · exact KeepsP.mk h
      · split
        · exact KeepsP.mk h
        · extract_lets +onlyGivenNames -merge x66
          have h67 : Keeps s x66 := keeps_modPc h
          clear_value x66
          refine KeepsP.mk ?_
          exact Keeps.lit (t := x66) h67 rfl rfl rfl
  · exact KeepsP.mk h
  · exact KeepsP.mk h
theorem keeps_wrapperGo {s t : State} (h : Keeps s t) {a1 a2} : Keeps s (State.wrapperGo t a1 a2) := by
  unfold State.wrapperGo
  exact keeps_writeCtrl h
theorem keeps_execPcStatus {s t : State} (h : Keeps s t) {a0} : KeepsA s (execPcStatus a0 t) := by
  unfold execPcStatus
  exact KeepsA.next (keeps_wrapperGo h)
theorem keeps_execRepairInfo {s t : State} (h : Keeps s t) {a0} : KeepsA s (execRepairInfo a0 t) := by
  unfold execRepairInfo
  exact KeepsA.next (keeps_wrapperGo h)
theorem keeps_execRowRepair {s t : State} (h : Keeps s t) {a0} : KeepsA s (execRowRepair a0 t) := by
  unfold execRowRepair
  exact KeepsA.next (keeps_wrapperGo h)
theorem keeps_execBankRepair {s t : State} (h : Keeps s t) {a0} : KeepsA s (execBankRepair a0 t) := by
  unfold execBankRepair
  exact KeepsA.next (keeps_wrapperGo h)
theorem keeps_execWrapperBypass {s t : State} (h : Keeps s t) {a0} : KeepsA s (execWrapperBypass a0 t) := by
  unfold execWrapperBypass
  exact KeepsA.next (keeps_wrapperGo h)
theorem keeps_execWrapperInstructionDone {s t : State} (h : Keeps s t) {a0} : KeepsA s (execWrapperInstructionDone a0 t) := by
  unfold execWrapperInstructionDone
  refine KeepsA.next ?_
  split
  · split
    rename_i e12
    exact keeps_modStack (KeepsP.eq e12 (keeps_wrapperRun h))
  · exact h
theorem keeps_execWrapperTimeout {s t : State} (h : Keeps s t) {a0} : KeepsA s (execWrapperTimeout a0 t) := by
  unfold execWrapperTimeout
  refine KeepsA.next ?_
  split
  · exact keeps_modStack h
  · exact h
theorem keeps_dropStack {s t : State} (h : Keeps s t) {a1} : Keeps s (State.dropStack t a1) := by
  unfold State.dropStack
  extract_lets +onlyGivenNames -merge x1
  exact Keeps.lit (t := t) h rfl rfl rfl
theorem keeps_stackRequest {s t : State} (h : Keeps s t) {a1} : Keeps s (State.stackRequest t a1) := by
  unfold State.stackRequest
  split
  · exact Keeps.lit (t := t) h rfl rfl rfl
  · exact keeps_modStack (keeps_dropStack h)
theorem keeps_zeroStack {s t : State} (h : Keeps s t) {a1} : Keeps s (State.zeroStack t a1) := by
  unfold State.zeroStack
  refine keeps_setStack ?_
  exact ⟨h.1, fun w => wf_filter _ (h.2.1 w), h.2.2⟩
theorem keeps_execStackZeroed {s t : State} (h : Keeps s t) {a0} : KeepsA s (execStackZeroed a0 t) := by
  unfold execStackZeroed
  refine KeepsA.next ?_
  split
  · exact keeps_zeroStack h
  · exact h
theorem keeps_releaseSlot {s t : State} (h : Keeps s t) {a1} : Keeps s (State.releaseSlot t a1) := by
  unfold State.releaseSlot
  split
  · exact h
  · extract_lets +onlyGivenNames -merge x11 x12
    have h13 : Keeps s x12 := by
      unfold x12
      refine keeps_writeRecord ?_
      exact Keeps.lit (t := t) h rfl rfl rfl
    clear_value x12
    extract_lets +onlyGivenNames -merge x14 x15
    have h16 : Keeps s x15 := by
      unfold x15
      split
      · exact keeps_nextFill h13
      · exact h13
    clear_value x15
    exact keeps_modPc h16
theorem keeps_setTwin {s t : State} (h : Keeps s t) {a1 a2} : Keeps s (State.setTwin t a1 a2) := by
  unfold State.setTwin
  exact Keeps.lit (t := t) h rfl rfl rfl
theorem keeps_modTwin {s t : State} (h : Keeps s t) {a1 a2} : Keeps s (State.modTwin t a1 a2) := by
  unfold State.modTwin
  exact keeps_setTwin h
theorem keeps_setFlip {s t : State} (h : Keeps s t) {a1 a2} : Keeps s (State.setFlip t a1 a2) := by
  unfold State.setFlip
  exact Keeps.lit (t := t) h rfl rfl rfl
theorem keeps_drainWrite {s t : State} (h : Keeps s t) {a1 a2 a3 a4} : Keeps s (State.drainWrite t a1 a2 a3 a4) := by
  unfold State.drainWrite
  extract_lets +onlyGivenNames -merge x1 x2
  split
  · unfold x2
    exact keeps_modTwin h
  · split
    · split
      · unfold x2
        exact keeps_modTwin h
      · refine Keeps.foldl ?_ fun u17 z18 h19 => ?_
        · exact h
        · split
          split
          exact keeps_startOp h19
    · split
      · exact keeps_send h
      · unfold x2
        exact keeps_modTwin (keeps_count h)
    · unfold x2
      exact keeps_modTwin h
    · unfold x2
      exact keeps_modTwin h
    · unfold x2
      exact keeps_modTwin h
    · split
      · rename_i e83
        exact KeepsO.eq e83 (keeps_hubWriteRange h)
      · unfold x2
        exact keeps_modTwin h
theorem keeps_drainCover {s t : State} (h : Keeps s t) {a1 a2} : Keeps s (State.drainCover t a1 a2) := by
  unfold State.drainCover
  split
  · split
    · exact h
    · exact keeps_hostRead h
  · exact h
theorem keeps_startDrain {s t : State} (h : Keeps s t) {a1} : Keeps s (State.startDrain t a1) := by
  unfold State.startDrain
  extract_lets +onlyGivenNames -merge x1
  split
  extract_lets +onlyGivenNames -merge x10
  split
  rename_i v16 _ e18
  extract_lets +onlyGivenNames -merge x19 x20
  have h21 : Keeps s x20 := by
    unfold x20
    split
    · exact Keeps.lit (t := v16) (KeepsP.eq e18 (keeps_meetArrays h)) rfl rfl rfl
    · exact KeepsP.eq e18 (keeps_meetArrays h)
  clear_value x20
  extract_lets +onlyGivenNames -merge x26
  have h27 : Keeps s x26 := keeps_modTwin h21
  clear_value x26
  split
  · exact h27
  · extract_lets +onlyGivenNames -merge x32 x33
    have h34 : Keeps s x33 := keeps_drainWrite h27
    clear_value x33
    extract_lets +onlyGivenNames -merge x35
    have h36 : Keeps s x35 := by
      unfold x35
      split
      · exact h34
      · exact keeps_drainWrite h34
    clear_value x35
    exact keeps_drainCover h36
theorem keeps_drainEnd {s t : State} (h : Keeps s t) {a1 a2 a3} : Keeps s (State.drainEnd t a1 a2 a3) := by
  unfold State.drainEnd
  extract_lets +onlyGivenNames -merge x1 x2
  have h3 : Keeps s x2 := keeps_setTwin h
  clear_value x2
  extract_lets +onlyGivenNames -merge x4
  have h5 : Keeps s x4 := by
    unfold x4
    split
    · exact h3
    · exact keeps_setCounter h3
  clear_value x4
  extract_lets +onlyGivenNames -merge x10
  have h11 : Keeps s x10 := by
    unfold x10
    split
    · exact h5
    · exact keeps_setCounter h5
  clear_value x10
  split
  · exact h11
  · exact keeps_event h11
theorem keeps_execHubDrainEnd {s t : State} (h : Keeps s t) {a0 a1 a2} : KeepsA s (execHubDrainEnd a0 a1 a2 t) := by
  unfold execHubDrainEnd
  extract_lets +onlyGivenNames -merge x1 x2
  refine KeepsA.next ?_
  split
  · exact h
  · split
    · exact keeps_drainEnd h
    · split
      · exact keeps_drainEnd h
      · extract_lets +onlyGivenNames -merge x15
        have h16 : Keeps s x15 := keeps_drainWrite h
        clear_value x15
        extract_lets +onlyGivenNames -merge x17
        have h18 : Keeps s x17 := keeps_drainCover h16
        clear_value x17
        split
        · exact keeps_modTwin h18
        · exact keeps_drainEnd h18
theorem keeps_softDrainDone {s t : State} (h : Keeps s t) {a1 a2} : Keeps s (State.softDrainDone t a1 a2) := by
  unfold State.softDrainDone
  extract_lets +onlyGivenNames -merge x1
  split
  · exact h
  · exact keeps_drainEnd (keeps_useFree h)
theorem keeps_declareSlack {s t : State} (h : Keeps s t) {a1 a2} : Keeps s (State.declareSlack t a1 a2) := by
  unfold State.declareSlack
  exact keeps_setFlip h
theorem keeps_execTwinFlip {s t : State} (h : Keeps s t) {a0} : KeepsA s (execTwinFlip a0 t) := by
  unfold execTwinFlip
  refine KeepsA.next ?_
  split
  · exact h
  · split
    · exact h
    · extract_lets +onlyGivenNames -merge x15 x16 x17 x18 x19
      have h20 : Keeps s x19 := Keeps.foldl h fun _ _ h23 => keeps_modTwin h23
      clear_value x19
      extract_lets +onlyGivenNames -merge x24
      have h25 : Keeps s x24 := keeps_setFlip h20
      clear_value x24
      extract_lets +onlyGivenNames -merge x26
      have h27 : Keeps s x26 := keeps_setInterval (keeps_setCounter h25)
      clear_value x26
      split
      · refine Keeps.foldl ?_ fun u30 z31 h32 => ?_
        · exact h27
        · split
          · exact keeps_startDrain h32
          · exact h32
      · exact h27
theorem keeps_setImageStatus {s t : State} (h : Keeps s t) {a1 a2} : Keeps s (State.setImageStatus t a1 a2) := by
  unfold State.setImageStatus
  exact Keeps.lit (t := t) h rfl rfl rfl
theorem keeps_startImage {s t : State} (h : Keeps s t) {a1 a2} : Keeps s (State.startImage t a1 a2) := by
  unfold State.startImage
  exact keeps_setImageStatus h
theorem keeps_releaseHeld {s t : State} (h : Keeps s t) {a1} : Keeps s (State.releaseHeld t a1) := by
  unfold State.releaseHeld
  extract_lets +onlyGivenNames -merge x1 x2 x3
  have h4 : Keeps s x3 := Keeps.lit (t := t) h rfl rfl rfl
  clear_value x3
  refine Keeps.foldl ?_ fun u5 z6 h7 => ?_
  · exact h4
  · split
    split
    · exact keeps_moveGroupState h7
    · split
      · exact h7
      · exact keeps_setSailing h7
theorem keeps_execGroupImageDone {s t : State} (h : Keeps s t) {a0} : KeepsA s (execGroupImageDone a0 t) := by
  unfold execGroupImageDone
  refine KeepsA.next ?_
  split
  · exact h
  · extract_lets +onlyGivenNames -merge x5 x6 x7
    have h8 : Keeps s x7 := keeps_useFree h
    clear_value x7
    extract_lets +onlyGivenNames -merge x9
    have h10 : Keeps s x9 := by
      unfold x9
      split
      · split
        · rename_i e18
          exact keeps_setImageStatus (KeepsO.eq e18 (keeps_hubWriteRange h8))
        · exact h8
      · exact keeps_setImageStatus h8
    clear_value x9
    split
    · exact h10
    · exact keeps_releaseHeld h10
theorem keeps_setMailbox {s t : State} (h : Keeps s t) {a1 a2} : Keeps s (State.setMailbox t a1 a2) := by
  unfold State.setMailbox
  exact Keeps.lit (t := t) h rfl rfl rfl
theorem keeps_readReg {s t : State} (h : Keeps s t) {a1} : KeepsP s (State.readReg t a1) := by
  unfold State.readReg
  split
  · exact KeepsP.mk h
  · exact KeepsP.mk h
  · exact KeepsP.mk (keeps_useFree h)
  · exact keeps_claim h
  · exact KeepsP.mk h
  · extract_lets +onlyGivenNames -merge x31
    split
    · exact KeepsP.mk h
    · split
      · exact KeepsP.mk h
      · split
        · exact KeepsP.mk h
        · split
          · exact KeepsP.mk h
          · split
            · exact KeepsP.mk h
            · split
              · exact keeps_readFqLost h
              · split
                · exact KeepsP.mk h
                · split
                  · exact KeepsP.mk h
                  · split
                    · exact KeepsP.mk h
                    · split
                      · exact KeepsP.mk h
                      · split <;> exact KeepsP.mk h
  · exact KeepsP.mk h
  · extract_lets +onlyGivenNames -merge x86
    exact KeepsP.mk h
  · extract_lets +onlyGivenNames -merge x93
    exact KeepsP.mk h
  · exact KeepsP.mk h
  · exact KeepsP.mk h
  · exact KeepsP.mk h
  · exact KeepsP.mk h
  · split
    · split
      · exact KeepsP.mk h
      · exact KeepsP.mk (keeps_useFree h)
    · split
      · exact KeepsP.mk (keeps_send (keeps_useFree h))
      · exact KeepsP.mk h
  · extract_lets +onlyGivenNames -merge x154
    exact KeepsP.mk h
  · exact KeepsP.mk h
  · exact KeepsP.mk h
  · exact KeepsP.mk h
  · exact KeepsP.mk h
  · exact KeepsP.mk h
  · exact KeepsP.mk h
  · exact KeepsP.mk h
  · exact KeepsP.mk h
theorem keeps_writeReg {s t : State} (h : Keeps s t) {a1 a2 a3 a4 a5} : Keeps s (State.writeReg t a1 a2 a3 a4 a5) := by
  unfold State.writeReg
  split
  · exact keeps_tallyAddReg h
  · split
    · exact keeps_writeCtrl h
    · split
      · exact keeps_modStack h
      · exact h
  · exact keeps_hartStart h
  · exact keeps_modHart h
  · extract_lets +onlyGivenNames -merge x35
    split
    · exact keeps_writeFqBase h
    · split
      · exact keeps_writeFqSize h
      · split
        · exact keeps_writeFqHead h
        · split
          · exact keeps_writeFqCtl h
          · split
            · exact keeps_setXl h
            · split
              · exact keeps_writeInvCtl h
              · split
                · exact keeps_writeResume h
                · split
                  · exact h
                  · extract_lets +onlyGivenNames -merge x68
                    split
                    · exact keeps_writeCtxRoot h
                    · exact keeps_writeCtxId h
  · split
    · exact keeps_writeRoute h
    · exact h
  · exact keeps_intSend h
  · extract_lets +onlyGivenNames -merge x89
    split
    · exact keeps_setMailbox h
    · split
      · split
        · exact keeps_setMailbox h
        · exact h
      · split
        · exact keeps_setMailbox h
        · exact h
  · exact keeps_modQueue h
  · split
    · exact keeps_modQueue h
    · split
      · exact keeps_modQueue h
      · split
        · exact keeps_modQueue h
        · split
          · exact keeps_modQueue h
          · exact h
  · split
    · exact h
    · exact keeps_writeGroupWord h
  · split
    · exact h
    · exact keeps_writeApertureWord h
  · split
    · exact h
    · exact keeps_writeKeyWord h
  · split
    · exact keeps_setSched h
    · split
      · exact keeps_seqGo h
      · exact h
  · split
    · extract_lets +onlyGivenNames -merge x190 x191
      exact Keeps.lit (t := t) h rfl rfl rfl
    · split
      · exact keeps_send h
      · exact h
  · split
    · exact keeps_sessionCtl h
    · split
      · exact keeps_modFn h
      · split
        · exact keeps_modFn h
        · exact h
  · split
    · exact Keeps.lit (t := t) h rfl rfl rfl
    · split
      · exact keeps_recGo h
      · exact h
  · exact Keeps.lit (t := t) h rfl rfl rfl
  · extract_lets +onlyGivenNames -merge x238 x239 x240
    exact keeps_deliverAll (keeps_modFn h)
  · exact h
  · exact h
  · exact h
  · exact h
theorem keeps_readAt {s t : State} (h : Keeps s t) {a1 a2 a3} : KeepsP s (State.readAt t a1 a2 a3) := by
  unfold State.readAt
  split
  · exact KeepsP.mk h
  · split
    rename_i e18
    exact KeepsP.mk (KeepsP.eq e18 (keeps_readReg h))
theorem keeps_writeAt {s t : State} (h : Keeps s t) {a1 a2 a3 a4 a5} : Keeps s (State.writeAt t a1 a2 a3 a4 a5) := by
  unfold State.writeAt
  split
  · exact h
  · split
    · exact h
    · extract_lets +onlyGivenNames -merge x15
      exact keeps_writeReg h

end Sys2Proof.Laws
end

