-- ==== Sys2Proof/Laws/KeepsGroups.lean ====
section
/-! SUPPORT. What every operation keeps (Laws/Keeps.lean): the instructions of groups and the engines behind them. -/
namespace Sys2Proof.Laws
open Sys2Proof.Machine

theorem keeps_intOp {s t : State} (h : Keeps s t) {a1 a2 a3 a4 a5 a6} : Keeps s (State.intOp t a1 a2 a3 a4 a5 a6) := by
  unfold State.intOp
  exact keeps_issueGroup h
theorem keeps_intUnary {s t : State} (h : Keeps s t) {a1 a2 a3 a4} : Keeps s (State.intUnary t a1 a2 a3 a4) := by
  unfold State.intUnary
  exact keeps_issueGroup h
theorem keeps_intShift {s t : State} (h : Keeps s t) {a1 a2 a3 a4} : Keeps s (State.intShift t a1 a2 a3 a4) := by
  unfold State.intShift
  exact keeps_issueGroup h
theorem keeps_execIntAdd {s t : State} (h : Keeps s t) {a0 a1} : KeepsA s (execIntAdd a0 a1 t) := by
  unfold execIntAdd
  exact KeepsA.next (keeps_intOp h)
theorem keeps_execIntSub {s t : State} (h : Keeps s t) {a0 a1} : KeepsA s (execIntSub a0 a1 t) := by
  unfold execIntSub
  exact KeepsA.next (keeps_intOp h)
theorem keeps_execIntAnd {s t : State} (h : Keeps s t) {a0 a1} : KeepsA s (execIntAnd a0 a1 t) := by
  unfold execIntAnd
  exact KeepsA.next (keeps_intOp h)
theorem keeps_execIntOr {s t : State} (h : Keeps s t) {a0 a1} : KeepsA s (execIntOr a0 a1 t) := by
  unfold execIntOr
  exact KeepsA.next (keeps_intOp h)
theorem keeps_execIntXor {s t : State} (h : Keeps s t) {a0 a1} : KeepsA s (execIntXor a0 a1 t) := by
  unfold execIntXor
  exact KeepsA.next (keeps_intOp h)
theorem keeps_execIntNot {s t : State} (h : Keeps s t) {a0 a1} : KeepsA s (execIntNot a0 a1 t) := by
  unfold execIntNot
  exact KeepsA.next (keeps_intUnary h)
theorem keeps_execIntShl {s t : State} (h : Keeps s t) {a0 a1} : KeepsA s (execIntShl a0 a1 t) := by
  unfold execIntShl
  exact KeepsA.next (keeps_intShift h)
theorem keeps_execIntShr {s t : State} (h : Keeps s t) {a0 a1} : KeepsA s (execIntShr a0 a1 t) := by
  unfold execIntShr
  exact KeepsA.next (keeps_intShift h)
theorem keeps_execIntSra {s t : State} (h : Keeps s t) {a0 a1} : KeepsA s (execIntSra a0 a1 t) := by
  unfold execIntSra
  exact KeepsA.next (keeps_intShift h)
theorem keeps_execIntRot {s t : State} (h : Keeps s t) {a0 a1} : KeepsA s (execIntRot a0 a1 t) := by
  unfold execIntRot
  exact KeepsA.next (keeps_intShift h)
theorem keeps_execIntMov {s t : State} (h : Keeps s t) {a0 a1} : KeepsA s (execIntMov a0 a1 t) := by
  unfold execIntMov
  exact KeepsA.next (keeps_issueGroup h)
theorem keeps_execIntLih {s t : State} (h : Keeps s t) {a0 a1} : KeepsA s (execIntLih a0 a1 t) := by
  unfold execIntLih
  extract_lets +onlyGivenNames -merge x1
  exact KeepsA.next (keeps_issueGroup h)
theorem keeps_execIntClz {s t : State} (h : Keeps s t) {a0 a1} : KeepsA s (execIntClz a0 a1 t) := by
  unfold execIntClz
  exact KeepsA.next (keeps_intUnary h)
theorem keeps_execIntPopc {s t : State} (h : Keeps s t) {a0 a1} : KeepsA s (execIntPopc a0 a1 t) := by
  unfold execIntPopc
  exact KeepsA.next (keeps_intUnary h)
theorem keeps_execImdMul {s t : State} (h : Keeps s t) {a0 a1} : KeepsA s (execImdMul a0 a1 t) := by
  unfold execImdMul
  exact KeepsA.next (keeps_intOp h)
theorem keeps_execImdMulhi {s t : State} (h : Keeps s t) {a0 a1} : KeepsA s (execImdMulhi a0 a1 t) := by
  unfold execImdMulhi
  exact KeepsA.next (keeps_intOp h)
theorem keeps_execImdDiv {s t : State} (h : Keeps s t) {a0 a1} : KeepsA s (execImdDiv a0 a1 t) := by
  unfold execImdDiv
  exact KeepsA.next (keeps_intOp h)
theorem keeps_execImdRem {s t : State} (h : Keeps s t) {a0 a1} : KeepsA s (execImdRem a0 a1 t) := by
  unfold execImdRem
  exact KeepsA.next (keeps_intOp h)
theorem keeps_branch {s t : State} (h : Keeps s t) {a1 a2 a3 a4 a5} : Keeps s (State.branch t a1 a2 a3 a4 a5) := by
  unfold State.branch
  exact keeps_issueGroup h
theorem keeps_execCtlBr {s t : State} (h : Keeps s t) {a0 a1} : KeepsA s (execCtlBr a0 a1 t) := by
  unfold execCtlBr
  exact KeepsA.next (keeps_branch h)
theorem keeps_execCtlBrmz {s t : State} (h : Keeps s t) {a0 a1} : KeepsA s (execCtlBrmz a0 a1 t) := by
  unfold execCtlBrmz
  exact KeepsA.next (keeps_branch h)
theorem keeps_execCtlBrany {s t : State} (h : Keeps s t) {a0 a1} : KeepsA s (execCtlBrany a0 a1 t) := by
  unfold execCtlBrany
  exact KeepsA.next (keeps_branch h)
theorem keeps_execCtlBrall {s t : State} (h : Keeps s t) {a0 a1} : KeepsA s (execCtlBrall a0 a1 t) := by
  unfold execCtlBrall
  exact KeepsA.next (keeps_branch h)
theorem keeps_execCtlBri {s t : State} (h : Keeps s t) {a0 a1} : KeepsA s (execCtlBri a0 a1 t) := by
  unfold execCtlBri
  exact KeepsA.next (keeps_issueGroup h)
theorem keeps_execCtlCall {s t : State} (h : Keeps s t) {a0 a1} : KeepsA s (execCtlCall a0 a1 t) := by
  unfold execCtlCall
  exact KeepsA.next (keeps_issueGroup h)
theorem keeps_execCtlTrap {s t : State} (h : Keeps s t) {a0 a1} : KeepsA s (execCtlTrap a0 a1 t) := by
  unfold execCtlTrap
  exact KeepsA.next (keeps_issueGroup h)
theorem keeps_execCtlNop {s t : State} (h : Keeps s t) {a0 a1} : KeepsA s (execCtlNop a0 a1 t) := by
  unfold execCtlNop
  exact KeepsA.next (keeps_issueGroup h)
theorem keeps_execCtlMif {s t : State} (h : Keeps s t) {a0 a1} : KeepsA s (execCtlMif a0 a1 t) := by
  unfold execCtlMif
  exact KeepsA.next (keeps_issueGroup h)
theorem keeps_execCtlMelse {s t : State} (h : Keeps s t) {a0 a1} : KeepsA s (execCtlMelse a0 a1 t) := by
  unfold execCtlMelse
  exact KeepsA.next (keeps_issueGroup h)
theorem keeps_execCtlMend {s t : State} (h : Keeps s t) {a0 a1} : KeepsA s (execCtlMend a0 a1 t) := by
  unfold execCtlMend
  exact KeepsA.next (keeps_issueGroup h)
theorem keeps_execCtlMloop {s t : State} (h : Keeps s t) {a0 a1} : KeepsA s (execCtlMloop a0 a1 t) := by
  unfold execCtlMloop
  exact KeepsA.next (keeps_issueGroup h)
theorem keeps_execCtlMbrk {s t : State} (h : Keeps s t) {a0 a1} : KeepsA s (execCtlMbrk a0 a1 t) := by
  unfold execCtlMbrk
  exact KeepsA.next (keeps_issueGroup h)
theorem keeps_execSpcRdsr {s t : State} (h : Keeps s t) {a0 a1} : KeepsA s (execSpcRdsr a0 a1 t) := by
  unfold execSpcRdsr
  extract_lets +onlyGivenNames -merge x1 x2
  refine KeepsA.next ?_
  refine keeps_issue ?_ ?_
  · exact h
  · intro y3 y4 y5 y6 y7
    split
    · exact KeepsE.fault y7
    · extract_lets +onlyGivenNames -merge x20
      refine KeepsE.done ?_
      refine keeps_setGroup ?_
      split
      · exact keeps_useFree y7
      · exact y7
theorem keeps_execSpcShfl {s t : State} (h : Keeps s t) {a0 a1} : KeepsA s (execSpcShfl a0 a1 t) := by
  unfold execSpcShfl
  exact KeepsA.next (keeps_issueGroup h)
theorem keeps_execSpcVoteany {s t : State} (h : Keeps s t) {a0 a1} : KeepsA s (execSpcVoteany a0 a1 t) := by
  unfold execSpcVoteany
  exact KeepsA.next (keeps_issueGroup h)
theorem keeps_execSpcVoteall {s t : State} (h : Keeps s t) {a0 a1} : KeepsA s (execSpcVoteall a0 a1 t) := by
  unfold execSpcVoteall
  exact KeepsA.next (keeps_issueGroup h)
theorem keeps_execSpcBallot {s t : State} (h : Keeps s t) {a0 a1} : KeepsA s (execSpcBallot a0 a1 t) := by
  unfold execSpcBallot
  exact KeepsA.next (keeps_issueGroup h)
theorem keeps_execSpcPhase {s t : State} (h : Keeps s t) {a0 a1} : KeepsA s (execSpcPhase a0 a1 t) := by
  unfold execSpcPhase
  extract_lets +onlyGivenNames -merge x1
  exact KeepsA.next (keeps_issue h fun _ _ _ _ y6 => KeepsE.done (keeps_powerSettle (keeps_setGroup y6)))
theorem keeps_ferrySend {s t : State} (h : Keeps s t) {a1 a2 a3 a4 a5 a6 a7} : Keeps s (State.ferrySend t a1 a2 a3 a4 a5 a6 a7) := by
  unfold State.ferrySend
  split
  · exact h
  · split
    · exact h
    · exact keeps_startOp h
theorem keeps_freeSlot {s t : State} (h : Keeps s t) {a1 a2 a3 a4 a5} : Keeps s (State.freeSlot t a1 a2 a3 a4 a5) := by
  unfold State.freeSlot
  extract_lets +onlyGivenNames -merge x1
  have h2 : Keeps s x1 := keeps_modKernel h
  clear_value x1
  split
  · exact h2
  · split
    · exact h2
    · split
      · exact keeps_ferrySend h2
      · exact h2
theorem keeps_releaseFreed {s t : State} (h : Keeps s t) {a1 a2} : Keeps s (State.releaseFreed t a1 a2) := by
  unfold State.releaseFreed
  split
  · exact h
  · split
    · exact h
    · refine Keeps.foldl ?_ fun u21 z22 h23 => ?_
      · exact h
      · split
        refine Keeps.foldl ?_ fun u30 z31 h32 => ?_
        · exact h23
        · split
          split
          · exact keeps_freeSlot h32
          · exact h32
theorem keeps_spadStore {s t : State} (h : Keeps s t) {a1 a2 a3 a4} : Keeps s (State.spadStore t a1 a2 a3 a4) := by
  induction a2 generalizing t a3 a4 with
  | zero => exact h
  | succ n ih =>
    simp only [State.spadStore]
    split
    · exact h
    · exact ih (Keeps.foldl h fun _ _ k => keeps_modCluster k)
theorem keeps_halfStore {s t : State} (h : Keeps s t) {a1 a2 a3 a4} : Keeps s (State.halfStore t a1 a2 a3 a4) := by
  unfold State.halfStore
  exact Keeps.foldl h fun _ _ h3 => keeps_modCluster h3
theorem keeps_elemStore {s t : State} (h : Keeps s t) {a1 a2 a3 a4 a5} : Keeps s (State.elemStore t a1 a2 a3 a4 a5) := by
  unfold State.elemStore
  split
  extract_lets +onlyGivenNames -merge x9
  split
  · exact keeps_halfStore h
  · exact keeps_spadStore h
theorem keeps_settleFences {s t : State} (h : Keeps s t) {a1} : Keeps s (State.settleFences t a1) := by
  unfold State.settleFences
  refine Keeps.foldl ?_ fun u1 z2 h3 => ?_
  · exact h
  · split
    extract_lets +onlyGivenNames -merge x10
    split
    · exact h3
    · extract_lets +onlyGivenNames -merge x15
      exact keeps_acquire (keeps_setGroup h3)
theorem keeps_sendEnds {s t : State} (h : Keeps s t) {a1} : Keeps s (State.sendEnds t a1) := by
  unfold State.sendEnds
  split
  · exact h
  · split
    · exact h
    · split
      · exact h
      · refine Keeps.foldl ?_ fun u25 z26 h27 => ?_
        · exact h
        · split
          split
          · extract_lets +onlyGivenNames -merge x40
            split
            · extract_lets +onlyGivenNames -merge x43
              exact keeps_ferrySend (keeps_modKernel h27)
            · exact h27
          · exact h27
theorem keeps_settleEnds {s t : State} (h : Keeps s t) {a1} : Keeps s (State.settleEnds t a1) := by
  unfold State.settleEnds
  exact keeps_sendEnds (keeps_settleFences h)
theorem keeps_regWrite {s t : State} (h : Keeps s t) {a1 a2 a3 a4} : Keeps s (State.regWrite t a1 a2 a3 a4) := by
  induction a2 generalizing t a3 a4 with
  | zero => exact h
  | succ n ih =>
    simp only [State.regWrite]
    split
    · exact h
    · exact ih (keeps_writeAt h)
theorem keeps_regRead {s t : State} (h : Keeps s t) {a1 a2 a3} : KeepsP s (State.regRead t a1 a2 a3) := by
  induction a1 generalizing t a2 a3 with
  | zero => exact h
  | succ n ih =>
    simp only [State.regRead]
    split
    · exact h
    · exact ih (keeps_readAt h)
theorem keeps_keepRemote {s t : State} (h : Keeps s t) {a1 a2 a3 a4 a5} : Keeps s (State.keepRemote t a1 a2 a3 a4 a5) := by
  unfold State.keepRemote
  extract_lets +onlyGivenNames -merge x1 x2
  split
  · exact keeps_placeCopy h
  · split
    · exact h
    · rename_i e24
      exact keeps_placeCopy (KeepsOP.eq e24 (keeps_makeRoom h))
theorem keeps_remoteLookup {s t : State} (h : Keeps s t) {a1 a2 a3 a4} : KeepsP s (State.remoteLookup t a1 a2 a3 a4) := by
  unfold State.remoteLookup
  split
  · exact KeepsP.mk h
  · extract_lets +onlyGivenNames -merge x5 x6
    have h7 : Keeps s x6 := keeps_meetCopies h
    clear_value x6
    split
    · exact KeepsP.mk (keeps_placeCopy (keeps_countLookup h7))
    · exact KeepsP.mk (keeps_countLookup h7)
    · exact KeepsP.mk (keeps_countLookup h7)
theorem keeps_updateRemote {s t : State} (h : Keeps s t) {a1 a2 a3 a4 a5} : Keeps s (State.updateRemote t a1 a2 a3 a4 a5) := by
  unfold State.updateRemote
  extract_lets +onlyGivenNames -merge x1
  exact keeps_modAgent h
theorem keeps_wbPerform {s t : State} (h : Keeps s t) {a1 a2} : KeepsO s (State.wbPerform t a1 a2) := by
  unfold State.wbPerform
  extract_lets +onlyGivenNames -merge x1 x2 x3 x4 x5
  split
  · exact KeepsO.some h
  · split
    · refine KeepsO.some ?_
      refine Keeps.foldl ?_ fun u16 z17 h18 => ?_
      · exact h
      · split
        exact keeps_writeAt h18
    · refine KeepsO.some ?_
      unfold x5
      refine Keeps.foldl ?_ fun u31 z32 h33 => ?_
      · exact h
      · split
        dsimp only
        exact keeps_send h33
    · refine KeepsO.some ?_
      unfold x5
      refine Keeps.foldl ?_ fun u48 z49 h50 => ?_
      · exact h
      · split
        dsimp only
        exact keeps_hostWrite h50
    · extract_lets +onlyGivenNames -merge x63
      exact KeepsO.some (keeps_windowPut (keeps_updateRemote h))
    · exact KeepsO.some h
    · split
      · exact KeepsO.some h
      · exact keeps_clusterWrite h
theorem keeps_wbLost {s t : State} (h : Keeps s t) {a1 a2} : KeepsO s (State.wbLost t a1 a2) := by
  unfold State.wbLost
  split
  · exact KeepsO.some h
  · exact KeepsO.mapS (keeps_clusterWrite h) fun u11 h12 => keeps_dramPoison h12
theorem keeps_drainOne {s t : State} (h : Keeps s t) {a1} : KeepsO s (State.drainOne t a1) := by
  unfold State.drainOne
  split
  · exact KeepsO.some h
  · split
    rename_i e20
    extract_lets +onlyGivenNames -merge x21
    have h22 : Keeps s x21 := keeps_modCluster (KeepsP.eq e20 (keeps_meetArrays h))
    clear_value x21
    split
    · exact keeps_wbPerform h22
    · exact keeps_wbLost h22
theorem keeps_drainN {s t : State} (h : Keeps s t) {a0 a2} : KeepsO s (State.drainN a0 t a2) := by
  induction a0 generalizing t with
  | zero => exact KeepsO.some h
  | succ n ih => exact KeepsO.bindS (keeps_drainOne h) fun _ k => ih k
theorem keeps_drainThrough {s t : State} (h : Keeps s t) {a1 a2} : KeepsO s (State.drainThrough t a1 a2) := by
  unfold State.drainThrough
  extract_lets +onlyGivenNames -merge x1
  exact keeps_drainN h
theorem keeps_drainGroup {s t : State} (h : Keeps s t) {a1} : KeepsO s (State.drainGroup t a1) := by
  unfold State.drainGroup
  exact keeps_drainThrough h
theorem keeps_drainLine {s t : State} (h : Keeps s t) {a1 a2} : KeepsO s (State.drainLine t a1 a2) := by
  unfold State.drainLine
  exact keeps_drainThrough h
theorem keeps_drainAll {s t : State} (h : Keeps s t) {a1} : KeepsO s (State.drainAll t a1) := by
  unfold State.drainAll
  exact keeps_drainN h
theorem keeps_retryMet {s t : State} (h : Keeps s t) : Keeps s (State.retryMet t) := by
  unfold State.retryMet
  exact keeps_count h
theorem keeps_drainOver {s t : State} (h : Keeps s t) {a0 a2} : Keeps s (State.drainOver a0 t a2) := by
  induction a0 generalizing t with
  | zero => exact h
  | succ n ih =>
    simp only [State.drainOver]
    split
    · exact h
    · split
      · rename_i e
        exact ih (KeepsO.eq e (keeps_drainOne h))
      · exact h
theorem keeps_finishLoad {s t : State} (h : Keeps s t) {a1 a2 a3} : Keeps s (State.finishLoad t a1 a2 a3) := by
  unfold State.finishLoad
  extract_lets +onlyGivenNames -merge x1
  clear_value x1
  split
  · extract_lets +onlyGivenNames -merge x8
    exact keeps_takeFault h
  · extract_lets +onlyGivenNames -merge x11
    exact keeps_setGroup h
theorem keeps_loadProgress {s t : State} (h : Keeps s t) {a1 a2 a3} : Keeps s (State.loadProgress t a1 a2 a3) := by
  unfold State.loadProgress
  split
  · exact keeps_finishLoad h
  · exact keeps_setGroup h
theorem keeps_lineArrives {s t : State} (h : Keeps s t) {a1 a2 a3 a4 a5} : Keeps s (State.lineArrives t a1 a2 a3 a4 a5) := by
  unfold State.lineArrives
  refine Keeps.foldl ?_ fun u1 z2 h3 => ?_
  · exact h
  · split
    split
    · extract_lets +onlyGivenNames -merge x14
      exact keeps_takeFault h3
    · exact keeps_loadProgress h3
theorem keeps_regsArrive {s t : State} (h : Keeps s t) {a1 a2} : Keeps s (State.regsArrive t a1 a2) := by
  unfold State.regsArrive
  refine Keeps.foldl ?_ fun u1 z2 h3 => ?_
  · exact h
  · split
    extract_lets +onlyGivenNames -merge x12
    split
    rename_i e20
    refine keeps_loadProgress ?_
    refine KeepsP.eq e20 ?_
    refine KeepsP.foldl ?_ fun u21 z22 h23 => ?_
    · exact KeepsP.mk h3
    · split
      split
      · split
        rename_i e39
        exact KeepsP.mk (KeepsP.eq e39 (keeps_readAt h23))
      · exact KeepsP.mk h23
theorem keeps_askLine {s t : State} (h : Keeps s t) {a1 a2 a3 a4 a5 a6} : Keeps s (State.askLine t a1 a2 a3 a4 a5 a6) := by
  unfold State.askLine
  split
  · split
    · rename_i e14
      exact keeps_fillArrives (KeepsP.eq e14 (keeps_remoteLookup h))
    · rename_i e20
      split
      · exact keeps_windowGet (KeepsP.eq e20 (keeps_remoteLookup h))
      · exact keeps_fillArrives (KeepsP.eq e20 (keeps_remoteLookup h))
  · split
    · exact keeps_hostRead h
    · exact keeps_fillArrives h
  · exact h
theorem keeps_takeLine {s t : State} (h : Keeps s t) {a1 a2 a3 a4 a5 a6 a7} : KeepsP s (State.takeLine t a1 a2 a3 a4 a5 a6 a7) := by
  unfold State.takeLine
  extract_lets +onlyGivenNames -merge x1 x2
  split
  · split
    · exact KeepsP.mk h
    · extract_lets +onlyGivenNames -merge x15
      refine KeepsP.mk ?_
      split
      · exact keeps_keepRemote h
      · exact h
  · split
    · exact KeepsP.mk h
    · extract_lets +onlyGivenNames -merge x34
      refine KeepsP.mk ?_
      split
      · exact keeps_keepRemote h
      · exact h
  · split
    · exact KeepsP.mk h
    · exact KeepsP.mk (keeps_useFree h)
  · exact KeepsP.mk h
  · exact KeepsP.mk h
  · split
    · exact KeepsP.mk h
    · split
      · exact KeepsP.mk (keeps_retryMet h)
      · rename_i e92
        exact KeepsP.mk (KeepsOP.eq e92 (keeps_clusterRead h))
theorem keeps_askMiss {s t : State} (h : Keeps s t) {a1 a2 a3 a4} : KeepsO s (State.askMiss t a1 a2 a3 a4) := by
  unfold State.askMiss
  refine KeepsO.mapS ?_ fun u1 h2 => ?_
  · exact keeps_drainLine h
  · extract_lets +onlyGivenNames -merge x3
    exact keeps_askLine (keeps_modCluster h2)
theorem keeps_sendLater {s t : State} (h : Keeps s t) {a1} : Keeps s (State.sendLater t a1) := by
  unfold State.sendLater
  refine Keeps.foldl ?_ fun u1 z2 h3 => ?_
  · exact h
  · split
    split
    · extract_lets +onlyGivenNames -merge x16
      split
      · exact h3
      · split
        rename_i e28
        refine keeps_setGroup ?_
        refine KeepsP.eq e28 ?_
        refine KeepsP.foldl ?_ fun u29 z30 h31 => ?_
        · exact KeepsP.mk h3
        · unfold x16
          split
          split
          · exact KeepsP.mk h31
          · split
            · exact h31
            · split
              · rename_i e51
                exact KeepsP.mk (KeepsO.eq e51 (keeps_askMiss h31))
              · exact KeepsP.mk h31
    · exact h3
theorem keeps_execL1Fill {s t : State} (h : Keeps s t) {a0 a1} : KeepsA s (execL1Fill a0 a1 t) := by
  unfold execL1Fill
  extract_lets +onlyGivenNames -merge x1 x2
  split
  · exact KeepsA.next (keeps_sendLater h)
  · extract_lets +onlyGivenNames -merge x13
    split
    · refine KeepsA.next ?_
      refine keeps_sendLater ?_
      refine keeps_regsArrive ?_
      unfold x13
      exact keeps_modCluster h
    · split
      · rename_i e23
        exact KeepsA.next (KeepsP.eq e23 (keeps_takeLine h))
      · rename_i e35
        extract_lets +onlyGivenNames -merge x36
        have h37 : Keeps s x36 := by
          unfold x36
          unfold x13
          exact keeps_modCluster (KeepsP.eq e35 (keeps_takeLine h))
        clear_value x36
        extract_lets +onlyGivenNames -merge x38
        have h39 : Keeps s x38 := by
          unfold x38
          split
          · exact keeps_modCluster h37
          · exact h37
        clear_value x38
        exact KeepsA.next (keeps_sendLater (keeps_lineArrives h39))
theorem keeps_dropPrefetches {s t : State} (h : Keeps s t) {a1 a2} : Keeps s (State.dropPrefetches t a1 a2) := by
  unfold State.dropPrefetches
  extract_lets +onlyGivenNames -merge x1
  exact keeps_count (keeps_modCluster h)
theorem keeps_askPrefetch {s t : State} (h : Keeps s t) {a1 a2} : Keeps s (State.askPrefetch t a1 a2) := by
  unfold State.askPrefetch
  extract_lets +onlyGivenNames -merge x1
  split
  · exact keeps_retryMet h
  · rename_i e11
    exact keeps_askLine (keeps_modCluster (KeepsO.eq e11 (keeps_drainLine h)))
theorem keeps_tryPrefetch {s t : State} (h : Keeps s t) {a1 a2} : Keeps s (State.tryPrefetch t a1 a2) := by
  unfold State.tryPrefetch
  extract_lets +onlyGivenNames -merge x1 x2
  split
  · unfold x2
    exact keeps_modCluster h
  · split
    · unfold x1
      exact keeps_modCluster h
    · split
      · rename_i e22
        unfold x1
        exact keeps_modCluster (KeepsP.eq e22 (keeps_translate h))
      · rename_i e28
        unfold x1
        exact keeps_modCluster (keeps_retryMet (KeepsP.eq e28 (keeps_translate h)))
      · rename_i e36
        refine keeps_count ?_
        unfold x2
        exact keeps_modCluster (KeepsP.eq e36 (keeps_translate h))
      · rename_i e48
        extract_lets +onlyGivenNames -merge x49
        have h50 : Keeps s x49 := by
          unfold x49
          unfold x2
          exact keeps_modCluster (KeepsP.eq e48 (keeps_translate h))
        clear_value x49
        extract_lets +onlyGivenNames -merge x51 x52
        split
        · exact h50
        · split
          · exact h50
          · extract_lets +onlyGivenNames -merge x61
            split
            · exact keeps_count h50
            · extract_lets +onlyGivenNames -merge x66 x67
              exact keeps_askPrefetch (keeps_modCluster h50)
theorem keeps_retryPrefetches {s t : State} (h : Keeps s t) {a1} : Keeps s (State.retryPrefetches t a1) := by
  unfold State.retryPrefetches
  exact Keeps.foldl h fun _ _ h3 => keeps_tryPrefetch h3
theorem keeps_execPrefetchFill {s t : State} (h : Keeps s t) {a0 a1} : KeepsA s (execPrefetchFill a0 a1 t) := by
  unfold execPrefetchFill
  extract_lets +onlyGivenNames -merge x1 x2 x3
  have h4 : Keeps s x3 := keeps_retryPrefetches h
  clear_value x3
  split
  · exact KeepsA.next h4
  · split
    · exact KeepsA.next (keeps_askPrefetch h4)
    · extract_lets +onlyGivenNames -merge x19
      split
      · rename_i e25
        exact KeepsA.next (KeepsP.eq e25 (keeps_takeLine h4))
      · rename_i e37
        split
        · extract_lets +onlyGivenNames -merge x40
          have h41 : Keeps s x40 := by
            unfold x40
            unfold x19
            exact keeps_modCluster (KeepsP.eq e37 (keeps_takeLine h4))
          clear_value x40
          extract_lets +onlyGivenNames -merge x42
          have h43 : Keeps s x42 := by
            unfold x42
            split
            · exact keeps_modCluster h41
            · exact h41
          clear_value x42
          exact KeepsA.next (keeps_sendLater (keeps_lineArrives h43))
        · split
          · refine KeepsA.next ?_
            unfold x19
            exact keeps_modCluster (KeepsP.eq e37 (keeps_takeLine h4))
          · exact KeepsA.next (keeps_modCluster (KeepsP.eq e37 (keeps_takeLine h4)))
theorem keeps_execWriteBufferAge {s t : State} (h : Keeps s t) {a0} : KeepsA s (execWriteBufferAge a0 t) := by
  unfold execWriteBufferAge
  exact KeepsA.next (KeepsO.getD (keeps_drainOne h) (keeps_retryMet h))
theorem keeps_execStreamTrackerExpiry {s t : State} (h : Keeps s t) {a0 a1} : KeepsA s (execStreamTrackerExpiry a0 a1 t) := by
  unfold execStreamTrackerExpiry
  exact KeepsA.next (keeps_modAgent h)
theorem keeps_setTile {s t : State} (h : Keeps s t) {a1 a2 a3} : Keeps s (State.setTile t a1 a2 a3) := by
  unfold State.setTile
  exact keeps_modCluster h
theorem keeps_mxPush {s t : State} (h : Keeps s t) {a1 a2 a3 a4} : Keeps s (State.mxPush t a1 a2 a3 a4) := by
  unfold State.mxPush
  exact keeps_setGroup (keeps_modCluster h)
theorem keeps_execMxMma {s t : State} (h : Keeps s t) {a0 a1} : KeepsA s (execMxMma a0 a1 t) := by
  unfold execMxMma
  extract_lets +onlyGivenNames -merge x1 x2 x3
  refine KeepsA.next ?_
  refine keeps_issue ?_ ?_
  · exact h
  · intro y4 y5 y6 y7 y8
    extract_lets +onlyGivenNames -merge x9
    split
    · exact KeepsE.hold y8
    · extract_lets +onlyGivenNames -merge x14 x15 x16 x17 x18
      split
      · exact KeepsE.fault y8
      · split
        · exact KeepsE.fault y8
        · extract_lets +onlyGivenNames -merge x33 x34 x35
          exact KeepsE.done (keeps_mxPush (keeps_setTile y8))
theorem keeps_execMxLdacc {s t : State} (h : Keeps s t) {a0 a1} : KeepsA s (execMxLdacc a0 a1 t) := by
  unfold execMxLdacc
  extract_lets +onlyGivenNames -merge x1 x2
  refine KeepsA.next ?_
  refine keeps_issue ?_ ?_
  · exact h
  · intro y3 y4 y5 y6 y7
    extract_lets +onlyGivenNames -merge x8
    split
    · exact KeepsE.hold y7
    · extract_lets +onlyGivenNames -merge x13 x14 x15 x16 x17 x18
      clear_value x18
      split
      · exact KeepsE.fault y7
      · extract_lets +onlyGivenNames -merge x25 x26
        exact KeepsE.done (keeps_mxPush (keeps_setTile y7))
theorem keeps_flagGroup {s t : State} (h : Keeps s t) {a1 a2} : Keeps s (State.flagGroup t a1 a2) := by
  unfold State.flagGroup
  exact keeps_modGroup h
theorem keeps_mxRun {s t : State} (h : Keeps s t) {a1 a2 a3 a4 a5 a6} : Keeps s (State.mxRun t a1 a2 a3 a4 a5 a6) := by
  unfold State.mxRun
  split
  · extract_lets +onlyGivenNames -merge x17 x18 x19 x20
    split
    extract_lets +onlyGivenNames -merge x29
    have h30 : Keeps s x29 := keeps_flagGroup (keeps_setTile h)
    clear_value x29
    extract_lets +onlyGivenNames -merge x31
    have h32 : Keeps s x31 := keeps_modCluster h30
    clear_value x31
    exact keeps_releaseFreed (keeps_count (keeps_count h32))
  · extract_lets +onlyGivenNames -merge x41 x42 x43 x44
    exact keeps_releaseFreed (keeps_setTile h)
  · extract_lets +onlyGivenNames -merge x57
    have h58 : Keeps s x57 := keeps_count (keeps_count h)
    clear_value x57
    exact keeps_modCluster (keeps_setTile h58)
theorem keeps_mxMeet {s t : State} (h : Keeps s t) {a1 a2} : KeepsP s (State.mxMeet t a1 a2) := by
  unfold State.mxMeet
  split
  · split
    · rename_i e24
      exact KeepsP.mk (KeepsP.eq e24 (keeps_meetScratch h))
    · rename_i e30
      split
      · exact KeepsP.mk (KeepsP.eq e30 (keeps_meetScratch h))
      · exact keeps_meetEntries (KeepsP.eq e30 (keeps_meetScratch h))
  · exact keeps_meetScratch h
  · exact KeepsP.mk h
theorem keeps_execMatrixEngineStart {s t : State} (h : Keeps s t) {a0} : KeepsA s (execMatrixEngineStart a0 t) := by
  unfold execMatrixEngineStart
  refine KeepsA.next ?_
  refine keeps_settleEnds ?_
  split
  · exact h
  · extract_lets +onlyGivenNames -merge x13 x14 x15
    split
    · exact h
    · split
      · rename_i e27
        exact KeepsP.fst (keeps_engineFault (KeepsP.eq e27 (keeps_mxMeet (keeps_modCluster h))))
      · rename_i e33
        exact keeps_mxRun (KeepsP.eq e33 (keeps_mxMeet (keeps_modCluster h)))
theorem keeps_translateLanes {s t : State} (h : Keeps s t) {a1 a2 a3 a4 a5} : KeepsP s (State.translateLanes t a1 a2 a3 a4 a5) := by
  unfold State.translateLanes
  extract_lets +onlyGivenNames -merge x1
  split
  rename_i e13
  split
  · refine KeepsP.mk ?_
    refine KeepsP.eq e13 ?_
    refine KeepsP.foldl ?_ fun u20 z21 h22 => ?_
    · exact KeepsP.mk h
    · unfold x1
      split
      extract_lets +onlyGivenNames -merge x33
      split
      · rename_i e45
        exact KeepsP.mk (KeepsP.eq e45 (keeps_translate h22))
      · rename_i e53
        exact KeepsP.mk (KeepsP.eq e53 (keeps_translate h22))
      · rename_i e59
        exact KeepsP.mk (KeepsP.eq e59 (keeps_translate h22))
      · rename_i e65
        exact KeepsP.mk (KeepsP.eq e65 (keeps_translate h22))
  · refine KeepsP.mk ?_
    refine KeepsP.eq e13 ?_
    refine KeepsP.foldl ?_ fun u68 z69 h70 => ?_
    · exact KeepsP.mk h
    · unfold x1
      split
      extract_lets +onlyGivenNames -merge x81
      split
      · rename_i e93
        exact KeepsP.mk (KeepsP.eq e93 (keeps_translate h70))
      · rename_i e101
        exact KeepsP.mk (KeepsP.eq e101 (keeps_translate h70))
      · rename_i e107
        exact KeepsP.mk (KeepsP.eq e107 (keeps_translate h70))
      · rename_i e113
        exact KeepsP.mk (KeepsP.eq e113 (keeps_translate h70))
theorem keeps_l1Lookup {s t : State} (h : Keeps s t) {a1 a2} : KeepsP s (State.l1Lookup t a1 a2) := by
  unfold State.l1Lookup
  split
  · exact KeepsP.mk h
  · split
    rename_i e12
    extract_lets +onlyGivenNames -merge x13
    have h14 : Keeps s x13 := by
      unfold x13
      split
      · exact KeepsP.eq e12 (keeps_meetArrays h)
      · exact keeps_modCluster (KeepsP.eq e12 (keeps_meetArrays h))
    clear_value x13
    extract_lets +onlyGivenNames -merge x19
    split
    · exact KeepsP.mk (keeps_modCluster h14)
    · split
      · split
        · exact KeepsP.mk (keeps_modCluster h14)
        · exact KeepsP.mk h14
      · exact KeepsP.mk h14
theorem keeps_startLoad {s t : State} (h : Keeps s t) {a1 a2 a3 a4 a5 a6 a7} : KeepsO s (State.startLoad t a1 a2 a3 a4 a5 a6 a7) := by
  unfold State.startLoad
  extract_lets +onlyGivenNames -merge x1
  split
  rename_i e11
  extract_lets +onlyGivenNames -merge x12 x13 x14
  refine KeepsO.mapS ?_ fun u15 h16 => ?_
  · refine KeepsO.foldl ?_ fun u17 z18 h19 => ?_
    · refine KeepsO.some ?_
      refine KeepsP.eq e11 ?_
      refine KeepsP.foldl ?_ fun u20 z21 h22 => ?_
      · exact KeepsP.mk h
      · split
        split
        · rename_i e38
          exact KeepsP.mk (KeepsP.eq e38 (keeps_l1Lookup h22))
        · rename_i e44
          exact KeepsP.mk (KeepsP.eq e44 (keeps_l1Lookup h22))
    · exact KeepsO.bindS h19 fun u45 h46 => keeps_askMiss h46
  · extract_lets +onlyGivenNames -merge x47
    refine keeps_loadProgress ?_
    split
    · exact h16
    · exact keeps_count h16
theorem keeps_memLoad {s t : State} (h : Keeps s t) {a1 a2 a3 a4 a5} : Keeps s (State.memLoad t a1 a2 a3 a4 a5) := by
  unfold State.memLoad
  extract_lets +onlyGivenNames -merge x1
  refine keeps_issue ?_ ?_
  · exact h
  · intro y2 y3 y4 y5 y6
    extract_lets +onlyGivenNames -merge x7
    split
    · exact KeepsE.hold y6
    · split
      · split
        · exact KeepsE.fault y6
        · split
          · rename_i e31
            exact KeepsE.fault (KeepsP.eq e31 (keeps_meetScratch y6))
          · rename_i e37
            extract_lets +onlyGivenNames -merge x38
            exact KeepsE.done (keeps_setGroup (KeepsP.eq e37 (keeps_meetScratch y6)))
      · split
        · exact KeepsE.fault y6
        · split
          · rename_i e58
            exact KeepsE.fault (KeepsP.eq e58 (keeps_translateLanes y6))
          · rename_i e64
            exact keeps_stallIn (KeepsP.eq e64 (keeps_translateLanes y6))
          · rename_i e72
            extract_lets +onlyGivenNames -merge x73 x74
            split
            · exact KeepsE.hold (KeepsP.eq e72 (keeps_translateLanes y6))
            · split
              · rename_i e84
                exact KeepsE.done (KeepsO.eq e84 (keeps_startLoad (KeepsP.eq e72 (keeps_translateLanes y6))))
              · exact KeepsE.hold (keeps_retryMet (KeepsP.eq e72 (keeps_translateLanes y6)))
theorem keeps_execMemLd8 {s t : State} (h : Keeps s t) {a0 a1} : KeepsA s (execMemLd8 a0 a1 t) := by
  unfold execMemLd8
  exact KeepsA.next (keeps_memLoad h)
theorem keeps_execMemLd8u {s t : State} (h : Keeps s t) {a0 a1} : KeepsA s (execMemLd8u a0 a1 t) := by
  unfold execMemLd8u
  exact KeepsA.next (keeps_memLoad h)
theorem keeps_execMemLd16 {s t : State} (h : Keeps s t) {a0 a1} : KeepsA s (execMemLd16 a0 a1 t) := by
  unfold execMemLd16
  exact KeepsA.next (keeps_memLoad h)
theorem keeps_execMemLd16u {s t : State} (h : Keeps s t) {a0 a1} : KeepsA s (execMemLd16u a0 a1 t) := by
  unfold execMemLd16u
  exact KeepsA.next (keeps_memLoad h)
theorem keeps_execMemLd32 {s t : State} (h : Keeps s t) {a0 a1} : KeepsA s (execMemLd32 a0 a1 t) := by
  unfold execMemLd32
  exact KeepsA.next (keeps_memLoad h)
theorem keeps_execMemLd64 {s t : State} (h : Keeps s t) {a0 a1} : KeepsA s (execMemLd64 a0 a1 t) := by
  unfold execMemLd64
  exact KeepsA.next (keeps_memLoad h)
theorem keeps_memStore {s t : State} (h : Keeps s t) {a1 a2 a3 a4} : Keeps s (State.memStore t a1 a2 a3 a4) := by
  unfold State.memStore
  refine keeps_issue ?_ ?_
  · exact h
  · intro y1 y2 y3 y4 y5
    extract_lets +onlyGivenNames -merge x6
    split
    · exact KeepsE.hold y5
    · split
      · split
        · exact KeepsE.fault y5
        · extract_lets +onlyGivenNames -merge x23
          have h24 : Keeps s x23 := Keeps.foldl y5 fun _ _ h27 => keeps_spadStore h27
          clear_value x23
          exact KeepsE.done (keeps_modGroup h24)
      · split
        · exact KeepsE.fault y5
        · split
          · rename_i e47
            exact KeepsE.fault (KeepsP.eq e47 (keeps_translateLanes y5))
          · rename_i e53
            exact keeps_stallIn (KeepsP.eq e53 (keeps_translateLanes y5))
          · rename_i e61
            extract_lets +onlyGivenNames -merge x62
            split
            · exact KeepsE.hold (KeepsP.eq e61 (keeps_translateLanes y5))
            · split
              · exact KeepsE.hold (keeps_count (KeepsP.eq e61 (keeps_translateLanes y5)))
              · extract_lets +onlyGivenNames -merge x71
                exact KeepsE.done (keeps_drainOver (keeps_setGroup (keeps_setCluster (KeepsP.eq e61 (keeps_translateLanes y5)))))
theorem keeps_execMemSt8 {s t : State} (h : Keeps s t) {a0 a1} : KeepsA s (execMemSt8 a0 a1 t) := by
  unfold execMemSt8
  exact KeepsA.next (keeps_memStore h)
theorem keeps_execMemSt16 {s t : State} (h : Keeps s t) {a0 a1} : KeepsA s (execMemSt16 a0 a1 t) := by
  unfold execMemSt16
  exact KeepsA.next (keeps_memStore h)
theorem keeps_execMemSt32 {s t : State} (h : Keeps s t) {a0 a1} : KeepsA s (execMemSt32 a0 a1 t) := by
  unfold execMemSt32
  exact KeepsA.next (keeps_memStore h)
theorem keeps_execMemSt64 {s t : State} (h : Keeps s t) {a0 a1} : KeepsA s (execMemSt64 a0 a1 t) := by
  unfold execMemSt64
  exact KeepsA.next (keeps_memStore h)
theorem keeps_execMemPf {s t : State} (h : Keeps s t) {a0 a1} : KeepsA s (execMemPf a0 a1 t) := by
  unfold execMemPf
  extract_lets +onlyGivenNames -merge x1
  refine KeepsA.next ?_
  refine keeps_issue ?_ ?_
  · exact h
  · intro y2 y3 y4 y5 y6
    extract_lets +onlyGivenNames -merge x7 x8
    exact KeepsE.done (keeps_modGroup (Keeps.foldl y6 fun _ _ h11 => keeps_tryPrefetch h11))
theorem keeps_finishAtomic {s t : State} (h : Keeps s t) {a1 a2 a3 a4} : Keeps s (State.finishAtomic t a1 a2 a3 a4) := by
  unfold State.finishAtomic
  extract_lets +onlyGivenNames -merge x1 x2 x3 x4 x5
  have h6 : Keeps s x5 := keeps_setGroup h
  clear_value x5
  split
  · exact keeps_acquire h6
  · exact h6
theorem keeps_atomicProgress {s t : State} (h : Keeps s t) {a1 a2 a3 a4} : Keeps s (State.atomicProgress t a1 a2 a3 a4) := by
  unfold State.atomicProgress
  split
  · exact keeps_finishAtomic h
  · exact keeps_setGroup h
theorem keeps_atomicSend {s t : State} (h : Keeps s t) {a1 a2 a3 a4 a5} : KeepsOP s (State.atomicSend t a1 a2 a3 a4 a5) := by
  unfold State.atomicSend
  extract_lets +onlyGivenNames -merge x1 x2 x3 x4
  have h5 : Keeps s x4 := by
    unfold x4
    split
    · exact keeps_count (keeps_count h)
    · exact h
  clear_value x4
  split
  · split
    · exact KeepsOP.some (KeepsP.mk h5)
    · extract_lets +onlyGivenNames -merge x20
      exact KeepsOP.some (KeepsP.mk (keeps_windowAtomic h5))
  · split
    · exact KeepsOP.some (KeepsP.mk h5)
    · refine KeepsOP.mapP ?_ fun u35 h36 => ?_
      · exact keeps_adderAtomic h5
      · split
        · exact KeepsP.mk (keeps_dropL1 h36)
        · split <;> exact KeepsP.mk h36
        · exact KeepsP.mk h36
theorem keeps_memAtomic {s t : State} (h : Keeps s t) {a1 a2 a3 a4 a5} : Keeps s (State.memAtomic t a1 a2 a3 a4 a5) := by
  unfold State.memAtomic
  extract_lets +onlyGivenNames -merge x1 x2 x3 x4 x5
  refine keeps_issue ?_ ?_
  · exact h
  · intro y6 y7 y8 y9 y10
    extract_lets +onlyGivenNames -merge x11 x12
    split
    · exact KeepsE.fault y10
    · split
      · rename_i e30
        exact KeepsE.fault (KeepsP.eq e30 (keeps_translateLanes y10))
      · rename_i e36
        exact keeps_stallIn (KeepsP.eq e36 (keeps_translateLanes y10))
      · rename_i e44
        split
        · exact KeepsE.fault (KeepsP.eq e44 (keeps_translateLanes y10))
        · split
          · exact KeepsE.fault (KeepsP.eq e44 (keeps_translateLanes y10))
          · extract_lets +onlyGivenNames -merge x59
            split
            · exact KeepsE.hold (keeps_retryMet (KeepsP.eq e44 (keeps_translateLanes y10)))
            · rename_i e69
              split
              · refine KeepsE.hold ?_
                refine KeepsO.eq e69 ?_
                split
                · exact keeps_drainGroup (KeepsP.eq e44 (keeps_translateLanes y10))
                · exact KeepsO.some (KeepsP.eq e44 (keeps_translateLanes y10))
              · extract_lets +onlyGivenNames -merge x78 x79 x80
                have h81 : KeepsO s x80 := by
                  unfold x80
                  refine KeepsO.foldl ?_ fun u82 z83 h84 => ?_
                  · refine KeepsO.some ?_
                    refine KeepsO.eq e69 ?_
                    split
                    · exact keeps_drainGroup (KeepsP.eq e44 (keeps_translateLanes y10))
                    · exact KeepsO.some (KeepsP.eq e44 (keeps_translateLanes y10))
                  · exact KeepsO.bindS h84 fun u89 h90 => keeps_drainLine h90
                clear_value x80
                extract_lets +onlyGivenNames -merge x91 x92
                have h93 : KeepsOP s x92 := by
                  unfold x92
                  refine KeepsOP.foldl ?_ fun u94 z95 h96 => ?_
                  · exact KeepsOP.mapS h81 fun u97 h98 => KeepsP.mk (keeps_setGroup h98)
                  · refine KeepsOP.bindP ?_ fun u99 h100 => ?_
                    · exact h96
                    · split
                      refine KeepsOP.mapP ?_ fun u109 h110 => ?_
                      · exact keeps_atomicSend h100
                      · split <;> exact KeepsP.mk h110
                clear_value x92
                split
                · refine KeepsE.hold ?_
                  refine keeps_retryMet ?_
                  refine KeepsO.eq e69 ?_
                  split
                  · exact keeps_drainGroup (KeepsP.eq e44 (keeps_translateLanes y10))
                  · exact KeepsO.some (KeepsP.eq e44 (keeps_translateLanes y10))
                · exact KeepsE.fault (h93 _ rfl)
                · split
                  · exact KeepsE.done (h93 _ rfl)
                  · split
                    · exact KeepsE.done (h93 _ rfl)
                    · exact KeepsE.done (keeps_atomicProgress (h93 _ rfl))
theorem keeps_execAtomAdd {s t : State} (h : Keeps s t) {a0 a1 a2 a3} : KeepsA s (execAtomAdd a0 a1 a2 a3 t) := by
  unfold execAtomAdd
  exact KeepsA.next (keeps_memAtomic h)
theorem keeps_execAtomMin {s t : State} (h : Keeps s t) {a0 a1 a2 a3} : KeepsA s (execAtomMin a0 a1 a2 a3 t) := by
  unfold execAtomMin
  exact KeepsA.next (keeps_memAtomic h)
theorem keeps_execAtomMax {s t : State} (h : Keeps s t) {a0 a1 a2 a3} : KeepsA s (execAtomMax a0 a1 a2 a3 t) := by
  unfold execAtomMax
  exact KeepsA.next (keeps_memAtomic h)
theorem keeps_execAtomAnd {s t : State} (h : Keeps s t) {a0 a1 a2 a3} : KeepsA s (execAtomAnd a0 a1 a2 a3 t) := by
  unfold execAtomAnd
  exact KeepsA.next (keeps_memAtomic h)
theorem keeps_execAtomOr {s t : State} (h : Keeps s t) {a0 a1 a2 a3} : KeepsA s (execAtomOr a0 a1 a2 a3 t) := by
  unfold execAtomOr
  exact KeepsA.next (keeps_memAtomic h)
theorem keeps_execAtomXor {s t : State} (h : Keeps s t) {a0 a1 a2 a3} : KeepsA s (execAtomXor a0 a1 a2 a3 t) := by
  unfold execAtomXor
  exact KeepsA.next (keeps_memAtomic h)
theorem keeps_execAtomSwap {s t : State} (h : Keeps s t) {a0 a1 a2 a3} : KeepsA s (execAtomSwap a0 a1 a2 a3 t) := by
  unfold execAtomSwap
  exact KeepsA.next (keeps_memAtomic h)
theorem keeps_execAtomCas {s t : State} (h : Keeps s t) {a0 a1 a2 a3} : KeepsA s (execAtomCas a0 a1 a2 a3 t) := by
  unfold execAtomCas
  exact KeepsA.next (keeps_memAtomic h)
theorem keeps_execCtlExit {s t : State} (h : Keeps s t) {a0 a1} : KeepsA s (execCtlExit a0 a1 t) := by
  unfold execCtlExit
  exact KeepsA.next (keeps_settleEnds (keeps_issueGroup h))
theorem keeps_chooseFree {s t : State} (h : Keeps s t) {a1} : KeepsP s (State.chooseFree t a1) := by
  unfold State.chooseFree
  split
  · exact KeepsP.mk h
  · exact KeepsP.mk h
  · exact KeepsP.mk (keeps_useFree h)
theorem keeps_execFyResv {s t : State} (h : Keeps s t) {a0 a1} : KeepsA s (execFyResv a0 a1 t) := by
  unfold execFyResv
  refine KeepsA.next ?_
  refine keeps_issue ?_ ?_
  · exact h
  · intro y1 y2 y3 y4 y5
    extract_lets +onlyGivenNames -merge x6
    split
    · exact KeepsE.fault y5
    · extract_lets +onlyGivenNames -merge x17 x18
      split
      · exact KeepsE.fault y5
      · split
        · exact KeepsE.fault y5
        · split
          · exact keeps_stallIn y5
          · split
            · rename_i e36
              exact keeps_stallIn (KeepsP.eq e36 (keeps_chooseFree y5))
            · rename_i e44
              extract_lets +onlyGivenNames -merge x45
              have h46 : Keeps s x45 := Keeps.foldl (KeepsP.eq e44 (keeps_chooseFree y5)) fun _ _ h49 => keeps_modKernel h49
              clear_value x45
              extract_lets +onlyGivenNames -merge x50
              exact KeepsE.done (keeps_setGroup h46)
theorem keeps_sendTile {s t : State} (h : Keeps s t) {a1 a2 a3 a4 a5 a6 a7 a8 a9} : Keeps s (State.sendTile t a1 a2 a3 a4 a5 a6 a7 a8 a9) := by
  unfold State.sendTile
  extract_lets +onlyGivenNames -merge x1 x2 x3 x4 x5 x6
  have h7 : Keeps s x6 := keeps_modKernel h
  clear_value x6
  exact keeps_startOp h7
theorem keeps_execFyPush {s t : State} (h : Keeps s t) {a0 a1} : KeepsA s (execFyPush a0 a1 t) := by
  unfold execFyPush
  refine KeepsA.next ?_
  refine keeps_issue ?_ ?_
  · exact h
  · intro y1 y2 y3 y4 y5
    extract_lets +onlyGivenNames -merge x6 x7
    split
    · exact KeepsE.fault y5
    · extract_lets +onlyGivenNames -merge x18 x19 x20
      split
      · exact KeepsE.fault y5
      · split
        · exact KeepsE.fault y5
        · split
          · exact KeepsE.fault y5
          · extract_lets +onlyGivenNames -merge x33
            split
            · exact KeepsE.hold y5
            · rename_i e43
              split
              · split
                · exact KeepsE.hold (KeepsO.eq e43 (keeps_drainGroup y5))
                · extract_lets +onlyGivenNames -merge x50 x51
                  have h52 : Keeps s x51 := Keeps.foldl (KeepsO.eq e43 (keeps_drainGroup y5)) fun _ _ h55 => keeps_sendTile h55
                  clear_value x51
                  exact KeepsE.done (keeps_modGroup h52)
              · split
                · exact KeepsE.hold (KeepsO.eq e43 (keeps_drainGroup y5))
                · extract_lets +onlyGivenNames -merge x62 x63
                  have h64 : Keeps s x63 := Keeps.foldl (KeepsO.eq e43 (keeps_drainGroup y5)) fun _ _ h67 => keeps_modKernel h67
                  clear_value x63
                  exact KeepsE.done (keeps_modGroup h64)
theorem keeps_execFyPop {s t : State} (h : Keeps s t) {a0 a1} : KeepsA s (execFyPop a0 a1 t) := by
  unfold execFyPop
  refine KeepsA.next ?_
  refine keeps_issue ?_ ?_
  · exact h
  · intro y1 y2 y3 y4 y5
    extract_lets +onlyGivenNames -merge x6
    split
    · exact KeepsE.fault y5
    · extract_lets +onlyGivenNames -merge x17 x18 x19
      split
      · exact KeepsE.fault y5
      · split
        · extract_lets +onlyGivenNames -merge x32
          refine KeepsE.done ?_
          unfold x19
          exact keeps_acquire (keeps_setGroup (keeps_modKernel y5))
        · split
          · refine KeepsE.done ?_
            unfold x19
            exact keeps_acquire (keeps_setGroup y5)
          · exact keeps_stallIn y5
theorem keeps_execInEndTimeout {s t : State} (h : Keeps s t) {a0 a1} : KeepsA s (execInEndTimeout a0 a1 t) := by
  unfold execInEndTimeout
  refine KeepsA.next ?_
  split
  · exact h
  · split
    · exact h
    · split
      · exact h
      · refine Keeps.foldl ?_ fun u25 z26 h27 => ?_
        · exact h
        · split
          split
          · extract_lets +onlyGivenNames -merge x40
            split
            · exact keeps_takeFault h27
            · exact h27
          · exact h27
theorem keeps_execFyFree {s t : State} (h : Keeps s t) {a0 a1} : KeepsA s (execFyFree a0 a1 t) := by
  unfold execFyFree
  refine KeepsA.next ?_
  refine keeps_issue ?_ ?_
  · exact h
  · intro y1 y2 y3 y4 y5
    extract_lets +onlyGivenNames -merge x6 x7
    split
    · exact KeepsE.fault y5
    · extract_lets +onlyGivenNames -merge x18 x19
      split
      · exact KeepsE.fault y5
      · split
        · exact KeepsE.fault y5
        · extract_lets +onlyGivenNames -merge x34
          have h35 : Keeps s x34 := by
            unfold x34
            split
            · exact keeps_modKernel y5
            · exact keeps_freeSlot y5
          clear_value x34
          exact KeepsE.done (keeps_modGroup h35)
theorem keeps_execFyClose {s t : State} (h : Keeps s t) {a0 a1} : KeepsA s (execFyClose a0 a1 t) := by
  unfold execFyClose
  refine KeepsA.next ?_
  refine keeps_issue ?_ ?_
  · exact h
  · intro y1 y2 y3 y4 y5
    extract_lets +onlyGivenNames -merge x6
    split
    · exact KeepsE.fault y5
    · extract_lets +onlyGivenNames -merge x17 x18
      have h19 : Keeps s x18 := Keeps.foldl y5 fun _ _ h22 => keeps_modKernel h22
      clear_value x18
      exact KeepsE.done (keeps_settleEnds (keeps_setGroup h19))

end Sys2Proof.Laws
end

