-- ==== Sys2Proof/Laws/KeepsRows.lean ====
section
/-! SUPPORT. What every operation keeps (Laws/Keeps.lean): launch, host, coherence, link, network, dictionary and boot commands. -/
namespace Sys2Proof.Laws
open Sys2Proof.Machine

theorem keeps_ringRead {s t : State} (h : Keeps s t) {a1 a2} : KeepsP s (State.ringRead t a1 a2) := by
  unfold State.ringRead
  extract_lets +onlyGivenNames -merge x1 x2
  split
  · exact KeepsP.mk h
  · split
    · exact KeepsP.mk h
    · split
      · exact KeepsP.mk h
      · rename_i e34
        exact KeepsP.mk (KeepsOP.eq e34 (keeps_hubReadRange h))
theorem keeps_fetchFails {s t : State} (h : Keeps s t) {a1} : Keeps s (State.fetchFails t a1) := by
  unfold State.fetchFails
  exact keeps_modQueue h
theorem keeps_takeRecord {s t : State} (h : Keeps s t) {a1} : Keeps s (State.takeRecord t a1) := by
  unfold State.takeRecord
  extract_lets +onlyGivenNames -merge x1 x2
  have h3 : Keeps s x2 := Keeps.lit (t := t) h rfl rfl rfl
  clear_value x2
  exact keeps_count (keeps_modQueue h3)
theorem keeps_launchHeld {s t : State} (h : Keeps s t) {a1} : Keeps s (State.launchHeld t a1) := by
  unfold State.launchHeld
  exact Keeps.lit (t := t) h rfl rfl rfl
theorem keeps_recordDone {s t : State} (h : Keeps s t) {a1 a2} : Keeps s (State.recordDone t a1 a2) := by
  unfold State.recordDone
  exact keeps_modQueue h
theorem keeps_onRecord {s t : State} (h : Keeps s t) {a1 a2 a3 a4} (k : ∀ u r, Keeps s u → Keeps s (a4 u r)) :
    Keeps s (State.onRecord t a1 a2 a3 a4) := by
  unfold State.onRecord
  split
  · exact h
  · split
    · exact h
    · rename_i e
      exact keeps_fetchFails (KeepsP.eq e (keeps_ringRead h))
    · rename_i e
      split
      · exact k _ _ (KeepsP.eq e (keeps_ringRead h))
      · exact h
theorem keeps_execRecordReread {s t : State} (h : Keeps s t) {a0 a1} : KeepsA s (execRecordReread a0 a1 t) := by
  unfold execRecordReread
  extract_lets +onlyGivenNames -merge x1
  refine KeepsA.next ?_
  split
  · exact h
  · split
    · exact h
    · rename_i e17
      exact keeps_fetchFails (KeepsP.eq e17 (keeps_ringRead h))
    · rename_i e25
      extract_lets +onlyGivenNames -merge x26
      have h27 : Keeps s x26 := keeps_count (KeepsP.eq e25 (keeps_ringRead h))
      clear_value x26
      split
      · exact h27
      · exact keeps_modQueue h27
theorem keeps_execCommandNop {s t : State} (h : Keeps s t) {a0 a1} : KeepsA s (execCommandNop a0 a1 t) := by
  unfold execCommandNop
  extract_lets +onlyGivenNames -merge x1
  exact KeepsA.next (keeps_onRecord h fun _ _ y4 => keeps_recordDone (keeps_takeRecord y4))
theorem keeps_execUndefinedRecord {s t : State} (h : Keeps s t) {a0 a1} : KeepsA s (execUndefinedRecord a0 a1 t) := by
  unfold execUndefinedRecord
  extract_lets +onlyGivenNames -merge x1
  exact KeepsA.next (keeps_onRecord h fun _ _ y4 => keeps_count (keeps_recordDone (keeps_takeRecord y4)))
theorem keeps_settleBubbles {s t : State} (h : Keeps s t) {a1} : KeepsP s (State.settleBubbles t a1) := by
  unfold State.settleBubbles
  extract_lets +onlyGivenNames -merge x1
  split
  · exact KeepsP.mk (keeps_useFree h)
  · exact KeepsP.mk h
theorem keeps_recordWrite {s t : State} (h : Keeps s t) {a1 a2 a3} : KeepsOP s (State.recordWrite t a1 a2 a3) := by
  unfold State.recordWrite
  split
  · exact KeepsOP.some (KeepsP.mk (keeps_hostWrite h))
  · exact KeepsOP.mapS (keeps_hubWriteRange h) fun u13 h14 => KeepsP.mk h14
theorem keeps_completionLost {s t : State} (h : Keeps s t) {a1 a2} : Keeps s (State.completionLost t a1 a2) := by
  unfold State.completionLost
  exact keeps_count (keeps_recordDone (keeps_modQueue h))
theorem keeps_writeDone {s t : State} (h : Keeps s t) {a1} : KeepsO s (State.writeDone t a1) := by
  unfold State.writeDone
  extract_lets +onlyGivenNames -merge x1
  refine KeepsO.mapP ?_ fun u2 h3 => ?_
  · exact keeps_recordWrite h
  · split
    split
    · exact keeps_completionLost h3
    · extract_lets +onlyGivenNames -merge x14
      have h15 : Keeps s x14 := keeps_recordDone h3
      clear_value x14
      split
      · exact keeps_raise h15
      · exact h15
theorem keeps_sendFlush {s t : State} (h : Keeps s t) {a1 a2} : Keeps s (State.sendFlush t a1 a2) := by
  unfold State.sendFlush
  split
  · exact keeps_hostRead h
  · exact h
theorem keeps_finishRecord {s t : State} (h : Keeps s t) {a1 a2} : KeepsF s (State.finishRecord t a1 a2) := by
  unfold State.finishRecord
  extract_lets +onlyGivenNames -merge x1 x2
  split
  · exact KeepsF.later
  · rename_i e12
    exact KeepsF.done (keeps_completionLost (KeepsOP.eq e12 (keeps_recordWrite h)))
  · rename_i e18
    split
    · split
      · exact KeepsF.flushing (keeps_sendFlush (KeepsOP.eq e18 (keeps_recordWrite h)))
      · split
        · exact KeepsF.later
        · rename_i e36
          split
          · exact KeepsF.later
          · rename_i e46
            exact KeepsF.done (KeepsO.eq e46 (keeps_writeDone (KeepsOP.eq e36 (keeps_recordWrite (KeepsOP.eq e18 (keeps_recordWrite h))))))
    · split
      · exact KeepsF.later
      · rename_i e58
        exact KeepsF.done (KeepsO.eq e58 (keeps_writeDone (KeepsOP.eq e18 (keeps_recordWrite h))))
theorem keeps_imagePage {s t : State} (h : Keeps s t) {a1 a2 a3 a4 a5} : KeepsP s (State.imagePage t a1 a2 a3 a4 a5) := by
  unfold State.imagePage
  split
  · rename_i e6
    exact KeepsP.mk (KeepsP.eq e6 (keeps_translateAs h))
  · rename_i e12
    exact KeepsP.mk (KeepsP.eq e12 (keeps_translateAs h))
  · rename_i e20
    exact KeepsP.mk (KeepsP.eq e20 (keeps_translateAs h))
  · rename_i e32
    split
    · split
      · exact KeepsP.mk (KeepsP.eq e32 (keeps_translateAs h))
      · rename_i e56
        exact KeepsP.mk (KeepsOP.eq e56 (keeps_hubReadRange (KeepsP.eq e32 (keeps_translateAs h))))
    · split
      · exact KeepsP.mk (KeepsP.eq e32 (keeps_translateAs h))
      · rename_i e78
        exact KeepsP.mk (KeepsOP.eq e78 (keeps_hubReadRange (KeepsP.eq e32 (keeps_translateAs h))))
    · split
      · exact KeepsP.mk (KeepsP.eq e32 (keeps_translateAs h))
      · rename_i e102
        exact KeepsP.mk (KeepsOP.eq e102 (keeps_hubReadRange (KeepsP.eq e32 (keeps_translateAs h))))
    · exact KeepsP.mk (KeepsP.eq e32 (keeps_translateAs h))
    · exact KeepsP.mk (KeepsP.eq e32 (keeps_translateAs h))
    · exact KeepsP.mk (KeepsP.eq e32 (keeps_translateAs h))
    · exact KeepsP.mk (KeepsP.eq e32 (keeps_translateAs h))
theorem keeps_imageBytes {s t : State} (h : Keeps s t) {a1 a2 a3 a4 a5} : KeepsP s (State.imageBytes t a1 a2 a3 a4 a5) := by
  unfold State.imageBytes
  refine KeepsP.foldl ?_ fun u1 z2 h3 => ?_
  · exact KeepsP.mk h
  · split
    · extract_lets +onlyGivenNames -merge x10
      split
      · rename_i e18
        exact KeepsP.mk (KeepsP.eq e18 (keeps_imagePage h3))
      · exact keeps_imagePage h3
    · exact h3
theorem keeps_readImage {s t : State} (h : Keeps s t) {a1 a2 a3 a4} : KeepsP s (State.readImage t a1 a2 a3 a4) := by
  unfold State.readImage
  split
  · exact KeepsP.mk h
  · split
    · rename_i e12
      split
      · exact KeepsP.mk (KeepsP.eq e12 (keeps_imageBytes h))
      · split
        · rename_i e24
          exact KeepsP.mk (KeepsP.eq e24 (keeps_imageBytes (KeepsP.eq e12 (keeps_imageBytes h))))
        · exact keeps_imageBytes (KeepsP.eq e12 (keeps_imageBytes h))
    · exact keeps_imageBytes h
theorem keeps_latch {s t : State} (h : Keeps s t) {a1 a2} : Keeps s (State.latch t a1 a2) := by
  unfold State.latch
  exact Keeps.lit (t := t) h rfl rfl rfl
theorem keeps_layout {s t : State} (h : Keeps s t) {a1} : KeepsP s (State.layout t a1) := by
  unfold State.layout
  refine KeepsP.foldl ?_ fun u1 z2 h3 => ?_
  · exact KeepsP.mk h
  · extract_lets +onlyGivenNames -merge x4 x5
    split
    refine KeepsP.mk ?_
    extract_lets +onlyGivenNames -merge x14
    have h15 : Keeps s x14 := KeepsP.fst h3
    clear_value x14
    exact Keeps.lit (t := x14) h15 rfl rfl rfl
theorem keeps_takeTallies {s t : State} (h : Keeps s t) {a1 a2} : KeepsP s (State.takeTallies t a1 a2) := by
  unfold State.takeTallies
  refine KeepsP.foldl ?_ fun u1 z2 h3 => ?_
  · exact KeepsP.mk h
  · extract_lets +onlyGivenNames -merge x4
    split
    · exact KeepsP.mk (KeepsP.fst h3)
    · extract_lets +onlyGivenNames -merge x9 x10 x11 x12
      exact KeepsP.mk (keeps_setTally (keeps_useFree (KeepsP.fst h3)))
theorem keeps_moorWays {s t : State} (h : Keeps s t) {a1 a2} : Keeps s (State.moorWays t a1 a2) := by
  unfold State.moorWays
  exact Keeps.foldl h fun _ _ h3 => Keeps.foldl h3 fun _ _ h6 => keeps_modAgent h6
theorem keeps_startCluster {s t : State} (h : Keeps s t) {a1 a2 a3 a4 a5 a6} : Keeps s (State.startCluster t a1 a2 a3 a4 a5 a6) := by
  unfold State.startCluster
  extract_lets +onlyGivenNames -merge x1 x2 x3
  have h4 : Keeps s x3 := keeps_invalidateL1 h
  clear_value x3
  extract_lets +onlyGivenNames -merge x5
  have h6 : Keeps s x5 := keeps_modCluster h4
  clear_value x5
  exact Keeps.foldl h6 fun _ _ h9 => keeps_setGroup h9
theorem keeps_startFerries {s t : State} (h : Keeps s t) {a1 a2} : Keeps s (State.startFerries t a1 a2) := by
  unfold State.startFerries
  refine Keeps.foldl ?_ fun u1 z2 h3 => ?_
  · exact h
  · extract_lets +onlyGivenNames -merge x4 x5
    split
    · split
      · exact h3
      · exact Keeps.lit (t := u1) h3 rfl rfl rfl
    · split
      · exact Keeps.foldl h3 fun _ _ h18 => keeps_ferrySend h18
      · exact h3
theorem keeps_bindGroups {s t : State} (h : Keeps s t) {a1 a2} : KeepsP s (State.bindGroups t a1 a2) := by
  unfold State.bindGroups
  extract_lets +onlyGivenNames -merge x1
  exact KeepsP.mk (keeps_bind h)
theorem keeps_accept {s t : State} (h : Keeps s t) {a1 a2} : Keeps s (State.accept t a1 a2) := by
  unfold State.accept
  extract_lets +onlyGivenNames -merge x1 x2 x3
  have h4 : Keeps s x3 := Keeps.lit (t := t) h rfl rfl rfl
  clear_value x3
  extract_lets +onlyGivenNames -merge x5
  have h6 : Keeps s x5 := Keeps.foldl h4 fun _ _ h9 => keeps_latch h9
  clear_value x5
  split
  rename_i e17
  split
  rename_i e25
  split
  rename_i e33
  extract_lets +onlyGivenNames -merge x34 x35
  have h36 : Keeps s x35 := Keeps.foldl (KeepsP.eq e33 (keeps_bindGroups (KeepsP.eq e25 (keeps_takeTallies (KeepsP.eq e17 (keeps_layout h6)))))) fun _ _ h39 => keeps_dropRemote h39
  clear_value x35
  extract_lets +onlyGivenNames -merge x40
  have h41 : Keeps s x40 := keeps_setKernel (keeps_moorWays h36)
  clear_value x40
  extract_lets +onlyGivenNames -merge x42
  have h43 : Keeps s x42 := Keeps.foldl h41 fun _ _ h46 => Keeps.foldl h46 fun _ _ h49 => keeps_startCluster h49
  clear_value x42
  extract_lets +onlyGivenNames -merge x50
  have h51 : Keeps s x50 := keeps_count (keeps_count (keeps_startFerries h43))
  clear_value x50
  exact keeps_powerSettle (keeps_modKernel h51)
theorem keeps_refuse {s t : State} (h : Keeps s t) {a1 a2 a3} : KeepsO s (State.refuse t a1 a2 a3) := by
  unfold State.refuse
  extract_lets +onlyGivenNames -merge x1 x2 x3
  have h4 : Keeps s x3 := keeps_setCounter (keeps_setCounter (keeps_count h))
  clear_value x3
  split
  · exact KeepsO.none
  · rename_i e14
    exact KeepsO.some (KeepsF.eqDone e14 (keeps_finishRecord h4))
  · rename_i v19 e20
    refine KeepsO.some ?_
    refine keeps_setKernel ?_
    exact Keeps.lit (t := v19) (KeepsF.eqFlushing e20 (keeps_finishRecord h4)) rfl rfl rfl
theorem keeps_launch {s t0 t : State} (h0 : Keeps s t0) (h : Keeps s t) {k r given} : Keeps s (State.launch t0 t k r given) := by
  unfold State.launch
  extract_lets p d ctx
  split
  · rename_i e
    exact keeps_launchHeld (KeepsP.eq e (keeps_translateAs h))
  · exact keeps_launchHeld h0
  · rename_i e
    exact keeps_completionLost (keeps_takeRecord (KeepsP.eq e (keeps_translateAs h)))
  · rename_i e
    have hu := KeepsP.eq e (keeps_translateAs h)
    extract_lets bad kn
    split
    · exact keeps_completionLost (keeps_takeRecord hu)
    · split
      · exact KeepsO.getD (keeps_refuse (keeps_takeRecord hu)) (keeps_launchHeld h0)
      · split
        · rename_i e
          exact keeps_launchHeld (KeepsP.eq e (keeps_readImage hu))
        · rename_i e
          exact KeepsO.getD (keeps_refuse (keeps_takeRecord (KeepsP.eq e (keeps_readImage hu)))) (keeps_launchHeld h0)
        · rename_i e
          have hv := KeepsP.eq e (keeps_readImage hu)
          split
          · exact KeepsO.getD (keeps_refuse (keeps_takeRecord hv)) (keeps_launchHeld h0)
          · exact keeps_accept (keeps_takeRecord hv)
theorem keeps_execLaunch {s t : State} (h : Keeps s t) {a0 a1 a2} : KeepsA s (execLaunch a0 a1 a2 t) := by
  unfold execLaunch
  extract_lets +onlyGivenNames -merge x1
  exact KeepsA.next (keeps_onRecord h fun _ _ y4 => keeps_launch h y4)
theorem keeps_execInvalidationComplete {s t : State} (h : Keeps s t) {a0} : KeepsA s (execInvalidationComplete a0 t) := by
  unfold execInvalidationComplete
  refine KeepsA.next ?_
  split
  · exact h
  · split
    · exact h
    · split
      · exact h
      · rename_i e
        have hu := KeepsO.eq e (KeepsO.foldl (KeepsO.some h) fun _ _ k => KeepsO.bindS k fun _ m => keeps_drainAll m)
        extract_lets u
        exact keeps_count (keeps_modXl (keeps_dropTranslations hu))
theorem keeps_endFerries {s t : State} (h : Keeps s t) {a1 a2} : Keeps s (State.endFerries t a1 a2) := by
  unfold State.endFerries
  extract_lets +onlyGivenNames -merge x1
  have h2 : Keeps s x1 := by
    unfold x1
    split
    · exact h
    · refine Keeps.foldl ?_ fun u7 z8 h9 => ?_
      · exact h
      · split
        · exact keeps_ferrySend h9
        · exact h9
  clear_value x1
  extract_lets +onlyGivenNames -merge x14
  exact Keeps.lit (t := x1) h2 rfl rfl rfl
theorem keeps_freeKernel {s t : State} (h : Keeps s t) {a1 a2} : Keeps s (State.freeKernel t a1 a2) := by
  unfold State.freeKernel
  extract_lets +onlyGivenNames -merge x1
  have h2 : Keeps s x1 := by
    unfold x1
    split
    · exact h
    · exact Keeps.foldl h fun _ _ h9 => keeps_count h9
  clear_value x1
  extract_lets +onlyGivenNames -merge x10
  have h11 : Keeps s x10 := keeps_endFerries h2
  clear_value x10
  extract_lets +onlyGivenNames -merge x12
  have h13 : Keeps s x12 := keeps_unbind h11
  clear_value x12
  extract_lets +onlyGivenNames -merge x14
  have h15 : Keeps s x14 := Keeps.foldl h13 fun _ _ h18 => keeps_modCluster h18
  clear_value x14
  extract_lets +onlyGivenNames -merge x19
  have h20 : Keeps s x19 := Keeps.foldl h15 fun _ _ h23 => keeps_modAgent h23
  clear_value x19
  refine keeps_powerSettle ?_
  exact Keeps.lit (t := x19) h20 rfl rfl rfl
theorem keeps_drainKernel {s t : State} (h : Keeps s t) {a1} : KeepsO s (State.drainKernel t a1) := by
  unfold State.drainKernel
  exact KeepsO.foldl (KeepsO.some h) fun _ _ h3 => KeepsO.bindS h3 fun u4 h5 => keeps_drainAll h5
theorem keeps_failRemote {s t : State} (h : Keeps s t) {a1 a2} : Keeps s (State.failRemote t a1 a2) := by
  unfold State.failRemote
  split
  · exact keeps_remoteIncomplete h
  · exact h
theorem keeps_execKernelCompletion {s t : State} (h : Keeps s t) {a0} : KeepsA s (execKernelCompletion a0 t) := by
  unfold execKernelCompletion
  refine KeepsA.next ?_
  split
  · exact h
  · split
    · exact h
    · split
      · exact h
      · rename_i e24
        split
        · exact KeepsO.eq e24 (keeps_drainKernel h)
        · extract_lets +onlyGivenNames -merge x29
          have h30 : Keeps s x29 := Keeps.foldl (KeepsO.eq e24 (keeps_drainKernel h)) fun _ _ h33 => keeps_settleEnds h33
          clear_value x29
          extract_lets +onlyGivenNames -merge x34
          have h35 : Keeps s x34 := keeps_failRemote h30
          clear_value x34
          split
          rename_i e43
          split
          · exact keeps_freeKernel (KeepsP.eq e43 (keeps_settleBubbles h35))
          · split
            · exact KeepsO.eq e24 (keeps_drainKernel h)
            · rename_i e57
              exact keeps_freeKernel (KeepsF.eqDone e57 (keeps_finishRecord (KeepsP.eq e43 (keeps_settleBubbles h35))))
            · rename_i e63
              exact keeps_setKernel (KeepsF.eqFlushing e63 (keeps_finishRecord (KeepsP.eq e43 (keeps_settleBubbles h35))))
theorem keeps_flushEnds {s t : State} (h : Keeps s t) {a1 a2 a3} : KeepsO s (State.flushEnds t a1 a2 a3) := by
  unfold State.flushEnds
  extract_lets +onlyGivenNames -merge x1
  have h2 : KeepsOP s x1 := by
    unfold x1
    split
    · exact KeepsOP.some (KeepsP.mk h)
    · exact keeps_recordWrite h
  clear_value x1
  refine KeepsO.bindP ?_ fun u7 h8 => ?_
  · exact h2
  · split
    split
    · exact KeepsO.some (keeps_freeKernel (keeps_completionLost h8))
    · exact KeepsO.mapS (keeps_writeDone h8) fun u19 h20 => keeps_freeKernel h20
theorem keeps_takeFlush {s t : State} (h : Keeps s t) {a1} : KeepsO s (State.takeFlush t a1) := by
  unfold State.takeFlush
  extract_lets +onlyGivenNames -merge x1
  refine KeepsO.map fun u2 => ?_
  refine keeps_nextRead ?_
  exact Keeps.lit (t := t) h rfl rfl rfl
theorem keeps_execPeerFlushReadDone {s t : State} (h : Keeps s t) {a0 a1} : KeepsA s (execPeerFlushReadDone a0 a1 t) := by
  unfold execPeerFlushReadDone
  refine KeepsA.next ?_
  split
  · exact h
  · split
    · exact h
    · exact KeepsO.getD (KeepsO.bindS (keeps_takeFlush h) fun u15 h16 => keeps_flushEnds h16) h
theorem keeps_modPort {s t : State} (h : Keeps s t) {a1 a2} : Keeps s (State.modPort t a1 a2) := by
  unfold State.modPort
  exact Keeps.lit (t := t) h rfl rfl rfl
theorem keeps_unsupported {s t : State} (h : Keeps s t) {a1} : Keeps s (State.unsupported t a1) := by
  unfold State.unsupported
  extract_lets +onlyGivenNames -merge x1 x2
  have h3 : Keeps s x2 := keeps_send h
  clear_value x2
  split
  · exact keeps_modFn h3
  · exact h3
theorem keeps_execBar4Read {s t : State} (h : Keeps s t) {a0 a1 a2} : KeepsA s (execBar4Read a0 a1 a2 t) := by
  unfold execBar4Read
  refine KeepsA.next ?_
  split
  · exact keeps_unsupported h
  · split
    · exact h
    · rename_i e26
      split
      · exact keeps_unsupported (KeepsOP.eq e26 (keeps_hubReadRange h))
      · exact keeps_send (KeepsOP.eq e26 (keeps_hubReadRange h))
theorem keeps_execBar4Write {s t : State} (h : Keeps s t) {a0 a1 a2} : KeepsA s (execBar4Write a0 a1 a2 t) := by
  unfold execBar4Write
  refine KeepsA.next ?_
  split
  · exact h
  · exact KeepsO.getD (keeps_hubWriteRange h) h
theorem keeps_pcieAtomic {s t : State} (h : Keeps s t) {a1 a2 a3 a4 a5 a6} : Keeps s (State.pcieAtomic t a1 a2 a3 a4 a5 a6) := by
  unfold State.pcieAtomic
  extract_lets +onlyGivenNames -merge x1
  split
  · exact keeps_unsupported h
  · split
    · exact keeps_unsupported h
    · split
      · exact h
      · rename_i e33
        exact keeps_send (KeepsOP.eq e33 (keeps_adderAtomic h))
      · rename_i e39
        exact keeps_send (keeps_useFree (KeepsOP.eq e39 (keeps_adderAtomic h)))
      · rename_i e45
        exact keeps_unsupported (KeepsOP.eq e45 (keeps_adderAtomic h))
theorem keeps_execAtomicopFetchadd {s t : State} (h : Keeps s t) {a0 a1 a2 a3} : KeepsA s (execAtomicopFetchadd a0 a1 a2 a3 t) := by
  unfold execAtomicopFetchadd
  exact KeepsA.next (keeps_pcieAtomic h)
theorem keeps_execAtomicopSwap {s t : State} (h : Keeps s t) {a0 a1 a2 a3} : KeepsA s (execAtomicopSwap a0 a1 a2 a3 t) := by
  unfold execAtomicopSwap
  exact KeepsA.next (keeps_pcieAtomic h)
theorem keeps_execAtomicopCas {s t : State} (h : Keeps s t) {a0 a1 a2 a3 a4} : KeepsA s (execAtomicopCas a0 a1 a2 a3 a4 t) := by
  unfold execAtomicopCas
  exact KeepsA.next (keeps_pcieAtomic h)
theorem keeps_sendPage {s t : State} (h : Keeps s t) {a1} : Keeps s (State.sendPage t a1) := by
  unfold State.sendPage
  split
  · exact h
  · extract_lets +onlyGivenNames -merge x11 x12 x13 x14
    have h15 : Keeps s x14 := Keeps.lit (t := t) h rfl rfl rfl
    clear_value x14
    split
    · exact keeps_send (keeps_count h15)
    · exact h15
theorem keeps_sendQueued {s t : State} (h : Keeps s t) {a1 a2} : Keeps s (State.sendQueued t a1 a2) := by
  unfold State.sendQueued
  refine Keeps.foldl ?_ fun u1 z2 h3 => ?_
  · exact h
  · split
    · exact keeps_sendPage h3
    · exact h3
theorem keeps_hostFault {s t : State} (h : Keeps s t) {a1 a2 a3} : Keeps s (State.hostFault t a1 a2 a3) := by
  unfold State.hostFault
  extract_lets +onlyGivenNames -merge x1
  split
  · split
    · exact keeps_dropPrefetches h
    · exact h
  · split
    · split
      · split
        · exact keeps_takeFault (keeps_useFree h)
        · exact keeps_takeFault h
      · exact h
    · split
      · exact KeepsP.fst (keeps_engineFault h)
      · exact h
theorem keeps_failXlate {s t : State} (h : Keeps s t) {a1} : Keeps s (State.failXlate t a1) := by
  unfold State.failXlate
  extract_lets +onlyGivenNames -merge x1 x2 x3
  refine Keeps.foldl ?_ fun u4 z5 h6 => ?_
  · exact Keeps.lit (t := t) h rfl rfl rfl
  · exact keeps_hostFault h6
theorem keeps_execAtsTranslationCompletion {s t : State} (h : Keeps s t) {a0 a1 a2} : KeepsA s (execAtsTranslationCompletion a0 a1 a2 t) := by
  unfold execAtsTranslationCompletion
  refine KeepsA.next ?_
  split
  · exact h
  · split
    · split
      · exact keeps_failXlate h
      · exact keeps_sendPage h
    · split
      · exact keeps_failXlate h
      · extract_lets +onlyGivenNames -merge x23 x24 x25 x26 x27
        refine Keeps.foldl ?_ fun u28 z29 h30 => ?_
        · exact Keeps.lit (t := t) h rfl rfl rfl
        · exact keeps_dtlbPut h30
theorem keeps_execPrgResponseSuccess {s t : State} (h : Keeps s t) {a0 a1} : KeepsA s (execPrgResponseSuccess a0 a1 t) := by
  unfold execPrgResponseSuccess
  refine KeepsA.next ?_
  split
  · exact h
  · extract_lets +onlyGivenNames -merge x11 x12 x13
    have h14 : Keeps s x13 := Keeps.lit (t := t) h rfl rfl rfl
    clear_value x13
    exact keeps_sendQueued (keeps_send (keeps_count h14))
theorem keeps_pageFails {s t : State} (h : Keeps s t) {a1 a2 a3} : Keeps s (State.pageFails t a1 a2 a3) := by
  unfold State.pageFails
  split
  · exact h
  · split
    · extract_lets +onlyGivenNames -merge x13
      have h14 : Keeps s x13 := keeps_failXlate (keeps_modFn h)
      clear_value x13
      exact Keeps.foldl h14 fun _ _ h17 => keeps_failXlate h17
    · exact keeps_sendQueued (keeps_failXlate h)
theorem keeps_execPrgResponseInvalidRequest {s t : State} (h : Keeps s t) {a0 a1} : KeepsA s (execPrgResponseInvalidRequest a0 a1 t) := by
  unfold execPrgResponseInvalidRequest
  exact KeepsA.next (keeps_pageFails h)
theorem keeps_execPrgResponseFailure {s t : State} (h : Keeps s t) {a0 a1} : KeepsA s (execPrgResponseFailure a0 a1 t) := by
  unfold execPrgResponseFailure
  exact KeepsA.next (keeps_pageFails h)
theorem keeps_execPriResponseTimeout {s t : State} (h : Keeps s t) {a0 a1} : KeepsA s (execPriResponseTimeout a0 a1 t) := by
  unfold execPriResponseTimeout
  exact KeepsA.next (keeps_pageFails h)
theorem keeps_dropHostEntries {s t : State} (h : Keeps s t) {a1} : Keeps s (State.dropHostEntries t a1) := by
  unfold State.dropHostEntries
  extract_lets +onlyGivenNames -merge x1
  exact Keeps.lit (t := t) h rfl rfl rfl
theorem keeps_execAtsInvalidationRequest {s t : State} (h : Keeps s t) {a0 a1 a2 a3} : KeepsA s (execAtsInvalidationRequest a0 a1 a2 a3 t) := by
  unfold execAtsInvalidationRequest
  extract_lets +onlyGivenNames -merge x1 x2 x3
  refine KeepsA.next ?_
  split
  · exact h
  · rename_i e13
    extract_lets +onlyGivenNames -merge x14
    have h15 : Keeps s x14 := keeps_count (keeps_dropHostEntries (KeepsO.eq e13 (KeepsO.foldl (KeepsO.some h) fun _ _ h18 => KeepsO.bindS h18 fun u19 h20 => keeps_drainAll h20)))
    clear_value x14
    extract_lets +onlyGivenNames -merge x21
    have h22 : Keeps s x21 := keeps_reask h15
    clear_value x21
    split
    · exact keeps_send h22
    · exact Keeps.lit (t := x21) h22 rfl rfl rfl
theorem keeps_invalEnds {s t : State} (h : Keeps s t) {a1 a2} : Keeps s (State.invalEnds t a1 a2) := by
  unfold State.invalEnds
  extract_lets +onlyGivenNames -merge x1 x2 x3
  have h4 : Keeps s x3 := Keeps.lit (t := t) h rfl rfl rfl
  clear_value x3
  exact Keeps.foldl h4 fun _ _ h7 => keeps_send h7
theorem keeps_readEnds {s t : State} (h : Keeps s t) {a1 a2 a3} : KeepsO s (State.readEnds t a1 a2 a3) := by
  unfold State.readEnds
  extract_lets +onlyGivenNames -merge x1 x2
  have h3 : Keeps s x2 := Keeps.lit (t := t) h rfl rfl rfl
  clear_value x2
  extract_lets +onlyGivenNames -merge x4
  have h5 : Keeps s x4 := keeps_invalEnds (keeps_nextRead h3)
  clear_value x4
  split
  · split
    · exact keeps_flushEnds h5
    · exact KeepsO.some h5
  · exact KeepsO.some (keeps_hostArrives h5)
theorem keeps_execHostWindowReadCompletion {s t : State} (h : Keeps s t) {a0 a1 a2} : KeepsA s (execHostWindowReadCompletion a0 a1 a2 t) := by
  unfold execHostWindowReadCompletion
  refine KeepsA.next ?_
  split
  · exact h
  · split <;> exact KeepsO.getD (keeps_readEnds h) h
theorem keeps_rootError {s t : State} (h : Keeps s t) {a1 a2} : Keeps s (State.rootError t a1 a2) := by
  unfold State.rootError
  exact keeps_event h
theorem keeps_execCompletionTimeout {s t : State} (h : Keeps s t) {a0 a1} : KeepsA s (execCompletionTimeout a0 a1 t) := by
  unfold execCompletionTimeout
  extract_lets +onlyGivenNames -merge x1
  refine KeepsA.next ?_
  split
  · exact h
  · extract_lets +onlyGivenNames -merge x12
    have h13 : Keeps s x12 := by
      unfold x12
      split
      · exact keeps_rootError h
      · exact keeps_modFn h
    clear_value x12
    exact KeepsO.getD (keeps_readEnds h13) h
theorem keeps_resetFn {s t : State} (h : Keeps s t) {a1 a2} : Keeps s (State.resetFn t a1 a2) := by
  unfold State.resetFn
  extract_lets +onlyGivenNames -merge x1 x2
  have h3 : Keeps s x2 := keeps_setFn h
  clear_value x2
  exact keeps_setMailbox h3
theorem keeps_takeBar4 {s t : State} (h : Keeps s t) {a1} : Keeps s (State.takeBar4 t a1) := by
  unfold State.takeBar4
  exact keeps_modPort h
theorem keeps_resetFns {s t : State} (h : Keeps s t) {a1 a2 a3} : Keeps s (State.resetFns t a1 a2 a3) := by
  unfold State.resetFns
  extract_lets +onlyGivenNames -merge x1 x2 x3
  have h4 : Keeps s x3 := Keeps.lit (t := t) h rfl rfl rfl
  clear_value x3
  extract_lets +onlyGivenNames -merge x5
  have h6 : Keeps s x5 := Keeps.foldl h4 fun _ _ h9 => keeps_resetFn h9
  clear_value x5
  extract_lets +onlyGivenNames -merge x10
  have h11 : Keeps s x10 := Keeps.foldl h6 fun _ _ h14 => keeps_modQueue h14
  clear_value x10
  extract_lets +onlyGivenNames -merge x15
  have h16 : Keeps s x15 := keeps_dropHostEntries h11
  clear_value x15
  extract_lets +onlyGivenNames -merge x17
  have h18 : Keeps s x17 := Keeps.foldl h16 fun _ _ h21 => keeps_failXlate h21
  clear_value x17
  exact Keeps.foldl h18 fun _ _ h24 => keeps_raise h24
theorem keeps_endReads {s t : State} (h : Keeps s t) {a1} : Keeps s (State.endReads t a1) := by
  unfold State.endReads
  exact Keeps.foldl h fun _ _ h3 => KeepsO.getD (keeps_readEnds h3) h3
theorem keeps_hostReset {s t : State} (h : Keeps s t) {a1 a2} : Keeps s (State.hostReset t a1 a2) := by
  unfold State.hostReset
  split
  · split
    · exact keeps_event (keeps_endReads (keeps_modPort h))
    · exact h
  · split
    · exact h
    · extract_lets +onlyGivenNames -merge x13 x14
      have h15 : Keeps s x14 := Keeps.lit (t := t) h rfl rfl rfl
      clear_value x14
      extract_lets +onlyGivenNames -merge x16
      have h17 : Keeps s x16 := keeps_takeBar4 (keeps_endReads (keeps_modPort h15))
      clear_value x16
      exact keeps_count (keeps_count (keeps_resetFns h17))
theorem keeps_execHostReset {s t : State} (h : Keeps s t) {a0 a1} : KeepsA s (execHostReset a0 a1 t) := by
  unfold execHostReset
  exact KeepsA.next (keeps_hostReset h)
theorem keeps_execFlr {s t : State} (h : Keeps s t) {a0} : KeepsA s (execFlr a0 t) := by
  unfold execFlr
  refine KeepsA.next ?_
  split
  · exact h
  · split <;> exact keeps_resetFns h
theorem keeps_execPcieLinkUp {s t : State} (h : Keeps s t) {a0 a1 a2} : KeepsA s (execPcieLinkUp a0 a1 a2 t) := by
  unfold execPcieLinkUp
  refine KeepsA.next ?_
  split
  · exact h
  · exact keeps_deliverAll (keeps_modPort h)
theorem keeps_execRootPortInboundRequest {s t : State} (h : Keeps s t) {a0 a1} : KeepsA s (execRootPortInboundRequest a0 a1 t) := by
  unfold execRootPortInboundRequest
  extract_lets +onlyGivenNames -merge x1
  refine KeepsA.next ?_
  split
  · exact h
  · split
    · split
      · split
        · exact h
        · rename_i e29
          split
          · exact keeps_rootError (keeps_send (KeepsOP.eq e29 (keeps_hubReadRange h)))
          · exact keeps_send (KeepsOP.eq e29 (keeps_hubReadRange h))
      · exact keeps_rootError (keeps_send h)
    · split
      · exact KeepsO.getD (keeps_hubWriteRange h) h
      · split
        · exact keeps_intSend h
        · exact keeps_rootError (keeps_send h)
    · exact keeps_rootError (keeps_send h)
theorem keeps_execRootPortRetrain {s t : State} (h : Keeps s t) {a0 a1} : KeepsA s (execRootPortRetrain a0 a1 t) := by
  unfold execRootPortRetrain
  refine KeepsA.next ?_
  split
  · exact keeps_deliverAll (keeps_modPort h)
  · exact h
theorem keeps_resizeBar4 {s t : State} (h : Keeps s t) {a1 a2 a3} : Keeps s (State.resizeBar4 t a1 a2 a3) := by
  unfold State.resizeBar4
  split
  · exact keeps_modFn h
  · exact h
theorem keeps_cfgWrite {s t : State} (h : Keeps s t) {a1 a2 a3 a4} : Keeps s (State.cfgWrite t a1 a2 a3 a4) := by
  unfold State.cfgWrite
  extract_lets +onlyGivenNames -merge x1 x2
  split
  · exact h
  · extract_lets +onlyGivenNames -merge x15 x16 x17
    have h18 : Keeps s x17 := keeps_modFn h
    clear_value x17
    extract_lets +onlyGivenNames -merge x19 x20 x21
    have h22 : Keeps s x21 := by
      unfold x21
      split
      · exact keeps_resizeBar4 h18
      · split
        · exact Keeps.foldl h18 fun _ _ h31 => keeps_resizeBar4 h31
        · exact h18
    clear_value x21
    exact keeps_deliverAll (keeps_sendQueued h22)
theorem keeps_execConfigurationRequest {s t : State} (h : Keeps s t) {a0 a1 a2} : KeepsA s (execConfigurationRequest a0 a1 a2 t) := by
  unfold execConfigurationRequest
  extract_lets +onlyGivenNames -merge x1
  refine KeepsA.next ?_
  split
  · exact keeps_unsupported h
  · split
    · split
      · exact keeps_send h
      · exact keeps_send (keeps_useFree h)
    · exact keeps_send (keeps_cfgWrite h)
theorem keeps_cohSend {s t : State} (h : Keeps s t) {a1 a2 a3 a4 a5 a6 a7 a8 a9 a10} : Keeps s (State.cohSend t a1 a2 a3 a4 a5 a6 a7 a8 a9 a10) := by
  unfold State.cohSend
  exact keeps_send h
theorem keeps_homeAnswer {s t : State} (h : Keeps s t) {a1} : Keeps s (State.homeAnswer t a1) := by
  unfold State.homeAnswer
  split
  · exact h
  · extract_lets +onlyGivenNames -merge x11 x12 x13
    split
    · unfold x12
      extract_lets +onlyGivenNames -merge x16
      have h17 : Keeps s x16 := by
        unfold x16
        split
        · exact keeps_setTxn h
        · exact h
      clear_value x16
      split <;> exact keeps_cohSend h17
    · split
      · extract_lets +onlyGivenNames -merge x44
        have h45 : Keeps s x44 := keeps_homeComplete h
        clear_value x44
        extract_lets +onlyGivenNames -merge x46
        unfold x12
        extract_lets +onlyGivenNames -merge x47
        have h48 : Keeps s x47 := by
          unfold x47
          split
          · refine keeps_setTxn ?_
            split
            · exact h45
            · exact keeps_cohSend h45
          · split
            · exact h45
            · exact keeps_cohSend h45
        clear_value x47
        split <;> exact keeps_cohSend h48
      · extract_lets +onlyGivenNames -merge x81
        have h82 : Keeps s x81 := keeps_homeComplete h
        clear_value x81
        extract_lets +onlyGivenNames -merge x83
        unfold x12
        extract_lets +onlyGivenNames -merge x84
        have h85 : Keeps s x84 := by
          unfold x84
          split
          · refine keeps_setTxn ?_
            split
            · exact h82
            · exact keeps_cohSend h82
          · split
            · exact h82
            · exact keeps_cohSend h82
        clear_value x84
        split <;> exact keeps_cohSend h85
      · extract_lets +onlyGivenNames -merge x118
        have h119 : Keeps s x118 := keeps_homeComplete h
        clear_value x118
        extract_lets +onlyGivenNames -merge x120
        unfold x12
        extract_lets +onlyGivenNames -merge x121
        have h122 : Keeps s x121 := by
          unfold x121
          split
          · refine keeps_setTxn ?_
            split
            · exact h119
            · exact keeps_cohSend h119
          · split
            · exact h119
            · exact keeps_cohSend h119
        clear_value x121
        split <;> exact keeps_cohSend h122
      · extract_lets +onlyGivenNames -merge x155
        have h156 : Keeps s x155 := keeps_homeComplete h
        clear_value x155
        extract_lets +onlyGivenNames -merge x157
        unfold x12
        extract_lets +onlyGivenNames -merge x158
        have h159 : Keeps s x158 := by
          unfold x158
          split
          · refine keeps_setTxn ?_
            split
            · exact h156
            · exact keeps_cohSend h156
          · split
            · exact h156
            · exact keeps_cohSend h156
        clear_value x158
        split <;> exact keeps_cohSend h159
      · unfold x12
        extract_lets +onlyGivenNames -merge x192
        have h193 : Keeps s x192 := by
          unfold x192
          split
          · exact keeps_setTxn h
          · exact h
        clear_value x192
        split <;> exact keeps_cohSend h193
      · unfold x12
        extract_lets +onlyGivenNames -merge x218
        have h219 : Keeps s x218 := by
          unfold x218
          split
          · exact keeps_setTxn h
          · exact h
        clear_value x218
        split <;> exact keeps_cohSend h219
      · unfold x12
        extract_lets +onlyGivenNames -merge x244
        have h245 : Keeps s x244 := by
          unfold x244
          split
          · exact keeps_setTxn h
          · exact h
        clear_value x244
        split <;> exact keeps_cohSend h245
      · unfold x12
        extract_lets +onlyGivenNames -merge x270
        have h271 : Keeps s x270 := by
          unfold x270
          split
          · refine keeps_setTxn ?_
            dsimp only
            split
            · split
              · split
                · refine keeps_tallyInc ?_
                  refine keeps_writeLineBytes ?_
                  unfold x13
                  exact keeps_modAgent (keeps_collect h)
                · refine keeps_writeLineBytes ?_
                  unfold x13
                  exact keeps_modAgent (keeps_collect h)
              · split
                · refine keeps_tallyInc ?_
                  refine keeps_writeLineBytes ?_
                  unfold x13
                  exact keeps_modAgent (keeps_collect h)
                · refine keeps_writeLineBytes ?_
                  unfold x13
                  exact keeps_modAgent (keeps_collect h)
            · refine keeps_writeLineBytes ?_
              unfold x13
              exact keeps_modAgent (keeps_collect h)
          · dsimp only
            split
            · split
              · split
                · refine keeps_tallyInc ?_
                  refine keeps_writeLineBytes ?_
                  unfold x13
                  exact keeps_modAgent (keeps_collect h)
                · refine keeps_writeLineBytes ?_
                  unfold x13
                  exact keeps_modAgent (keeps_collect h)
              · split
                · refine keeps_tallyInc ?_
                  refine keeps_writeLineBytes ?_
                  unfold x13
                  exact keeps_modAgent (keeps_collect h)
                · refine keeps_writeLineBytes ?_
                  unfold x13
                  exact keeps_modAgent (keeps_collect h)
            · refine keeps_writeLineBytes ?_
              unfold x13
              exact keeps_modAgent (keeps_collect h)
        clear_value x270
        split <;> exact keeps_cohSend h271
      · unfold x12
        extract_lets +onlyGivenNames -merge x340
        have h341 : Keeps s x340 := by
          unfold x340
          split
          · exact keeps_setTxn (keeps_homeDead h)
          · exact keeps_homeDead h
        clear_value x340
        split <;> exact keeps_cohSend h341
      · extract_lets +onlyGivenNames -merge x366 x367 x368 x369 x370
        have h371 : Keeps s x370 := by
          unfold x370
          unfold x13
          exact keeps_modAgent (keeps_collect h)
        clear_value x370
        split
        rename_i e379
        split
        · unfold x12
          extract_lets +onlyGivenNames -merge x382
          have h383 : Keeps s x382 := by
            unfold x382
            split
            · refine keeps_setTxn ?_
              refine KeepsP.eq e379 ?_
              split
              · exact keeps_adderApply h371
              · exact keeps_reduceApply h371
            · refine KeepsP.eq e379 ?_
              split
              · exact keeps_adderApply h371
              · exact keeps_reduceApply h371
          clear_value x382
          split <;> exact keeps_cohSend h383
        · unfold x12
          extract_lets +onlyGivenNames -merge x414
          have h415 : Keeps s x414 := by
            unfold x414
            split
            · refine keeps_setTxn ?_
              refine KeepsP.eq e379 ?_
              split
              · exact keeps_adderApply h371
              · exact keeps_reduceApply h371
            · refine KeepsP.eq e379 ?_
              split
              · exact keeps_adderApply h371
              · exact keeps_reduceApply h371
          clear_value x414
          split <;> exact keeps_cohSend h415
        · extract_lets +onlyGivenNames -merge x448 x449
          have h450 : Keeps s x449 := by
            unfold x449
            split
            · refine keeps_cohSend ?_
              refine keeps_setTxn ?_
              refine KeepsP.eq e379 ?_
              split
              · exact keeps_adderApply h371
              · exact keeps_reduceApply h371
            · refine KeepsP.eq e379 ?_
              split
              · exact keeps_adderApply h371
              · exact keeps_reduceApply h371
          clear_value x449
          unfold x12
          extract_lets +onlyGivenNames -merge x463
          have h464 : Keeps s x463 := by
            unfold x463
            split
            · exact keeps_setTxn h450
            · exact h450
          clear_value x463
          split <;> exact keeps_cohSend h464
theorem keeps_startTxn {s t : State} (h : Keeps s t) {a1} : Keeps s (State.startTxn t a1) := by
  unfold State.startTxn
  extract_lets +onlyGivenNames -merge x1 x2
  have h3 : Keeps s x2 := keeps_acceptTxn (keeps_dirRoom h)
  clear_value x2
  split
  · exact h3
  · extract_lets +onlyGivenNames -merge x14 x15 x16
    have h17 : Keeps s x16 := Keeps.foldl (keeps_setTxn h3) fun _ _ h20 => keeps_cohSend h20
    clear_value x16
    extract_lets +onlyGivenNames -merge x21
    have h22 : Keeps s x21 := by
      unfold x21
      split
      · exact KeepsO.getD (keeps_readTomb h17) h17
      · exact h17
    clear_value x21
    extract_lets +onlyGivenNames -merge x27
    have h28 : Keeps s x27 := by
      unfold x27
      split
      · exact keeps_homeEvc h22
      · exact h22
    clear_value x27
    split
    · exact keeps_homeAnswer h28
    · exact h28
theorem keeps_takeRequest {s t : State} (h : Keeps s t) {a1} : Keeps s (State.takeRequest t a1) := by
  unfold State.takeRequest
  extract_lets +onlyGivenNames -merge x1
  split
  · exact h
  · split
    · exact keeps_cohSend h
    · extract_lets +onlyGivenNames -merge x10
      have h11 : Keeps s x10 := keeps_reclaimNow h
      clear_value x10
      split
      · split
        · rename_i e21
          exact keeps_startTxn (KeepsOP.eq e21 (keeps_reserveWay h11))
        · exact h11
      · exact keeps_cohSend (keeps_giveRetry h11)
theorem keeps_notGranted {s t : State} (h : Keeps s t) {a1 a2} : Keeps s (State.notGranted t a1 a2) := by
  unfold State.notGranted
  exact keeps_cohSend (keeps_count h)
theorem keeps_cohRequest {s t : State} (h : Keeps s t) {a1 a2 a3 a4} : Keeps s (State.cohRequest t a1 a2 a3 a4) := by
  unfold State.cohRequest
  split
  · exact h
  · split
    · exact h
    · split
      · split
        · exact keeps_notGranted h
        · exact h
      · extract_lets +onlyGivenNames -merge x23
        split
        · exact keeps_notGranted h
        · exact keeps_takeRequest h
theorem keeps_execCohRds {s t : State} (h : Keeps s t) {a0 a1 a2} : KeepsA s (execCohRds a0 a1 a2 t) := by
  unfold execCohRds
  exact KeepsA.next (keeps_cohRequest h)
theorem keeps_execCohRdu {s t : State} (h : Keeps s t) {a0 a1 a2} : KeepsA s (execCohRdu a0 a1 a2 t) := by
  unfold execCohRdu
  exact KeepsA.next (keeps_cohRequest h)
theorem keeps_execCohUpg {s t : State} (h : Keeps s t) {a0 a1} : KeepsA s (execCohUpg a0 a1 t) := by
  unfold execCohUpg
  exact KeepsA.next (keeps_cohRequest h)
theorem keeps_execCohRdn {s t : State} (h : Keeps s t) {a0 a1 a2} : KeepsA s (execCohRdn a0 a1 a2 t) := by
  unfold execCohRdn
  exact KeepsA.next (keeps_cohRequest h)
theorem keeps_execCohWrn {s t : State} (h : Keeps s t) {a0 a1 a2 a3 a4} : KeepsA s (execCohWrn a0 a1 a2 a3 a4 t) := by
  unfold execCohWrn
  extract_lets +onlyGivenNames -merge x1
  have h2 : Keeps s x1 := by
    unfold x1
    split
    · split
      · exact h
      · exact keeps_clearTombs h
    · exact h
  clear_value x1
  exact KeepsA.next (keeps_cohRequest h2)
theorem keeps_execCohDead {s t : State} (h : Keeps s t) {a0 a1} : KeepsA s (execCohDead a0 a1 t) := by
  unfold execCohDead
  exact KeepsA.next (keeps_cohRequest h)
theorem keeps_execCohAddop {s t : State} (h : Keeps s t) {a0 a1 a2 a3 a4} : KeepsA s (execCohAddop a0 a1 a2 a3 a4 t) := by
  unfold execCohAddop
  extract_lets +onlyGivenNames -merge x1 x2 x3 x4 x5
  exact KeepsA.next (keeps_cohRequest h)
theorem keeps_execCohWbk {s t : State} (h : Keeps s t) {a0 a1} : KeepsA s (execCohWbk a0 a1 t) := by
  unfold execCohWbk
  refine KeepsA.next ?_
  split
  · exact h
  · extract_lets +onlyGivenNames -merge x11
    split
    · split
      · exact keeps_evict h
      · exact keeps_cohRequest (keeps_setAgent h)
    · split
      · exact keeps_cohRequest h
      · exact h
theorem keeps_execCohEvc {s t : State} (h : Keeps s t) {a0 a1} : KeepsA s (execCohEvc a0 a1 t) := by
  unfold execCohEvc
  refine KeepsA.next ?_
  split
  · exact h
  · split
    · split
      · exact keeps_evict h
      · exact keeps_cohRequest (keeps_modAgent h)
    · split
      · exact keeps_cohRequest h
      · exact h
theorem keeps_execCohWbd {s t : State} (h : Keeps s t) {a0 a1} : KeepsA s (execCohWbd a0 a1 t) := by
  unfold execCohWbd
  refine KeepsA.next ?_
  split
  · exact h
  · split
    · exact h
    · split
      · exact h
      · extract_lets +onlyGivenNames -merge x25
        have h26 : Keeps s x25 := by
          unfold x25
          split
          · exact keeps_homeWbk h
          · exact h
        clear_value x25
        exact keeps_homeAnswer h26
theorem keeps_takeSnoop {s t : State} (h : Keeps s t) {a1 a2 a3} : Keeps s (State.takeSnoop t a1 a2 a3) := by
  unfold State.takeSnoop
  split
  · exact h
  · split
    · exact h
    · split
      · exact h
      · extract_lets +onlyGivenNames -merge x25 x26
        have h27 : Keeps s x26 := keeps_performSnoop h
        clear_value x26
        extract_lets +onlyGivenNames -merge x28
        split
        · exact h27
        · split
          extract_lets +onlyGivenNames -merge x53
          have h54 : Keeps s x53 := by
            unfold x53
            split
            · exact keeps_cohSend h27
            · exact h27
          clear_value x53
          exact keeps_cohSend h54
theorem keeps_execCohSnps {s t : State} (h : Keeps s t) {a0 a1} : KeepsA s (execCohSnps a0 a1 t) := by
  unfold execCohSnps
  exact KeepsA.next (keeps_takeSnoop h)
theorem keeps_execCohSnpu {s t : State} (h : Keeps s t) {a0 a1} : KeepsA s (execCohSnpu a0 a1 t) := by
  unfold execCohSnpu
  exact KeepsA.next (keeps_takeSnoop h)
theorem keeps_execCohSnpi {s t : State} (h : Keeps s t) {a0 a1} : KeepsA s (execCohSnpi a0 a1 t) := by
  unfold execCohSnpi
  exact KeepsA.next (keeps_takeSnoop h)
theorem keeps_execCohSnpd {s t : State} (h : Keeps s t) {a0 a1} : KeepsA s (execCohSnpd a0 a1 t) := by
  unfold execCohSnpd
  exact KeepsA.next (keeps_takeSnoop h)
theorem keeps_execCohSnpc {s t : State} (h : Keeps s t) {a0 a1} : KeepsA s (execCohSnpc a0 a1 t) := by
  unfold execCohSnpc
  exact KeepsA.next (keeps_takeSnoop h)
theorem keeps_execCohSrsp {s t : State} (h : Keeps s t) {a0 a1} : KeepsA s (execCohSrsp a0 a1 t) := by
  unfold execCohSrsp
  refine KeepsA.next ?_
  split
  · exact h
  · split
    · exact h
    · split
      · exact h
      · extract_lets +onlyGivenNames -merge x25
        have h26 : Keeps s x25 := keeps_takeResponse h
        clear_value x25
        split
        · split
          · exact keeps_homeAnswer h26
          · exact h26
        · exact h26
theorem keeps_requesterDone {s t : State} (h : Keeps s t) {a1} : Keeps s (State.requesterDone t a1) := by
  unfold State.requesterDone
  split
  · exact h
  · refine keeps_cohSend ?_
    split
    · exact keeps_installFill h
    · exact h
theorem keeps_homeShare {s t : State} (h : Keeps s t) {a1} : Keeps s (State.homeShare t a1) := by
  unfold State.homeShare
  split
  · exact h
  · split
    · exact keeps_homeAllocate h
    · exact keeps_homeAllocate h
    · split
      exact keeps_homeAllocate h
    · exact h
theorem keeps_execCohCmp {s t : State} (h : Keeps s t) {a0} : KeepsA s (execCohCmp a0 t) := by
  unfold execCohCmp
  refine KeepsA.next ?_
  split
  · exact h
  · split
    · exact h
    · split
      · exact h
      · extract_lets +onlyGivenNames -merge x25 x26
        have h27 : Keeps s x26 := keeps_setTxn h
        clear_value x26
        extract_lets +onlyGivenNames -merge x28
        have h29 : Keeps s x28 := by
          unfold x28
          split
          · exact keeps_modAgent h27
          · exact h27
        clear_value x28
        exact keeps_requesterDone h29
theorem keeps_execCohData {s t : State} (h : Keeps s t) {a0} : KeepsA s (execCohData a0 t) := by
  unfold execCohData
  refine KeepsA.next ?_
  split
  · exact h
  · split
    · exact h
    · split
      · exact h
      · extract_lets +onlyGivenNames -merge x25
        exact keeps_requesterDone (keeps_setTxn h)
theorem keeps_execCohCmpe {s t : State} (h : Keeps s t) {a0 a1} : KeepsA s (execCohCmpe a0 a1 t) := by
  unfold execCohCmpe
  refine KeepsA.next ?_
  split
  · exact h
  · split
    · exact h
    · split
      · extract_lets +onlyGivenNames -merge x23
        exact keeps_requesterDone (keeps_setTxn h)
      · split
        · exact keeps_dropTxn h
        · exact h
theorem keeps_execCohCmpack {s t : State} (h : Keeps s t) {a0} : KeepsA s (execCohCmpack a0 t) := by
  unfold execCohCmpack
  refine KeepsA.next ?_
  split
  · exact h
  · split
    · exact h
    · split
      · exact h
      · extract_lets +onlyGivenNames -merge x25 x26
        have h27 : Keeps s x26 := by
          unfold x26
          split
          · exact keeps_count (keeps_dropTxn h)
          · exact keeps_finishTxn h
        clear_value x26
        refine keeps_drainRecords ?_
        split
        · exact keeps_homeShare h27
        · exact h27
theorem keeps_execCohRetry {s t : State} (h : Keeps s t) {a0 a1} : KeepsA s (execCohRetry a0 a1 t) := by
  unfold execCohRetry
  refine KeepsA.next ?_
  split
  · exact h
  · split
    · exact keeps_takeRequest h
    · exact h
theorem keeps_execAgentDeath {s t : State} (h : Keeps s t) {a0 a1} : KeepsA s (execAgentDeath a0 a1 t) := by
  unfold execAgentDeath
  extract_lets +onlyGivenNames -merge x1
  refine KeepsA.next ?_
  split
  · exact h
  · extract_lets +onlyGivenNames -merge x6
    have h7 : Keeps s x6 := keeps_modAgent h
    clear_value x6
    extract_lets +onlyGivenNames -merge x8
    have h9 : Keeps s x8 := keeps_settleTxns h7
    clear_value x8
    extract_lets +onlyGivenNames -merge x10
    have h11 : Keeps s x10 := by
      unfold x10
      refine Keeps.foldl ?_ fun u12 z13 h14 => ?_
      · exact h9
      · split
        · exact keeps_homeAnswer h14
        · exact h14
    clear_value x10
    split
    · exact h11
    · exact keeps_modAgent h11
theorem keeps_execDirectoryScan {s t : State} (h : Keeps s t) {a0} : KeepsA s (execDirectoryScan a0 t) := by
  unfold execDirectoryScan
  extract_lets +onlyGivenNames -merge x1
  refine KeepsA.next ?_
  split
  · exact h
  · split
    · exact keeps_reclaimLine h
    · exact keeps_event (keeps_setAgent h)
theorem keeps_modLink {s t : State} (h : Keeps s t) {a1 a2} : Keeps s (State.modLink t a1 a2) := by
  unfold State.modLink
  exact keeps_setLink h
theorem keeps_setEnd {s t : State} (h : Keeps s t) {a1 a2} : Keeps s (State.setEnd t a1 a2) := by
  unfold State.setEnd
  exact keeps_modLink h
theorem keeps_dieLoss {s t : State} (h : Keeps s t) {a1} : Keeps s (State.dieLoss t a1) := by
  unfold State.dieLoss
  extract_lets +onlyGivenNames -merge x1
  refine Keeps.foldl ?_ fun u2 z3 h4 => ?_
  · exact h
  · extract_lets +onlyGivenNames -merge x5 x6
    split
    · exact h4
    · split
      · exact Keeps.lit (t := u2) h4 rfl rfl rfl
      · split
        · exact Keeps.lit (t := u2) h4 rfl rfl rfl
        · exact h4
theorem keeps_failRequest {s t : State} (h : Keeps s t) {a1} : Keeps s (State.failRequest t a1) := by
  unfold State.failRequest
  exact keeps_send h
theorem keeps_failRequests {s t : State} (h : Keeps s t) {a1} : Keeps s (State.failRequests t a1) := by
  unfold State.failRequests
  extract_lets +onlyGivenNames -merge x1 x2 x3
  have h4 : Keeps s x3 := Keeps.lit (t := t) h rfl rfl rfl
  clear_value x3
  exact Keeps.foldl h4 fun _ _ h7 => keeps_failRequest h7
theorem keeps_declareDown {s t : State} (h : Keeps s t) {a1} : Keeps s (State.declareDown t a1) := by
  unfold State.declareDown
  extract_lets +onlyGivenNames -merge x1
  have h2 : Keeps s x1 := keeps_modLink h
  clear_value x1
  extract_lets +onlyGivenNames -merge x3
  have h4 : Keeps s x3 := keeps_event h2
  clear_value x3
  extract_lets +onlyGivenNames -merge x5 x6
  have h7 : Keeps s x6 := by
    unfold x6
    split
    · exact Keeps.lit (t := x3) h4 rfl rfl rfl
    · exact h4
  clear_value x6
  exact keeps_failRequests (keeps_dieLoss h7)
theorem keeps_startRetrain {s t : State} (h : Keeps s t) {a1 a2} : Keeps s (State.startRetrain t a1 a2) := by
  unfold State.startRetrain
  split
  · exact h
  · extract_lets +onlyGivenNames -merge x5
    have h6 : Keeps s x5 := by
      unfold x5
      split
      · exact keeps_send h
      · exact h
    clear_value x5
    exact keeps_count (keeps_modLink h6)
theorem keeps_ackTaken {s t : State} (h : Keeps s t) {a1 a2} : Keeps s (State.ackTaken t a1 a2) := by
  unfold State.ackTaken
  exact keeps_setEnd h
theorem keeps_replayFrom {s t : State} (h : Keeps s t) {a1 a2 a3} : Keeps s (State.replayFrom t a1 a2 a3) := by
  unfold State.replayFrom
  split
  rename_i e8
  extract_lets +onlyGivenNames -merge x9 x10 x11 x12
  have h13 : Keeps s x12 := keeps_send (keeps_setEnd (KeepsP.eq e8 (keeps_meetArrays h)))
  clear_value x12
  extract_lets +onlyGivenNames -merge x14
  have h15 : Keeps s x14 := keeps_count h13
  clear_value x14
  split
  · exact keeps_startRetrain h15
  · exact h15
theorem keeps_linkAck {s t : State} (h : Keeps s t) {a1} : Keeps s (State.linkAck t a1) := by
  unfold State.linkAck
  extract_lets +onlyGivenNames -merge x1
  exact keeps_send (keeps_setEnd h)
theorem keeps_linkError {s t : State} (h : Keeps s t) {a1} : Keeps s (State.linkError t a1) := by
  unfold State.linkError
  extract_lets +onlyGivenNames -merge x1
  split
  · exact h
  · exact keeps_send (keeps_setEnd h)
theorem keeps_openRequest {s t : State} (h : Keeps s t) {a1 a2} : KeepsO s (State.openRequest t a1 a2) := by
  unfold State.openRequest
  extract_lets x r same f
  have hf : ∀ u, Keeps s u → Keeps s (f u) := by
    intro u k
    unfold f
    split
    · exact keeps_failRequest k
    · exact Keeps.lit k rfl rfl rfl
  clear_value f
  split
  · exact KeepsO.some (hf _ h)
  · split
    · exact KeepsO.some (hf _ (Keeps.lit h rfl rfl rfl))
    · exact KeepsO.none
theorem keeps_owe {s t : State} (h : Keeps s t) {a1 a2 a3} : Keeps s (State.owe t a1 a2 a3) := by
  unfold State.owe
  exact keeps_setEnd h
theorem keeps_sendMessage {s t : State} (h : Keeps s t) {a1 a2} : KeepsO s (State.sendMessage t a1 a2) := by
  unfold State.sendMessage
  extract_lets +onlyGivenNames -merge x1 x2
  split
  · split
    · extract_lets +onlyGivenNames -merge x13
      split
      · exact KeepsO.some (keeps_count h)
      · exact KeepsO.none
    · exact KeepsO.none
  · split
    · extract_lets +onlyGivenNames -merge x26
      split
      · split
        · refine KeepsO.some ?_
          refine keeps_owe ?_
          exact Keeps.lit (t := t) h rfl rfl rfl
        · exact KeepsO.none
      · exact KeepsO.none
    · split
      · exact keeps_openRequest h
      · split
        · exact KeepsO.none
        · exact KeepsO.some h
theorem keeps_noteMessage {s t : State} (h : Keeps s t) {a1 a2 a3} : Keeps s (State.noteMessage t a1 a2 a3) := by
  unfold State.noteMessage
  extract_lets +onlyGivenNames -merge x1 x2 x3
  split
  · split
    · split
      · exact keeps_count h
      · refine keeps_send ?_
        split
        · exact Keeps.lit (t := t) h rfl rfl rfl
        · exact h
    · exact keeps_send h
  · exact keeps_send h
theorem keeps_arriveMessage {s t : State} (h : Keeps s t) {a1 a2} : Keeps s (State.arriveMessage t a1 a2) := by
  unfold State.arriveMessage
  extract_lets +onlyGivenNames -merge x1
  split
  extract_lets +onlyGivenNames -merge x10 x11 x12
  split
  · exact keeps_noteMessage (keeps_owe h)
  · split
    · split
      · exact keeps_owe h
      · exact Keeps.lit (t := t) h rfl rfl rfl
    · exact keeps_owe h
theorem keeps_sendFlit {s t : State} (h : Keeps s t) {a1 a2 a3} : KeepsO s (State.sendFlit t a1 a2 a3) := by
  unfold State.sendFlit
  extract_lets +onlyGivenNames -merge x1 x2 x3
  split
  · split
    · exact KeepsO.some h
    · exact KeepsO.none
  · extract_lets +onlyGivenNames -merge x12 x13 x14 x15 x16 x17 x18
    have h19 : Keeps s x18 := by
      unfold x18
      split
      · exact keeps_send h
      · exact h
    clear_value x18
    split
    · exact KeepsO.some (keeps_setEnd h19)
    · split
      · exact KeepsO.none
      · extract_lets +onlyGivenNames -merge x32
        have h33 : Keeps s x32 := keeps_setEnd h19
        clear_value x32
        extract_lets +onlyGivenNames -merge x34
        have h35 : Keeps s x34 := keeps_modLink h33
        clear_value x34
        exact KeepsO.foldl (KeepsO.some h35) fun _ _ h38 => KeepsO.bindS h38 fun u39 h40 => keeps_sendMessage h40
theorem keeps_receiveFlit {s t : State} (h : Keeps s t) {a1 a2 a3} : Keeps s (State.receiveFlit t a1 a2 a3) := by
  unfold State.receiveFlit
  extract_lets +onlyGivenNames -merge x1 x2 x3 x4
  split
  · exact keeps_linkError h
  · split
    · extract_lets +onlyGivenNames -merge x11
      have h12 : Keeps s x11 := keeps_setEnd h
      clear_value x11
      extract_lets +onlyGivenNames -merge x13 x14 x15 x16
      have h17 : Keeps s x16 := keeps_setEnd h12
      clear_value x16
      extract_lets +onlyGivenNames -merge x18
      have h19 : Keeps s x18 := Keeps.foldl h17 fun _ _ h22 => keeps_arriveMessage h22
      clear_value x18
      split
      · exact keeps_linkAck h19
      · exact h19
    · split
      · exact keeps_count (keeps_ackTaken h)
      · exact keeps_linkError h
theorem keeps_takeFlit {s t : State} (h : Keeps s t) {a1 a2 a3 a4} : Keeps s (State.takeFlit t a1 a2 a3 a4) := by
  unfold State.takeFlit
  extract_lets +onlyGivenNames -merge x1
  split
  · exact keeps_send h
  · split
    · rename_i e11
      exact keeps_receiveFlit (KeepsO.eq e11 (keeps_sendFlit h))
    · exact h
theorem keeps_execDataFlit {s t : State} (h : Keeps s t) {a0 a1 a2} : KeepsA s (execDataFlit a0 a1 a2 t) := by
  unfold execDataFlit
  refine KeepsA.next ?_
  split
  · exact keeps_takeFlit h
  · exact h
theorem keeps_execNullFlit {s t : State} (h : Keeps s t) {a0 a1} : KeepsA s (execNullFlit a0 a1 t) := by
  unfold execNullFlit
  refine KeepsA.next ?_
  split
  · exact h
  · split
    · exact keeps_ackTaken h
    · exact keeps_linkError h
theorem keeps_takeControl {s t : State} (h : Keeps s t) {a1 a2 a3 a4} (k : ∀ u, Keeps s u → Keeps s (a4 u)) :
    Keeps s (State.takeControl t a1 a2 a3 a4) := by
  unfold State.takeControl
  split
  · exact h
  · split
    · exact k _ (keeps_ackTaken h)
    · exact keeps_linkError h
theorem keeps_execLinkNak {s t : State} (h : Keeps s t) {a0 a1} : KeepsA s (execLinkNak a0 a1 t) := by
  unfold execLinkNak
  extract_lets +onlyGivenNames -merge x1
  exact KeepsA.next (keeps_takeControl h fun _ y3 => keeps_replayFrom (keeps_ackTaken y3))
theorem keeps_execReplayTimeout {s t : State} (h : Keeps s t) {a0} : KeepsA s (execReplayTimeout a0 t) := by
  unfold execReplayTimeout
  refine KeepsA.next ?_
  split
  · exact keeps_replayFrom h
  · exact h
theorem keeps_execLinkAckTimer {s t : State} (h : Keeps s t) {a0} : KeepsA s (execLinkAckTimer a0 t) := by
  unfold execLinkAckTimer
  refine KeepsA.next ?_
  split
  · exact h
  · extract_lets +onlyGivenNames -merge x5
    have h6 : Keeps s x5 := by
      unfold x5
      split
      · exact keeps_linkAck h
      · exact h
    clear_value x5
    refine Keeps.foldl ?_ fun u11 z12 h13 => ?_
    · exact h6
    · extract_lets +onlyGivenNames -merge x14
      split
      · exact h13
      · exact keeps_send h13
theorem keeps_execNakAckTimeout {s t : State} (h : Keeps s t) {a0} : KeepsA s (execNakAckTimeout a0 t) := by
  unfold execNakAckTimeout
  refine KeepsA.next ?_
  split
  · exact keeps_startRetrain h
  · exact h
theorem keeps_execLinkRetrain {s t : State} (h : Keeps s t) {a0} : KeepsA s (execLinkRetrain a0 t) := by
  unfold execLinkRetrain
  exact KeepsA.next (keeps_takeControl h fun _ y2 => keeps_startRetrain y2)
theorem keeps_execRetrainLimitExpiry {s t : State} (h : Keeps s t) {a0} : KeepsA s (execRetrainLimitExpiry a0 t) := by
  unfold execRetrainLimitExpiry
  refine KeepsA.next ?_
  split
  · exact keeps_declareDown h
  · exact h
theorem keeps_execLinkDetect {s t : State} (h : Keeps s t) {a0 a1} : KeepsA s (execLinkDetect a0 a1 t) := by
  unfold execLinkDetect
  extract_lets +onlyGivenNames -merge x1
  refine KeepsA.next ?_
  split
  · exact keeps_setLink h
  · exact h
theorem keeps_execLinkLock {s t : State} (h : Keeps s t) {a0 a1} : KeepsA s (execLinkLock a0 a1 t) := by
  unfold execLinkLock
  extract_lets +onlyGivenNames -merge x1
  refine KeepsA.next ?_
  split
  · extract_lets +onlyGivenNames -merge x4 x5 x6
    have h7 : Keeps s x6 := keeps_setEnd h
    clear_value x6
    split
    · exact keeps_declareDown h7
    · split
      · exact keeps_modLink h7
      · exact h7
  · exact h
theorem keeps_execLinkDeskew {s t : State} (h : Keeps s t) {a0 a1} : KeepsA s (execLinkDeskew a0 a1 t) := by
  unfold execLinkDeskew
  extract_lets +onlyGivenNames -merge x1
  refine KeepsA.next ?_
  split
  · exact keeps_setLink h
  · exact h
theorem keeps_formCaps {s t : State} (h : Keeps s t) {a1 a2 a3} : Keeps s (State.formCaps t a1 a2 a3) := by
  unfold State.formCaps
  extract_lets +onlyGivenNames -merge x1 x2
  split
  · extract_lets +onlyGivenNames -merge x7
    have h8 : Keeps s x7 := keeps_setLink h
    clear_value x7
    exact Keeps.lit (t := x7) h8 rfl rfl rfl
  · exact keeps_setLink h
theorem keeps_execLinkCaps {s t : State} (h : Keeps s t) {a0 a1 a2} : KeepsA s (execLinkCaps a0 a1 a2 t) := by
  unfold execLinkCaps
  refine KeepsA.next ?_
  split
  · exact keeps_formCaps h
  · exact h
theorem keeps_linkActive {s t : State} (h : Keeps s t) {a1} : Keeps s (State.linkActive t a1) := by
  unfold State.linkActive
  extract_lets +onlyGivenNames -merge x1 x2 x3 x4 x5 x6
  have h7 : Keeps s x6 := keeps_setLink h
  clear_value x6
  extract_lets +onlyGivenNames -merge x8 x9
  have h10 : Keeps s x9 := by
    unfold x9
    split
    · refine Keeps.foldl ?_ fun u13 z14 h15 => ?_
      · exact h7
      · split
        · exact Keeps.lit (t := u13) h15 rfl rfl rfl
        · exact h15
    · exact h7
  clear_value x9
  split
  · extract_lets +onlyGivenNames -merge x24
    have h25 : Keeps s x24 := keeps_event h10
    clear_value x24
    exact keeps_send (keeps_send h25)
  · exact h10
theorem keeps_execCreditInit {s t : State} (h : Keeps s t) {a0 a1} : KeepsA s (execCreditInit a0 a1 t) := by
  unfold execCreditInit
  extract_lets +onlyGivenNames -merge x1 x2
  refine KeepsA.next ?_
  split
  · extract_lets +onlyGivenNames -merge x5 x6
    have h7 : Keeps s x6 := keeps_setEnd h
    clear_value x6
    split
    · exact keeps_linkActive h7
    · exact h7
  · exact h
theorem keeps_execTrainingStateTimeout {s t : State} (h : Keeps s t) {a0} : KeepsA s (execTrainingStateTimeout a0 t) := by
  unfold execTrainingStateTimeout
  extract_lets +onlyGivenNames -merge x1 x2 x3 x4 x5 x6
  refine KeepsA.next ?_
  split
  · exact h
  · split
    · exact keeps_setLink h
    · split
      · exact keeps_declareDown h
      · exact keeps_setLink h
theorem keeps_execLaneCheck {s t : State} (h : Keeps s t) {a0 a1} : KeepsA s (execLaneCheck a0 a1 t) := by
  unfold execLaneCheck
  extract_lets +onlyGivenNames -merge x1
  refine KeepsA.next ?_
  split
  · exact h
  · extract_lets +onlyGivenNames -merge x6
    have h7 : Keeps s x6 := by
      unfold x6
      split
      · exact keeps_ackTaken h
      · exact keeps_linkError h
    clear_value x6
    extract_lets +onlyGivenNames -merge x12 x13 x14 x15 x16 x17 x18 x19 x20 x21
    have h22 : Keeps s x21 := keeps_setEnd h7
    clear_value x21
    extract_lets +onlyGivenNames -merge x23
    have h24 : Keeps s x23 := Keeps.foldl h22 fun _ _ h27 => keeps_event h27
    clear_value x23
    split
    · exact h24
    · split
      · exact keeps_declareDown h24
      · exact keeps_startRetrain h24
theorem keeps_execRequestTimeout {s t : State} (h : Keeps s t) {a0 a1} : KeepsA s (execRequestTimeout a0 a1 t) := by
  unfold execRequestTimeout
  extract_lets +onlyGivenNames -merge x1
  refine KeepsA.next ?_
  split
  · exact h
  · extract_lets +onlyGivenNames -merge x12
    split
    · exact h
    · extract_lets +onlyGivenNames -merge x17
      have h18 : Keeps s x17 := Keeps.lit (t := t) h rfl rfl rfl
      clear_value x17
      exact keeps_event (keeps_send (keeps_count h18))
theorem keeps_execFordEngage {s t : State} (h : Keeps s t) {a0} : KeepsA s (execFordEngage a0 t) := by
  unfold execFordEngage
  refine KeepsA.next ?_
  split
  · exact keeps_setEnd h
  · exact h
theorem keeps_execFordDisengage {s t : State} (h : Keeps s t) {a0} : KeepsA s (execFordDisengage a0 t) := by
  unfold execFordDisengage
  exact KeepsA.next (keeps_setEnd h)
theorem keeps_execLinkFrd {s t : State} (h : Keeps s t) {a0 a1 a2} : KeepsA s (execLinkFrd a0 a1 a2 t) := by
  unfold execLinkFrd
  extract_lets +onlyGivenNames -merge x1 x2 x3
  refine KeepsA.next ?_
  split
  · exact h
  · extract_lets +onlyGivenNames -merge x14 x15
    split
    · extract_lets +onlyGivenNames -merge x18
      have h19 : Keeps s x18 := keeps_setEnd h
      clear_value x18
      extract_lets +onlyGivenNames -merge x20
      have h21 : Keeps s x20 := keeps_setEnd h19
      clear_value x20
      exact keeps_noteMessage (keeps_count h21)
    · exact h
theorem keeps_ncrAccess {s t : State} (h : Keeps s t) {a1 a2 a3 a4} (k : ∀ u, Keeps s u → Keeps s (a4 u)) :
    Keeps s (State.ncrAccess t a1 a2 a3 a4) := by
  unfold State.ncrAccess
  split
  · exact keeps_send (keeps_count h)
  · split
    · exact keeps_send h
    · exact k _ h
theorem keeps_execNcrRegisterRead {s t : State} (h : Keeps s t) {a0 a1 a2} : KeepsA s (execNcrRegisterRead a0 a1 a2 t) := by
  unfold execNcrRegisterRead
  refine KeepsA.next ?_
  refine keeps_ncrAccess ?_ ?_
  · exact h
  · intro y1 y2
    split
    rename_i e10
    exact keeps_send (KeepsP.eq e10 (keeps_readAt y2))
theorem keeps_execNcrRegisterWrite {s t : State} (h : Keeps s t) {a0 a1 a2 a3} : KeepsA s (execNcrRegisterWrite a0 a1 a2 a3 t) := by
  unfold execNcrRegisterWrite
  exact KeepsA.next (keeps_ncrAccess h fun _ y2 => keeps_writeAt y2)
theorem keeps_execNcrScratchpadWrite {s t : State} (h : Keeps s t) {a0 a1 a2 a3} : KeepsA s (execNcrScratchpadWrite a0 a1 a2 a3 t) := by
  unfold execNcrScratchpadWrite
  extract_lets +onlyGivenNames -merge x1
  refine KeepsA.next ?_
  split
  · exact h
  · extract_lets +onlyGivenNames -merge x6
    have h7 : Keeps s x6 := keeps_setCluster h
    clear_value x6
    split
    · exact h7
    · exact keeps_modKernel h7
theorem keeps_execNcrInterrupt {s t : State} (h : Keeps s t) {a0 a1} : KeepsA s (execNcrInterrupt a0 a1 t) := by
  unfold execNcrInterrupt
  exact KeepsA.next (keeps_raise h)
theorem keeps_execNcp {s t : State} (h : Keeps s t) {a0 a1 a2} : KeepsA s (execNcp a0 a1 a2 t) := by
  unfold execNcp
  extract_lets +onlyGivenNames -merge x1
  refine KeepsA.next ?_
  split
  · exact h
  · split
    · exact keeps_count h
    · refine keeps_send ?_
      exact Keeps.lit (t := t) h rfl rfl rfl
theorem keeps_portDown {s t : State} (h : Keeps s t) {a1} : Keeps s (State.portDown t a1) := by
  unfold State.portDown
  split
  · exact keeps_drainPort (keeps_modSubport h)
  · exact h
theorem keeps_linkLost {s t : State} (h : Keeps s t) {a1} : Keeps s (State.linkLost t a1) := by
  unfold State.linkLost
  split
  · exact keeps_moveQueue (keeps_portDown h)
  · exact h
theorem keeps_execPortLinkLoss {s t : State} (h : Keeps s t) {a0} : KeepsA s (execPortLinkLoss a0 t) := by
  unfold execPortLinkLoss
  exact KeepsA.next (keeps_linkLost h)
theorem keeps_execPortLinkUp {s t : State} (h : Keeps s t) {a0} : KeepsA s (execPortLinkUp a0 t) := by
  unfold execPortLinkUp
  extract_lets +onlyGivenNames -merge x1 x2 x3
  refine KeepsA.next ?_
  split
  · exact h
  · extract_lets +onlyGivenNames -merge x8
    have h9 : Keeps s x8 := keeps_setSubport h
    clear_value x8
    split
    · exact keeps_event h9
    · exact h9
theorem keeps_execPortHoldExpiry {s t : State} (h : Keeps s t) {a0} : KeepsA s (execPortHoldExpiry a0 t) := by
  unfold execPortHoldExpiry
  extract_lets +onlyGivenNames -merge x1
  refine KeepsA.next ?_
  split
  · exact keeps_pumpAll (keeps_modSubport h)
  · exact h
theorem keeps_execNetworkLaneRetire {s t : State} (h : Keeps s t) {a0 a1} : KeepsA s (execNetworkLaneRetire a0 a1 t) := by
  unfold execNetworkLaneRetire
  refine KeepsA.next ?_
  split
  · exact h
  · extract_lets +onlyGivenNames -merge x5 x6
    have h7 : Keeps s x6 := Keeps.lit (t := t) h rfl rfl rfl
    clear_value x6
    extract_lets +onlyGivenNames -merge x8
    have h9 : Keeps s x8 := keeps_event h7
    clear_value x8
    refine Keeps.foldl ?_ fun u10 z11 h12 => ?_
    · exact h9
    · extract_lets +onlyGivenNames -merge x13 x14 x15
      split
      · exact h12
      · extract_lets +onlyGivenNames -merge x20
        exact keeps_moveQueue (keeps_drainPort (keeps_setSubport h12))
theorem keeps_execLldpFrame {s t : State} (h : Keeps s t) {a0 a1 a2} : KeepsA s (execLldpFrame a0 a1 a2 t) := by
  unfold execLldpFrame
  extract_lets +onlyGivenNames -merge x1 x2
  refine KeepsA.next ?_
  split
  · exact h
  · extract_lets +onlyGivenNames -merge x7
    have h8 : Keeps s x7 := keeps_setSubport h
    clear_value x7
    split
    · exact keeps_count h8
    · exact h8
theorem keeps_execLldpTransmit {s t : State} (h : Keeps s t) {a0} : KeepsA s (execLldpTransmit a0 t) := by
  unfold execLldpTransmit
  refine KeepsA.next ?_
  split
  · exact keeps_send h
  · exact h
theorem keeps_execNeighborSolicitation {s t : State} (h : Keeps s t) {a0 a1 a2} : KeepsA s (execNeighborSolicitation a0 a1 a2 t) := by
  unfold execNeighborSolicitation
  refine KeepsA.next ?_
  split
  · exact keeps_send h
  · exact h
theorem keeps_execRouterAdvertisement {s t : State} (h : Keeps s t) {a0 a1} : KeepsA s (execRouterAdvertisement a0 a1 t) := by
  unfold execRouterAdvertisement
  refine KeepsA.next ?_
  split
  · exact keeps_modSubport h
  · exact h
theorem keeps_execEchoRequest {s t : State} (h : Keeps s t) {a0 a1 a2 a3} : KeepsA s (execEchoRequest a0 a1 a2 a3 t) := by
  unfold execEchoRequest
  refine KeepsA.next ?_
  split
  · exact keeps_send h
  · exact h
theorem keeps_execPauseFrame {s t : State} (h : Keeps s t) {a0} : KeepsA s (execPauseFrame a0 t) := by
  unfold execPauseFrame
  exact KeepsA.next (keeps_count h)
theorem keeps_execPeerCappedExpiry {s t : State} (h : Keeps s t) {a0} : KeepsA s (execPeerCappedExpiry a0 t) := by
  unfold execPeerCappedExpiry
  refine KeepsA.next ?_
  split
  · exact keeps_modGroupEntry h
  · exact h
theorem keeps_execNetworkReferenceLoss {s t : State} (h : Keeps s t) : KeepsA s (execNetworkReferenceLoss t) := by
  unfold execNetworkReferenceLoss
  extract_lets +onlyGivenNames -merge x1 x2
  have h3 : Keeps s x2 := by
    unfold x2
    refine Keeps.foldl ?_ fun u4 z5 h6 => ?_
    · exact Keeps.lit (t := t) h rfl rfl rfl
    · exact keeps_portDown h6
  clear_value x2
  exact KeepsA.next (Keeps.foldl h3 fun _ _ h9 => keeps_moveQueue h9)
theorem keeps_execNetworkReferenceReturn {s t : State} (h : Keeps s t) : KeepsA s (execNetworkReferenceReturn t) := by
  unfold execNetworkReferenceReturn
  refine KeepsA.next ?_
  split
  · exact h
  · refine Keeps.foldl ?_ fun u5 z6 h7 => ?_
    · exact Keeps.lit (t := t) h rfl rfl rfl
    · split
      · exact keeps_modSubport h7
      · exact h7
theorem keeps_countDiscard {s t : State} (h : Keeps s t) {a1} : Keeps s (State.countDiscard t a1) := by
  unfold State.countDiscard
  extract_lets +onlyGivenNames -merge x1
  split
  · exact keeps_count h
  · exact Keeps.foldl h fun _ _ h8 => keeps_count h8
theorem keeps_noteCape {s t : State} (h : Keeps s t) {a1} : Keeps s (State.noteCape t a1) := by
  unfold State.noteCape
  split
  · exact keeps_modGroupEntry h
  · exact h
theorem keeps_admitPacket {s t : State} (h : Keeps s t) {a1 a2 a3 a4} (k : ∀ u a b, Keeps s u → Keeps s (a4 u a b)) :
    Keeps s (State.admitPacket t a1 a2 a3 a4) := by
  unfold State.admitPacket
  extract_lets x u
  split
  · exact h
  · have hu : Keeps s u := keeps_count h
    clear_value u
    split
    · exact keeps_count hu
    · split
      · exact hu
      · split
        · exact keeps_countDiscard hu
        · exact k _ _ _ (keeps_noteCape hu)
theorem keeps_recordPsn {s t : State} (h : Keeps s t) {a1 a2} : Keeps s (State.recordPsn t a1 a2) := by
  unfold State.recordPsn
  extract_lets +onlyGivenNames -merge x1
  split
  extract_lets +onlyGivenNames -merge x10
  have h11 : Keeps s x10 := keeps_setFlow h
  clear_value x10
  split
  · exact keeps_sendAck h11
  · exact h11
theorem keeps_noteCe {s t : State} (h : Keeps s t) {a1 a2} : Keeps s (State.noteCe t a1 a2) := by
  unfold State.noteCe
  split
  · exact keeps_modFlow h
  · exact h
theorem keeps_byPsn {s t : State} (h : Keeps s t) {a1 a2 a3 a4 a5} (k : ∀ u, Keeps s u → Keeps s (a4 u))
    (m : ∀ u, Keeps s u → KeepsH s (a5 u)) : Keeps s (State.byPsn t a1 a2 a3 a4 a5) := by
  unfold State.byPsn
  extract_lets psn f d
  split
  · exact keeps_sendAck (keeps_noteCe (k _ (keeps_count h)))
  · split
    · exact keeps_count h
    · split
      · exact keeps_count h
      · have hm := m t h
        split
        · rename_i e
          exact keeps_recordPsn (keeps_noteCe (KeepsH.eqDone e hm))
        · rename_i e
          exact KeepsH.eqHold e hm
        · rename_i e
          exact keeps_recordPsn (keeps_noteCe (keeps_respond (KeepsH.eqError e hm)))
theorem keeps_withTally {s t : State} (h : Keeps s t) {a1 a2 a3} (k : ∀ u x, Keeps s u → KeepsH s (a3 u x)) :
    KeepsH s (State.withTally t a1 a2 a3) := by
  unfold State.withTally
  split
  · exact keeps_count h
  · exact h
  · exact k _ _ h
  · exact k _ _ h
theorem keeps_tallyBy {s t : State} (h : Keeps s t) {a1 a2} : Keeps s (State.tallyBy t a1 a2) := by
  unfold State.tallyBy
  split
  · exact keeps_tallyInc h
  · exact h
theorem keeps_execNctPut {s t : State} (h : Keeps s t) {a0 a1} : KeepsA s (execNctPut a0 a1 t) := by
  unfold execNctPut
  refine KeepsA.next ?_
  refine keeps_admitPacket ?_ ?_
  · exact h
  · intro y1 y2 y3 y4
    refine keeps_byPsn ?_ ?_ ?_
    · exact y4
    · intro y5 y6
      dsimp only [id]
      exact y6
    · intro y7 y8
      split
      · exact KeepsH.hold (keeps_count y8)
      · split
        · exact KeepsH.error y8
        · refine keeps_withTally ?_ ?_
          · exact y8
          · intro y29 y30 y31
            split
            · exact KeepsH.hold y31
            · rename_i e41
              exact KeepsH.done (keeps_tallyBy (KeepsO.eq e41 (keeps_hubWriteRange y31)))
theorem keeps_execNctGet {s t : State} (h : Keeps s t) {a0 a1} : KeepsA s (execNctGet a0 a1 t) := by
  unfold execNctGet
  refine KeepsA.next ?_
  refine keeps_admitPacket ?_ ?_
  · exact h
  · intro y1 y2 y3 y4
    refine keeps_byPsn ?_ ?_ ?_
    · exact y4
    · intro y5 y6
      dsimp only [id]
      exact y6
    · intro y7 y8
      split
      · exact KeepsH.hold (keeps_count y8)
      · split
        · exact KeepsH.error y8
        · split
          · exact KeepsH.hold y8
          · rename_i e40
            split
            · exact KeepsH.error (KeepsOP.eq e40 (keeps_hubReadRange y8))
            · exact KeepsH.done (keeps_respond (KeepsOP.eq e40 (keeps_hubReadRange y8)))
theorem keeps_resendKept {s t : State} (h : Keeps s t) {a1 a2} : Keeps s (State.resendKept t a1 a2) := by
  unfold State.resendKept
  split
  · exact keeps_resend h
  · exact h
theorem keeps_execNctAtomic {s t : State} (h : Keeps s t) {a0 a1} : KeepsA s (execNctAtomic a0 a1 t) := by
  unfold execNctAtomic
  refine KeepsA.next ?_
  refine keeps_admitPacket ?_ ?_
  · exact h
  · intro y1 y2 y3 y4
    extract_lets +onlyGivenNames -merge x5 x6
    refine keeps_byPsn ?_ ?_ ?_
    · exact y4
    · intro y7 y8
      exact keeps_resendKept y8
    · intro y9 y10
      extract_lets +onlyGivenNames -merge x11 x12 x13 x14
      split
      · exact KeepsH.hold (keeps_count y10)
      · split
        · exact KeepsH.error y10
        · split
          · exact KeepsH.error y10
          · split
            · split
              · exact KeepsH.error y10
              · split
                · exact KeepsH.hold y10
                · rename_i e56
                  exact KeepsH.error (KeepsOP.eq e56 (keeps_adderAtomic y10))
                · rename_i e62
                  split
                  · exact KeepsH.error (KeepsOP.eq e62 (keeps_adderAtomic y10))
                  · exact KeepsH.done (keeps_respond (KeepsOP.eq e62 (keeps_adderAtomic y10)))
                · rename_i e74
                  exact KeepsH.done (keeps_respond (KeepsOP.eq e74 (keeps_adderAtomic y10)))
            · split
              · exact KeepsH.error y10
              · split
                · exact KeepsH.hold y10
                · rename_i e90
                  exact KeepsH.error (KeepsOP.eq e90 (keeps_adderAtomic y10))
                · rename_i e96
                  split
                  · exact KeepsH.error (KeepsOP.eq e96 (keeps_adderAtomic y10))
                  · exact KeepsH.done (keeps_respond (KeepsOP.eq e96 (keeps_adderAtomic y10)))
                · rename_i e108
                  exact KeepsH.done (keeps_respond (KeepsOP.eq e108 (keeps_adderAtomic y10)))
theorem keeps_reduceParts {s t : State} (h : Keeps s t) {a1 a2 a3 a4 a5} : KeepsOP s (State.reduceParts t a1 a2 a3 a4 a5) := by
  unfold State.reduceParts
  refine KeepsOP.foldl ?_ fun u1 z2 h3 => ?_
  · exact KeepsOP.some (KeepsP.mk h)
  · split
    refine KeepsOP.bindP ?_ fun u10 h11 => ?_
    · exact h3
    · split
      split
      · exact KeepsOP.some h11
      · refine KeepsOP.mapP ?_ fun u28 h29 => ?_
        · exact keeps_adderReduce h11
        · split
          exact KeepsP.mk h29
theorem keeps_execNctReducePut {s t : State} (h : Keeps s t) {a0 a1} : KeepsA s (execNctReducePut a0 a1 t) := by
  unfold execNctReducePut
  refine KeepsA.next ?_
  refine keeps_admitPacket ?_ ?_
  · exact h
  · intro y1 y2 y3 y4
    refine keeps_byPsn ?_ ?_ ?_
    · exact y4
    · intro y5 y6
      dsimp only [id]
      exact y6
    · intro y7 y8
      extract_lets +onlyGivenNames -merge x9 x10
      split
      · exact KeepsH.hold (keeps_count y8)
      · split
        · exact KeepsH.error y8
        · extract_lets +onlyGivenNames -merge x31
          split
          · exact KeepsH.error y8
          · refine keeps_withTally ?_ ?_
            · exact y8
            · intro y36 y37 y38
              split
              · exact KeepsH.hold y38
              · rename_i e50
                exact KeepsH.done (keeps_tallyBy (KeepsOP.eq e50 (keeps_reduceParts y38)))
theorem keeps_execNctTadd {s t : State} (h : Keeps s t) {a0 a1} : KeepsA s (execNctTadd a0 a1 t) := by
  unfold execNctTadd
  refine KeepsA.next ?_
  refine keeps_admitPacket ?_ ?_
  · exact h
  · intro y1 y2 y3 y4
    refine keeps_byPsn ?_ ?_ ?_
    · exact y4
    · intro y5 y6
      dsimp only [id]
      exact y6
    · intro y7 y8
      exact keeps_withTally y8 fun _ _ y11 => KeepsH.done (keeps_tallyBy y11)
theorem keeps_execNctTile {s t : State} (h : Keeps s t) {a0 a1} : KeepsA s (execNctTile a0 a1 t) := by
  unfold execNctTile
  refine KeepsA.next ?_
  refine keeps_admitPacket ?_ ?_
  · exact h
  · intro y1 y2 y3 y4
    refine keeps_byPsn ?_ ?_ ?_
    · exact y4
    · intro y5 y6
      dsimp only [id]
      exact y6
    · intro y7 y8
      split
      · exact KeepsH.hold y8
      · exact KeepsH.error y8
      · exact KeepsH.error y8
      · extract_lets +onlyGivenNames -merge x31 x32 x33
        split
        · exact KeepsH.error y8
        · split
          · exact KeepsH.error y8
          · extract_lets +onlyGivenNames -merge x42 x43
            have h44 : KeepsP s x43 := by
              unfold x43
              clear_value x42
              split
              · exact KeepsP.mk y8
              · exact keeps_chooseFree y8
            clear_value x43
            split
            · exact KeepsH.hold h44
            · extract_lets +onlyGivenNames -merge x61 x62 x63 x64 x65 x66
              have h67 : Keeps s x66 := keeps_modCluster h44
              clear_value x66
              exact KeepsH.done (keeps_modKernel h67)
theorem keeps_execNctCredit {s t : State} (h : Keeps s t) {a0 a1} : KeepsA s (execNctCredit a0 a1 t) := by
  unfold execNctCredit
  refine KeepsA.next ?_
  refine keeps_admitPacket ?_ ?_
  · exact h
  · intro y1 y2 y3 y4
    refine keeps_byPsn ?_ ?_ ?_
    · exact y4
    · intro y5 y6
      dsimp only [id]
      exact y6
    · intro y7 y8
      extract_lets +onlyGivenNames -merge x9 x10
      split
      · exact KeepsH.done (keeps_modKernel y8)
      · split
        · exact KeepsH.error y8
        · exact KeepsH.error y8
        · exact KeepsH.done y8
        · exact KeepsH.done y8
theorem keeps_failInEnd {s t : State} (h : Keeps s t) {a1} : Keeps s (State.failInEnd t a1) := by
  unfold State.failInEnd
  extract_lets +onlyGivenNames -merge x1 x2
  have h3 : Keeps s x2 := Keeps.lit (t := t) h rfl rfl rfl
  clear_value x2
  exact keeps_modKernel h3
theorem keeps_execNctConnect {s t : State} (h : Keeps s t) {a0 a1} : KeepsA s (execNctConnect a0 a1 t) := by
  unfold execNctConnect
  refine KeepsA.next ?_
  refine keeps_admitPacket ?_ ?_
  · exact h
  · intro y1 y2 y3 y4
    refine keeps_byPsn ?_ ?_ ?_
    · exact y4
    · intro y5 y6
      dsimp only [id]
      exact y6
    · intro y7 y8
      split
      · exact KeepsH.hold y8
      · exact KeepsH.hold y8
      · exact KeepsH.error y8
      · extract_lets +onlyGivenNames -merge x31
        split
        · exact KeepsH.error (keeps_failInEnd y8)
        · extract_lets +onlyGivenNames -merge x36
          have h37 : Keeps s x36 := keeps_modKernel y8
          clear_value x36
          exact KeepsH.done (keeps_ferrySend h37)
theorem keeps_execNctEnd {s t : State} (h : Keeps s t) {a0 a1} : KeepsA s (execNctEnd a0 a1 t) := by
  unfold execNctEnd
  refine KeepsA.next ?_
  refine keeps_admitPacket ?_ ?_
  · exact h
  · intro y1 y2 y3 y4
    refine keeps_byPsn ?_ ?_ ?_
    · exact y4
    · intro y5 y6
      dsimp only [id]
      exact y6
    · intro y7 y8
      split
      · exact KeepsH.hold y8
      · exact KeepsH.error y8
      · exact KeepsH.error y8
      · split
        · exact KeepsH.error y8
        · exact KeepsH.done (keeps_modKernel y8)
theorem keeps_execNctAbandon {s t : State} (h : Keeps s t) {a0 a1} : KeepsA s (execNctAbandon a0 a1 t) := by
  unfold execNctAbandon
  refine KeepsA.next ?_
  refine keeps_admitPacket ?_ ?_
  · exact h
  · intro y1 y2 y3 y4
    refine keeps_byPsn ?_ ?_ ?_
    · exact y4
    · intro y5 y6
      dsimp only [id]
      exact y6
    · intro y7 y8
      split
      · exact KeepsH.done (keeps_modKernel y8)
      · exact KeepsH.done y8
      · exact KeepsH.done y8
      · exact KeepsH.done y8
theorem keeps_execNctGetresp {s t : State} (h : Keeps s t) {a0 a1} : KeepsA s (execNctGetresp a0 a1 t) := by
  unfold execNctGetresp
  refine KeepsA.next ?_
  refine keeps_admitPacket ?_ ?_
  · exact h
  · intro y1 y2 y3 y4
    refine keeps_byPsn ?_ ?_ ?_
    · exact y4
    · intro y5 y6
      dsimp only [id]
      exact y6
    · intro y7 y8
      split
      · exact KeepsH.done y8
      · extract_lets +onlyGivenNames -merge x19
        have h20 : Keeps s x19 := keeps_dropOp y8
        clear_value x19
        refine KeepsH.done ?_
        split
        · exact keeps_fillArrives h20
        · exact keeps_xferArrives h20
        · extract_lets +onlyGivenNames -merge x47
          refine keeps_send ?_
          exact Keeps.lit (t := x19) h20 rfl rfl rfl
        · exact h20
theorem keeps_execNctAtomicresp {s t : State} (h : Keeps s t) {a0 a1} : KeepsA s (execNctAtomicresp a0 a1 t) := by
  unfold execNctAtomicresp
  refine KeepsA.next ?_
  refine keeps_admitPacket ?_ ?_
  · exact h
  · intro y1 y2 y3 y4
    refine keeps_byPsn ?_ ?_ ?_
    · exact y4
    · intro y5 y6
      dsimp only [id]
      exact y6
    · intro y7 y8
      split
      · exact KeepsH.done y8
      · extract_lets +onlyGivenNames -merge x19
        have h20 : Keeps s x19 := keeps_dropOp y8
        clear_value x19
        refine KeepsH.done ?_
        split
        · split
          · split
            · extract_lets +onlyGivenNames -merge x43
              have h44 : Keeps s x43 := KeepsO.getD (KeepsO.map fun u45 => keeps_dropL1 h20) h20
              clear_value x43
              exact keeps_atomicProgress h44
            · exact h20
          · exact h20
        · exact h20
theorem keeps_execNctError {s t : State} (h : Keeps s t) {a0 a1} : KeepsA s (execNctError a0 a1 t) := by
  unfold execNctError
  refine KeepsA.next ?_
  refine keeps_admitPacket ?_ ?_
  · exact h
  · intro y1 y2 y3 y4
    refine keeps_byPsn ?_ ?_ ?_
    · exact y4
    · intro y5 y6
      dsimp only [id]
      exact y6
    · intro y7 y8
      extract_lets +onlyGivenNames -merge x9
      split
      · exact KeepsH.done (keeps_schedSettleAll (keeps_failOp y8))
      · exact KeepsH.done y8
theorem keeps_ackPackets {s t : State} (h : Keeps s t) {a1 a2} : Keeps s (State.ackPackets t a1 a2) := by
  unfold State.ackPackets
  extract_lets +onlyGivenNames -merge x1
  have h2 : Keeps s x1 := keeps_modFlow h
  clear_value x1
  refine Keeps.foldl ?_ fun u3 z4 h5 => ?_
  · exact h2
  · split
    · exact h5
    · split
      · exact h5
      · split
        · exact h5
        · split
          · exact keeps_finishUser (keeps_dropOp h5)
          · exact Keeps.lit (t := u3) h5 rfl rfl rfl
theorem keeps_echoed {s t : State} (h : Keeps s t) {a1} : Keeps s (State.echoed t a1) := by
  unfold State.echoed
  extract_lets +onlyGivenNames -merge x1 x2 x3
  have h4 : Keeps s x3 := keeps_count h
  clear_value x3
  split
  · exact keeps_setFlow h4
  · split
    · exact keeps_useFree h4
    · exact keeps_setFlow (keeps_useFree h4)
theorem keeps_execNctAck {s t : State} (h : Keeps s t) {a0 a1} : KeepsA s (execNctAck a0 a1 t) := by
  unfold execNctAck
  refine KeepsA.next ?_
  refine keeps_admitPacket ?_ ?_
  · exact h
  · intro y1 y2 y3 y4
    extract_lets +onlyGivenNames -merge x5 x6 x7 x8 x9 x10
    split
    extract_lets +onlyGivenNames -merge x19
    have h20 : Keeps s x19 := keeps_setFlow y4
    clear_value x19
    extract_lets +onlyGivenNames -merge x21
    have h22 : Keeps s x21 := keeps_ackPackets h20
    clear_value x21
    extract_lets +onlyGivenNames -merge x23
    have h24 : Keeps s x23 := by
      unfold x23
      split
      · exact keeps_echoed h22
      · exact h22
    clear_value x23
    extract_lets +onlyGivenNames -merge x29 x30
    have h31 : Keeps s x30 := Keeps.foldl h24 fun _ _ h34 => keeps_resend h34
    clear_value x30
    exact keeps_schedSettleAll (keeps_pump h31)
theorem keeps_execNctAckTimer {s t : State} (h : Keeps s t) {a0} : KeepsA s (execNctAckTimer a0 t) := by
  unfold execNctAckTimer
  refine KeepsA.next ?_
  split
  · exact h
  · exact keeps_sendAck h
theorem keeps_execRetransmissionTimeout {s t : State} (h : Keeps s t) {a0} : KeepsA s (execRetransmissionTimeout a0 t) := by
  unfold execRetransmissionTimeout
  extract_lets +onlyGivenNames -merge x1 x2
  refine KeepsA.next ?_
  split
  · exact h
  · exact keeps_resend (keeps_setFlow h)
theorem keeps_execOperationTimeout {s t : State} (h : Keeps s t) {a0 a1} : KeepsA s (execOperationTimeout a0 a1 t) := by
  unfold execOperationTimeout
  extract_lets +onlyGivenNames -merge x1
  refine KeepsA.next ?_
  split
  · exact h
  · split
    · exact h
    · exact keeps_schedSettleAll (keeps_failOp (keeps_modFlow h))
theorem keeps_execFlowStateExpiry {s t : State} (h : Keeps s t) {a0} : KeepsA s (execFlowStateExpiry a0 t) := by
  unfold execFlowStateExpiry
  refine KeepsA.next ?_
  split
  · exact h
  · exact keeps_modFlow h
theorem keeps_freeBits {s t : State} (h : Keeps s t) {a1} : KeepsP s (State.freeBits t a1) := by
  unfold State.freeBits
  refine KeepsP.mk ?_
  exact Keeps.lit (t := t) h rfl rfl rfl
theorem keeps_orFree {s t : State} (h : Keeps s t) {a1 a2} : KeepsP s (State.orFree t a1 a2) := by
  unfold State.orFree
  split
  · exact KeepsP.mk h
  · split
    rename_i e14
    exact KeepsP.mk (KeepsP.eq e14 (keeps_freeBits h))
theorem keeps_gigabytes {s t : State} (h : Keeps s t) {a1} : KeepsP s (State.gigabytes t a1) := by
  unfold State.gigabytes
  split
  · exact KeepsP.mk h
  · exact KeepsP.mk (keeps_useFree h)
theorem keeps_capacity {s t : State} (h : Keeps s t) {a1} : KeepsP s (State.capacity t a1) := by
  unfold State.capacity
  exact keeps_gigabytes h
theorem keeps_objectValue {s t : State} (h : Keeps s t) {a1 a2 a3 a4} : KeepsP s (State.objectValue t a1 a2 a3 a4) := by
  unfold State.objectValue
  split
  · exact KeepsP.mk h
  · split
    · exact KeepsP.mk h
    · split
      · exact KeepsP.mk (keeps_useFree h)
      · split
        · exact keeps_capacity h
        · split
          · exact keeps_orFree h
          · split
            · exact KeepsP.mk h
            · split <;> exact KeepsP.mk h
theorem keeps_osFailed {s t : State} (h : Keeps s t) {a1} : Keeps s (State.osFailed t a1) := by
  unfold State.osFailed
  exact keeps_event h
theorem keeps_hartBegin {s t : State} (h : Keeps s t) {a1 a2 a3} : Keeps s (State.hartBegin t a1 a2 a3) := by
  unfold State.hartBegin
  split
  · exact h
  · exact keeps_modHart h
theorem keeps_osBoot {s t : State} (h : Keeps s t) {a1 a2} : Keeps s (State.osBoot t a1 a2) := by
  unfold State.osBoot
  split
  · exact keeps_osFailed h
  · extract_lets +onlyGivenNames -merge x5 x6
    have h7 : Keeps s x6 := Keeps.lit (t := t) h rfl rfl rfl
    clear_value x6
    split
    · exact h7
    · rename_i v16 e17
      extract_lets +onlyGivenNames -merge x18 x19
      have h20 : Keeps s x19 := Keeps.lit (t := v16) (KeepsO.eq e17 (KeepsO.bindS (keeps_hubWriteRange h7) fun u21 h22 => keeps_hubWriteRange h22)) rfl rfl rfl
      clear_value x19
      exact keeps_hartBegin h20
theorem keeps_osBootMemory {s t : State} (h : Keeps s t) {a1} : Keeps s (State.osBootMemory t a1) := by
  unfold State.osBootMemory
  extract_lets +onlyGivenNames -merge x1
  split
  split
  · exact keeps_osFailed h
  · split
    split
    · exact keeps_osFailed h
    · exact keeps_osBoot h
theorem keeps_execOsImageLoaded {s t : State} (h : Keeps s t) {a0 a1} : KeepsA s (execOsImageLoaded a0 a1 t) := by
  unfold execOsImageLoaded
  refine KeepsA.next ?_
  split
  · exact keeps_osBoot h
  · exact h
theorem keeps_bootNow {s t : State} (h : Keeps s t) {a1} : Keeps s (State.bootNow t a1) := by
  unfold State.bootNow
  split
  · exact keeps_osBootMemory h
  · exact h
theorem keeps_claimIndex {s t : State} (h : Keeps s t) {a1 a2 a3} : Keeps s (State.claimIndex t a1 a2 a3) := by
  unfold State.claimIndex
  split
  · exact Keeps.lit (t := t) h rfl rfl rfl
  · exact h
theorem keeps_startSave {s t : State} (h : Keeps s t) : Keeps s (State.startSave t) := by
  unfold State.startSave
  extract_lets +onlyGivenNames -merge x1
  refine keeps_setCounter ?_
  exact Keeps.lit (t := t) h rfl rfl rfl
theorem keeps_eraseStore {s t : State} (h : Keeps s t) : Keeps s (State.eraseStore t) := by
  unfold State.eraseStore
  exact Keeps.lit (t := t) h rfl rfl rfl
theorem keeps_rewriteSecurity {s t : State} (h : Keeps s t) {a1 a2} : Keeps s (State.rewriteSecurity t a1 a2) := by
  unfold State.rewriteSecurity
  extract_lets +onlyGivenNames -merge x1 x2 x3 x4
  exact Keeps.lit (t := t) h rfl rfl rfl
theorem keeps_setValue {s t : State} (h : Keeps s t) {a1 a2 a3} : Keeps s (State.setValue t a1 a2 a3) := by
  unfold State.setValue
  exact Keeps.lit (t := t) h rfl rfl rfl
theorem keeps_writeTwin {s t : State} (h : Keeps s t) {a1 a2 a3} : Keeps s (State.writeTwin t a1 a2 a3) := by
  unfold State.writeTwin
  extract_lets +onlyGivenNames -merge x1
  split
  · exact keeps_modTwin h
  · exact keeps_modTwin h
  · exact keeps_modTwin h
  · exact keeps_modTwin h
  · exact keeps_modTwin h
  · exact keeps_modTwin h
  · exact keeps_modTwin h
  · exact keeps_modTwin h
  · exact keeps_softDrainDone h
theorem keeps_raiseFloor {s t : State} (h : Keeps s t) : Keeps s (State.raiseFloor t) := by
  unfold State.raiseFloor
  split
  · split
    · exact Keeps.lit (t := t) h rfl rfl rfl
    · exact h
  · exact h
theorem keeps_startUpdate {s t : State} (h : Keeps s t) {a1} : Keeps s (State.startUpdate t a1) := by
  unfold State.startUpdate
  exact Keeps.lit (t := t) h rfl rfl rfl
theorem keeps_applyWrite {s t : State} (h : Keeps s t) {a1 a2 a3} : Keeps s (State.applyWrite t a1 a2 a3) := by
  unfold State.applyWrite
  split
  · split
    · exact keeps_startSave h
    · exact keeps_eraseStore h
  · split
    · exact h
    · exact keeps_releaseSlot h
  · exact keeps_stackRequest (keeps_setValue h)
  · exact keeps_declareSlack (keeps_setValue h)
  · split
    · exact Keeps.lit (t := t) h rfl rfl rfl
    · exact keeps_setSailing h
  · exact keeps_startImage (keeps_setValue h)
  · exact keeps_bootNow h
  · extract_lets +onlyGivenNames -merge x29
    have h30 : Keeps s x29 := keeps_setValue h
    clear_value x29
    exact Keeps.lit (t := x29) h30 rfl rfl rfl
  · extract_lets +onlyGivenNames -merge x33
    have h34 : Keeps s x33 := keeps_setValue h
    clear_value x33
    split
    · exact keeps_setCounter h34
    · exact h34
  · split <;> exact keeps_rewriteSecurity h
  · extract_lets +onlyGivenNames -merge x47
    exact keeps_rewriteSecurity h
  · split
    · exact keeps_raiseFloor h
    · exact keeps_setValue h
  · split
    · exact Keeps.lit (t := t) h rfl rfl rfl
    · exact keeps_setValue h
  · exact keeps_startUpdate h
  · extract_lets +onlyGivenNames -merge x64 x65
    have h66 : Keeps s x65 := keeps_setValue h
    clear_value x65
    split
    · exact keeps_setCounter h66
    · exact h66
  · extract_lets +onlyGivenNames -merge x73 x74
    have h75 : Keeps s x74 := keeps_setValue h
    clear_value x74
    split
    · exact keeps_setCounter h75
    · exact h75
  · split
    · exact keeps_writeTwin h
    · split
      · exact keeps_powerSettle (keeps_setValue h)
      · exact keeps_setValue h
theorem keeps_dictWrite {s t : State} (h : Keeps s t) {a1 a2 a3 a4 a5 a6 a7} : KeepsP s (State.dictWrite t a1 a2 a3 a4 a5 a6 a7) := by
  unfold State.dictWrite
  split
  · exact KeepsP.mk h
  · split
    · exact KeepsP.mk (keeps_count h)
    · split
      · exact KeepsP.mk h
      · split
        · exact KeepsP.mk h
        · split
          · exact KeepsP.mk h
          · split
            · exact KeepsP.mk h
            · split
              · exact KeepsP.mk h
              · exact KeepsP.mk (keeps_applyWrite (keeps_claimIndex h))
theorem keeps_roleWrite {s t : State} (h : Keeps s t) {a1 a2 a3 a4 a5} : Keeps s (State.roleWrite t a1 a2 a3 a4 a5) := by
  unfold State.roleWrite
  split
  · exact h
  · split
    · exact h
    · split
      rename_i e26
      exact keeps_send (KeepsP.eq e26 (keeps_dictWrite h))
theorem keeps_execStackOfflineRequest {s t : State} (h : Keeps s t) {a0 a1} : KeepsA s (execStackOfflineRequest a0 a1 t) := by
  unfold execStackOfflineRequest
  exact KeepsA.next (keeps_roleWrite h)
theorem keeps_execSpareSlotFree {s t : State} (h : Keeps s t) {a0 a1} : KeepsA s (execSpareSlotFree a0 a1 t) := by
  unfold execSpareSlotFree
  exact KeepsA.next (keeps_roleWrite h)
theorem keeps_execBootNow {s t : State} (h : Keeps s t) {a0 a1 a2} : KeepsA s (execBootNow a0 a1 a2 t) := by
  unfold execBootNow
  exact KeepsA.next (keeps_roleWrite h)
theorem keeps_execStoreCommand {s t : State} (h : Keeps s t) {a0 a1} : KeepsA s (execStoreCommand a0 a1 t) := by
  unfold execStoreCommand
  exact KeepsA.next (keeps_roleWrite h)
theorem keeps_execRestoreCommand {s t : State} (h : Keeps s t) {a0 a1} : KeepsA s (execRestoreCommand a0 a1 t) := by
  unfold execRestoreCommand
  exact KeepsA.next (keeps_roleWrite h)
theorem keeps_execSlackWater {s t : State} (h : Keeps s t) {a0 a1 a2} : KeepsA s (execSlackWater a0 a1 a2 t) := by
  unfold execSlackWater
  exact KeepsA.next (keeps_roleWrite h)
theorem keeps_execDrainDone {s t : State} (h : Keeps s t) {a0 a1} : KeepsA s (execDrainDone a0 a1 t) := by
  unfold execDrainDone
  exact KeepsA.next (keeps_roleWrite h)
theorem keeps_execDrainDoneFailed {s t : State} (h : Keeps s t) {a0 a1} : KeepsA s (execDrainDoneFailed a0 a1 t) := by
  unfold execDrainDoneFailed
  exact KeepsA.next (keeps_roleWrite h)
theorem keeps_execGroupImageAddress {s t : State} (h : Keeps s t) {a0 a1 a2} : KeepsA s (execGroupImageAddress a0 a1 a2 t) := by
  unfold execGroupImageAddress
  exact KeepsA.next (keeps_roleWrite h)
theorem keeps_execDirectoryProbeAddress {s t : State} (h : Keeps s t) {a0 a1 a2} : KeepsA s (execDirectoryProbeAddress a0 a1 a2 t) := by
  unfold execDirectoryProbeAddress
  exact KeepsA.next (keeps_roleWrite h)
theorem keeps_execPartitionSailing {s t : State} (h : Keeps s t) {a0 a1 a2} : KeepsA s (execPartitionSailing a0 a1 a2 t) := by
  unfold execPartitionSailing
  exact KeepsA.next (keeps_roleWrite h)
theorem keeps_execRecoveryRequest {s t : State} (h : Keeps s t) {a0 a1} : KeepsA s (execRecoveryRequest a0 a1 t) := by
  unfold execRecoveryRequest
  exact KeepsA.next (keeps_roleWrite h)
theorem keeps_execUpdateFromAddress {s t : State} (h : Keeps s t) {a0 a1} : KeepsA s (execUpdateFromAddress a0 a1 t) := by
  unfold execUpdateFromAddress
  exact KeepsA.next (keeps_roleWrite h)
theorem keeps_execUpdateFromNetwork {s t : State} (h : Keeps s t) {a0 a1} : KeepsA s (execUpdateFromNetwork a0 a1 t) := by
  unfold execUpdateFromNetwork
  exact KeepsA.next (keeps_roleWrite h)
theorem keeps_execCommitFloor {s t : State} (h : Keeps s t) {a0 a1} : KeepsA s (execCommitFloor a0 a1 t) := by
  unfold execCommitFloor
  exact KeepsA.next (keeps_roleWrite h)
theorem keeps_execOwnerKeyHashEnrol {s t : State} (h : Keeps s t) {a0 a1} : KeepsA s (execOwnerKeyHashEnrol a0 a1 t) := by
  unfold execOwnerKeyHashEnrol
  exact KeepsA.next (keeps_roleWrite h)
theorem keeps_execReleaseOwnership {s t : State} (h : Keeps s t) {a0 a1} : KeepsA s (execReleaseOwnership a0 a1 t) := by
  unfold execReleaseOwnership
  exact KeepsA.next (keeps_roleWrite h)
theorem keeps_execOwnerRoleKey {s t : State} (h : Keeps s t) {a0 a1} : KeepsA s (execOwnerRoleKey a0 a1 t) := by
  unfold execOwnerRoleKey
  exact KeepsA.next (keeps_roleWrite h)
theorem keeps_execOperatorRoleKey {s t : State} (h : Keeps s t) {a0 a1} : KeepsA s (execOperatorRoleKey a0 a1 t) := by
  unfold execOperatorRoleKey
  exact KeepsA.next (keeps_roleWrite h)
theorem keeps_execDirectoryProbeDone {s t : State} (h : Keeps s t) : KeepsA s (execDirectoryProbeDone t) := by
  unfold execDirectoryProbeDone
  refine KeepsA.next ?_
  split
  · refine keeps_setCounter ?_
    exact Keeps.lit (t := t) h rfl rfl rfl
  · exact h
theorem keeps_execStoreSaveDone {s t : State} (h : Keeps s t) {a0} : KeepsA s (execStoreSaveDone a0 t) := by
  unfold execStoreSaveDone
  refine KeepsA.next ?_
  split
  · exact h
  · split
    · extract_lets +onlyGivenNames -merge x13 x14
      have h15 : Keeps s x14 := Keeps.lit (t := t) h rfl rfl rfl
      clear_value x14
      exact keeps_count (keeps_setCounter (keeps_setCounter h15))
    · refine keeps_setCounter ?_
      exact Keeps.lit (t := t) h rfl rfl rfl
theorem keeps_execNodeRecordWrite {s t : State} (h : Keeps s t) : KeepsA s (execNodeRecordWrite t) := by
  unfold execNodeRecordWrite
  refine KeepsA.next ?_
  split
  · exact keeps_writeRecord (Keeps.lit h rfl rfl rfl)
  · exact h
theorem keeps_execResourceHoldExpiry {s t : State} (h : Keeps s t) {a0} : KeepsA s (execResourceHoldExpiry a0 t) := by
  unfold execResourceHoldExpiry
  refine KeepsA.next ?_
  exact Keeps.lit (t := t) h rfl rfl rfl
theorem keeps_execNonCoherentTagStateRelease {s t : State} (h : Keeps s t) : KeepsA s (execNonCoherentTagStateRelease t) := by
  unfold execNonCoherentTagStateRelease
  extract_lets +onlyGivenNames -merge x1
  refine KeepsA.next ?_
  split
  · exact h
  · extract_lets +onlyGivenNames -merge x6
    refine keeps_setCounter ?_
    exact Keeps.lit (t := t) h rfl rfl rfl
theorem keeps_execSessionIdleTimeout {s t : State} (h : Keeps s t) {a0} : KeepsA s (execSessionIdleTimeout a0 t) := by
  unfold execSessionIdleTimeout
  refine KeepsA.next ?_
  exact Keeps.lit (t := t) h rfl rfl rfl
/-- Node reset keeps the queue and memory, and the power order where what it says of the rails holds. -/
theorem keeps_nodeResetOf {s t : State} (b : Bool) (hp : t.pending = s.pending)
    (hm : Memory.wf s.mem.cells = true → Memory.wf t.mem.cells = true) (hn : PowerOrder s.pins → PowerOrder { t.pins with nodeReset := true }) :
    Keeps s (State.nodeReset t b) := by
  refine ⟨hp, fun w => ?_, hn⟩
  show Memory.wf (if b = true then [] else t.mem.cells) = true
  split
  · rfl
  · exact hm w
theorem keeps_nodeReset {s t : State} (h : Keeps s t) {a1} : Keeps s (State.nodeReset t a1) :=
  keeps_nodeResetOf a1 h.1 h.2.1 fun w => ⟨fun e => Bool.noConfusion e, (h.2.2 w).2⟩
/-- Releasing node reset keeps the power order where nothing holds it. -/
theorem keeps_tryRelease {s t : State} (h : Keeps s t) : Keeps s (State.tryRelease t) := by
  unfold State.tryRelease
  split
  · rename_i e
    simp only [Bool.and_eq_true] at e
    refine ⟨h.1, h.2.1, fun w => ?_⟩
    have k := h.2.2 w
    exact ⟨fun _ => ⟨e.1.1.2, e.1.2, e.2⟩, k.2⟩
  · exact h
theorem keeps_setStage {s t : State} (h : Keeps s t) {a1} : Keeps s (State.setStage t a1) := by
  unfold State.setStage
  exact Keeps.lit (t := t) h rfl rfl rfl
theorem keeps_degrade {s t : State} (h : Keeps s t) {a1} : Keeps s (State.degrade t a1) := by
  unfold State.degrade
  exact Keeps.lit (t := t) h rfl rfl rfl
theorem keeps_execBootRom {s t : State} (h : Keeps s t) : KeepsA s (execBootRom t) := by
  unfold execBootRom
  refine KeepsA.next ?_
  split
  · exact keeps_setStage h
  · exact h
theorem keeps_execBootIdentity {s t : State} (h : Keeps s t) {a0} : KeepsA s (execBootIdentity a0 t) := by
  unfold execBootIdentity
  refine KeepsA.next ?_
  split
  · exact h
  · split <;> exact Keeps.lit (t := t) h rfl rfl rfl
theorem keeps_askChunk {s t : State} (h : Keeps s t) : Keeps s (State.askChunk t) := by
  unfold State.askChunk
  exact keeps_send (keeps_useFree h)
theorem keeps_pullNetwork {s t : State} (h : Keeps s t) : Keeps s (State.pullNetwork t) := by
  unfold State.pullNetwork
  refine keeps_askChunk ?_
  exact Keeps.lit (t := t) h rfl rfl rfl
theorem keeps_enterRecovery {s t : State} (h : Keeps s t) : Keeps s (State.enterRecovery t) := by
  unfold State.enterRecovery
  extract_lets +onlyGivenNames -merge x1 x2
  have h3 : Keeps s x2 := Keeps.lit (t := t) h rfl rfl rfl
  extract_lets +onlyGivenNames -merge x4 x5 x6
  have h7 : Keeps s x6 := by
    unfold x6
    split
    · exact h3
    · exact Keeps.lit (t := x2) h3 rfl rfl rfl
  clear_value x6
  split
  · exact h7
  · exact keeps_pullNetwork h7
  · split
    · exact keeps_pullNetwork (keeps_useFree h7)
    · exact keeps_useFree h7
theorem keeps_execBootImage {s t : State} (h : Keeps s t) : KeepsA s (execBootImage t) := by
  unfold execBootImage
  refine KeepsA.next ?_
  split
  · exact h
  · split
    · exact keeps_enterRecovery h
    · extract_lets +onlyGivenNames -merge x9
      split
      · exact Keeps.lit (t := t) h rfl rfl rfl
      · exact keeps_enterRecovery (keeps_count h)
theorem keeps_loadSettings {s t : State} (h : Keeps s t) : Keeps s (State.loadSettings t) := by
  unfold State.loadSettings
  split
  extract_lets +onlyGivenNames -merge x9 x10
  have h11 : Keeps s x10 := Keeps.lit (t := t) h rfl rfl rfl
  clear_value x10
  extract_lets +onlyGivenNames -merge x12
  have h13 : Keeps s x12 := keeps_setCounter (keeps_setCounter h11)
  clear_value x12
  exact keeps_setCounter (keeps_setCounter h13)
theorem keeps_loadRecords {s t : State} (h : Keeps s t) : Keeps s (State.loadRecords t) := by
  unfold State.loadRecords
  split
  · extract_lets +onlyGivenNames -merge x13 x14
    have h15 : Keeps s x14 := Keeps.lit (t := t) h rfl rfl rfl
    clear_value x14
    refine Keeps.foldl ?_ fun u16 z17 h18 => ?_
    · exact h15
    · split
      · exact h18
      · exact keeps_modStack h18
  · split
    · extract_lets +onlyGivenNames -merge x29
      refine keeps_writeRecord ?_
      refine keeps_setCounter ?_
      exact Keeps.lit (t := t) h rfl rfl rfl
    · exact keeps_writeRecord h
theorem keeps_applyReset {s t : State} (h : Keeps s t) : Keeps s (State.applyReset t) := by
  unfold State.applyReset
  extract_lets +onlyGivenNames -merge x1 x2 x3 x4 x5
  have h6 : Keeps s x5 := by
    unfold x5
    split
    · exact keeps_useFree h
    · exact h
  clear_value x5
  extract_lets +onlyGivenNames -merge x11
  exact Keeps.lit (t := x5) h6 rfl rfl rfl
theorem keeps_execBootHandover {s t : State} (h : Keeps s t) : KeepsA s (execBootHandover t) := by
  unfold execBootHandover
  refine KeepsA.next ?_
  split
  · exact h
  · extract_lets +onlyGivenNames -merge x5 x6
    have h7 : Keeps s x6 := Keeps.lit (t := t) h rfl rfl rfl
    split
    · exact keeps_setStage h7
    · extract_lets +onlyGivenNames -merge x12
      have h13 : Keeps s x12 := keeps_setStage (keeps_loadRecords (keeps_applyReset (keeps_loadSettings h7)))
      clear_value x12
      split
      · exact h13
      · refine keeps_event ?_
        exact Keeps.lit (t := x12) h13 rfl rfl rfl
theorem keeps_initialCredits {s t : State} (h : Keeps s t) {a1} : KeepsP s (State.initialCredits t a1) := by
  unfold State.initialCredits
  refine KeepsP.mk ?_
  exact Keeps.lit (t := t) h rfl rfl rfl
theorem keeps_bringUp {s t : State} (h : Keeps s t) {a1 a2 a3} : Keeps s (State.bringUp t a1 a2 a3) := by
  unfold State.bringUp
  extract_lets +onlyGivenNames -merge x1
  have h2 : Keeps s x1 := keeps_modLink h
  clear_value x1
  split
  · exact h
  · split
    · exact keeps_declareDown h2
    · extract_lets +onlyGivenNames -merge x11
      have h12 : Keeps s x11 := h2
      clear_value x11
      extract_lets +onlyGivenNames -merge x13 x14
      have h15 : Keeps s x14 := by
        unfold x14
        split
        · exact keeps_formCaps h12
        · exact keeps_setLink h12
      clear_value x14
      split
      · exact h15
      · split
        rename_i e31
        split
        rename_i e39
        extract_lets +onlyGivenNames -merge x40
        exact keeps_linkActive (keeps_modLink (KeepsP.eq e39 (keeps_initialCredits (KeepsP.eq e31 (keeps_initialCredits h15)))))
theorem keeps_execBootPackageLinks {s t : State} (h : Keeps s t) {a0 a1} : KeepsA s (execBootPackageLinks a0 a1 t) := by
  unfold execBootPackageLinks
  extract_lets +onlyGivenNames -merge x1
  refine KeepsA.next ?_
  split
  · exact h
  · extract_lets +onlyGivenNames -merge x6
    have h7 : Keeps s x6 := by
      unfold x6
      split
      · exact Keeps.lit (t := t) h rfl rfl rfl
      · exact h
    clear_value x6
    extract_lets +onlyGivenNames -merge x12
    have h13 : Keeps s x12 := by
      unfold x12
      refine Keeps.foldl ?_ fun u14 z15 h16 => ?_
      · exact h7
      · split
        · exact keeps_declareDown h16
        · exact keeps_bringUp h16
    clear_value x12
    exact keeps_setStage h13
theorem keeps_execBootMemory {s t : State} (h : Keeps s t) {a0 a1} : KeepsA s (execBootMemory a0 a1 t) := by
  unfold execBootMemory
  refine KeepsA.next ?_
  split
  · exact h
  · extract_lets u v m w
    have hu : Keeps s u := Keeps.foldl h fun _ _ k => keeps_degrade (keeps_modStack k)
    clear_value u
    have hv : Keeps s v := by
      refine Keeps.foldl hu fun x _ k => ?_
      refine keeps_event (keeps_degrade ?_)
      exact Keeps.lit (t := x) k rfl rfl rfl
    clear_value v
    have hw : Keeps s w := by
      unfold w
      split
      · exact ⟨hv.1, fun _ => rfl, hv.2.2⟩
      · exact hv
    clear_value w
    exact Keeps.lit (t := w) hw rfl rfl rfl
theorem keeps_execBootProcessorDies {s t : State} (h : Keeps s t) {a0} : KeepsA s (execBootProcessorDies a0 t) := by
  unfold execBootProcessorDies
  refine KeepsA.next ?_
  split
  · exact h
  · extract_lets +onlyGivenNames -merge x5 x6
    have h7 : Keeps s x6 := Keeps.lit (t := t) h rfl rfl rfl
    clear_value x6
    extract_lets +onlyGivenNames -merge x8
    have h9 : Keeps s x8 := by
      unfold x8
      refine Keeps.foldl ?_ fun u10 z11 h12 => ?_
      · exact h7
      · split
        · exact h12
        · refine keeps_degrade ?_
          exact Keeps.lit (t := u10) h12 rfl rfl rfl
    clear_value x8
    exact keeps_setStage h9
theorem keeps_execBootHostPorts {s t : State} (h : Keeps s t) : KeepsA s (execBootHostPorts t) := by
  unfold execBootHostPorts
  refine KeepsA.next ?_
  split
  · exact h
  · extract_lets +onlyGivenNames -merge x5 x6
    have h7 : Keeps s x6 := by
      unfold x6
      refine Keeps.foldl ?_ fun u8 z9 h10 => ?_
      · exact h
      · extract_lets +onlyGivenNames -merge x11
        have h12 : Keeps s x11 := keeps_modPort h10
        clear_value x11
        exact Keeps.foldl h12 fun _ _ h15 => keeps_modFn h15
    clear_value x6
    exact keeps_setStage h7
theorem keeps_execBootNetwork {s t : State} (h : Keeps s t) {a0} : KeepsA s (execBootNetwork a0 t) := by
  unfold execBootNetwork
  refine KeepsA.next ?_
  split
  · exact h
  · extract_lets +onlyGivenNames -merge x5
    have h6 : Keeps s x5 := by
      unfold x5
      refine Keeps.foldl ?_ fun u7 z8 h9 => ?_
      · exact h
      · split
        · exact h9
        · split
          · exact keeps_degrade h9
          · exact keeps_modSubport h9
    clear_value x5
    exact keeps_setStage h6
theorem keeps_execMemoryClearingDone {s t : State} (h : Keeps s t) {a0} : KeepsA s (execMemoryClearingDone a0 t) := by
  unfold execMemoryClearingDone
  refine KeepsA.next ?_
  split
  · exact h
  · extract_lets +onlyGivenNames -merge x5 x6
    have h7 : Keeps s x6 := by
      unfold x6
      refine keeps_setCounter ?_
      exact Keeps.lit (t := t) h rfl rfl rfl
    clear_value x6
    split
    · exact keeps_raiseFloor h7
    · exact h7
theorem keeps_nextSource {s t : State} (h : Keeps s t) : Keeps s (State.nextSource t) := by
  unfold State.nextSource
  split
  · exact h
  · exact keeps_pullNetwork h
  · split
    · exact Keeps.lit (t := t) h rfl rfl rfl
    · exact keeps_pullNetwork h
theorem keeps_execRecoveryChunkResponse {s t : State} (h : Keeps s t) {a0 a1} : KeepsA s (execRecoveryChunkResponse a0 a1 t) := by
  unfold execRecoveryChunkResponse
  refine KeepsA.next ?_
  split
  · exact h
  · extract_lets +onlyGivenNames -merge x5 x6
    have h7 : Keeps s x6 := Keeps.lit (t := t) h rfl rfl rfl
    extract_lets +onlyGivenNames -merge x8
    split
    · exact keeps_askChunk h7
    · split
      · extract_lets +onlyGivenNames -merge x15
        have h16 : Keeps s x15 := keeps_recCheck h7
        clear_value x15
        split
        · exact Keeps.lit (t := x15) h16 rfl rfl rfl
        · exact keeps_nextSource h16
      · exact Keeps.lit (t := x6) h7 rfl rfl rfl
theorem keeps_execRecoveryRetry {s t : State} (h : Keeps s t) : KeepsA s (execRecoveryRetry t) := by
  unfold execRecoveryRetry
  refine KeepsA.next ?_
  split
  · split
    · exact keeps_nextSource h
    · refine keeps_askChunk ?_
      exact Keeps.lit (t := t) h rfl rfl rfl
  · split
    · exact keeps_nextSource h
    · exact h
theorem keeps_execRecoveryImageWritten {s t : State} (h : Keeps s t) {a0} : KeepsA s (execRecoveryImageWritten a0 t) := by
  unfold execRecoveryImageWritten
  refine KeepsA.next ?_
  split
  · exact h
  · split
    · refine keeps_tryRelease ?_
      refine keeps_nodeReset ?_
      exact Keeps.lit (t := t) h rfl rfl rfl
    · exact Keeps.lit (t := t) h rfl rfl rfl
theorem keeps_execUpdateDone {s t : State} (h : Keeps s t) {a0} : KeepsA s (execUpdateDone a0 t) := by
  unfold execUpdateDone
  refine KeepsA.next ?_
  split
  · exact h
  · extract_lets +onlyGivenNames -merge x5 x6 x7 x8
    have h9 : Keeps s x8 := Keeps.lit (t := t) h rfl rfl rfl
    clear_value x8
    split
    · exact h9
    · exact keeps_count h9

end Sys2Proof.Laws
end

