-- ==== Sys2Proof/Laws/KeepsMore.lean ====
section
/-! SUPPORT. What every operation keeps (Laws/Keeps.lean): vector, float, transfer and synchronisation instructions, cores, Milmiuno, resets and SPDM. -/
namespace Sys2Proof.Laws
open Sys2Proof.Machine

theorem keeps_vxIssue {s t : State} (h : Keeps s t) {a1 a2 a3 a4 a5 a6 a7} (k : ∀ u g, Keeps s u → Keeps s (a7 u g)) :
    Keeps s (State.vxIssue t a1 a2 a3 a4 a5 a6 a7) := by
  unfold State.vxIssue
  refine keeps_issue h fun u g x n hu => ?_
  dsimp only
  split
  · exact hu
  · split
    · exact hu
    · exact keeps_setGroup (keeps_modCluster (k _ _ hu))
theorem keeps_noMark {s t : State} (h : Keeps s t) {a1} : Keeps s (noMark t a1) := by
  unfold noMark
  exact h
theorem keeps_vxPlain {s t : State} (h : Keeps s t) {a1 a2 a3 a4} : Keeps s (State.vxPlain t a1 a2 a3 a4) := by
  unfold State.vxPlain
  exact keeps_vxIssue h fun _ _ y3 => keeps_noMark y3
theorem keeps_execVxSetvl {s t : State} (h : Keeps s t) {a0 a1} : KeepsA s (execVxSetvl a0 a1 t) := by
  unfold execVxSetvl
  extract_lets +onlyGivenNames -merge x1
  refine KeepsA.next ?_
  refine keeps_issue ?_ ?_
  · exact h
  · intro y2 y3 y4 y5 y6
    split
    · exact KeepsE.fault y6
    · extract_lets +onlyGivenNames -merge x11 x12
      exact KeepsE.done (keeps_setGroup (keeps_count y6))
theorem keeps_execVxLd {s t : State} (h : Keeps s t) {a0 a1} : KeepsA s (execVxLd a0 a1 t) := by
  unfold execVxLd
  exact KeepsA.next (keeps_vxIssue h fun _ _ y3 => keeps_noMark y3)
theorem keeps_execVxSt {s t : State} (h : Keeps s t) {a0 a1} : KeepsA s (execVxSt a0 a1 t) := by
  unfold execVxSt
  exact KeepsA.next (keeps_vxIssue h fun _ _ y3 => keeps_noMark y3)
theorem keeps_execVxBcast {s t : State} (h : Keeps s t) {a0 a1} : KeepsA s (execVxBcast a0 a1 t) := by
  unfold execVxBcast
  exact KeepsA.next (keeps_vxPlain h)
theorem keeps_execVxAdd {s t : State} (h : Keeps s t) {a0 a1} : KeepsA s (execVxAdd a0 a1 t) := by
  unfold execVxAdd
  exact KeepsA.next (keeps_vxPlain h)
theorem keeps_execVxSub {s t : State} (h : Keeps s t) {a0 a1} : KeepsA s (execVxSub a0 a1 t) := by
  unfold execVxSub
  exact KeepsA.next (keeps_vxPlain h)
theorem keeps_execVxMul {s t : State} (h : Keeps s t) {a0 a1} : KeepsA s (execVxMul a0 a1 t) := by
  unfold execVxMul
  exact KeepsA.next (keeps_vxPlain h)
theorem keeps_execVxFma {s t : State} (h : Keeps s t) {a0 a1} : KeepsA s (execVxFma a0 a1 t) := by
  unfold execVxFma
  exact KeepsA.next (keeps_vxPlain h)
theorem keeps_execVxMin {s t : State} (h : Keeps s t) {a0 a1} : KeepsA s (execVxMin a0 a1 t) := by
  unfold execVxMin
  exact KeepsA.next (keeps_vxPlain h)
theorem keeps_execVxMax {s t : State} (h : Keeps s t) {a0 a1} : KeepsA s (execVxMax a0 a1 t) := by
  unfold execVxMax
  exact KeepsA.next (keeps_vxPlain h)
theorem keeps_execVxAbs {s t : State} (h : Keeps s t) {a0 a1} : KeepsA s (execVxAbs a0 a1 t) := by
  unfold execVxAbs
  exact KeepsA.next (keeps_vxPlain h)
theorem keeps_execVxNeg {s t : State} (h : Keeps s t) {a0 a1} : KeepsA s (execVxNeg a0 a1 t) := by
  unfold execVxNeg
  exact KeepsA.next (keeps_vxPlain h)
theorem keeps_execVxAnd {s t : State} (h : Keeps s t) {a0 a1} : KeepsA s (execVxAnd a0 a1 t) := by
  unfold execVxAnd
  exact KeepsA.next (keeps_vxPlain h)
theorem keeps_execVxOr {s t : State} (h : Keeps s t) {a0 a1} : KeepsA s (execVxOr a0 a1 t) := by
  unfold execVxOr
  exact KeepsA.next (keeps_vxPlain h)
theorem keeps_execVxXor {s t : State} (h : Keeps s t) {a0 a1} : KeepsA s (execVxXor a0 a1 t) := by
  unfold execVxXor
  exact KeepsA.next (keeps_vxPlain h)
theorem keeps_execVxNot {s t : State} (h : Keeps s t) {a0 a1} : KeepsA s (execVxNot a0 a1 t) := by
  unfold execVxNot
  exact KeepsA.next (keeps_vxPlain h)
theorem keeps_execVxCvt {s t : State} (h : Keeps s t) {a0 a1} : KeepsA s (execVxCvt a0 a1 t) := by
  unfold execVxCvt
  exact KeepsA.next (keeps_vxPlain h)
theorem keeps_execVxCmpeq {s t : State} (h : Keeps s t) {a0 a1} : KeepsA s (execVxCmpeq a0 a1 t) := by
  unfold execVxCmpeq
  exact KeepsA.next (keeps_vxPlain h)
theorem keeps_execVxCmplt {s t : State} (h : Keeps s t) {a0 a1} : KeepsA s (execVxCmplt a0 a1 t) := by
  unfold execVxCmplt
  exact KeepsA.next (keeps_vxPlain h)
theorem keeps_execVxCmple {s t : State} (h : Keeps s t) {a0 a1} : KeepsA s (execVxCmple a0 a1 t) := by
  unfold execVxCmple
  exact KeepsA.next (keeps_vxPlain h)
theorem keeps_execVxSel {s t : State} (h : Keeps s t) {a0 a1} : KeepsA s (execVxSel a0 a1 t) := by
  unfold execVxSel
  exact KeepsA.next (keeps_vxPlain h)
theorem keeps_execVxMand {s t : State} (h : Keeps s t) {a0 a1} : KeepsA s (execVxMand a0 a1 t) := by
  unfold execVxMand
  exact KeepsA.next (keeps_vxPlain h)
theorem keeps_execVxMor {s t : State} (h : Keeps s t) {a0 a1} : KeepsA s (execVxMor a0 a1 t) := by
  unfold execVxMor
  exact KeepsA.next (keeps_vxPlain h)
theorem keeps_execVxMxor {s t : State} (h : Keeps s t) {a0 a1} : KeepsA s (execVxMxor a0 a1 t) := by
  unfold execVxMxor
  exact KeepsA.next (keeps_vxPlain h)
theorem keeps_execVxMnot {s t : State} (h : Keeps s t) {a0 a1} : KeepsA s (execVxMnot a0 a1 t) := by
  unfold execVxMnot
  exact KeepsA.next (keeps_vxPlain h)
theorem keeps_execVxPerm {s t : State} (h : Keeps s t) {a0 a1} : KeepsA s (execVxPerm a0 a1 t) := by
  unfold execVxPerm
  exact KeepsA.next (keeps_vxPlain h)
theorem keeps_execVxIota {s t : State} (h : Keeps s t) {a0 a1} : KeepsA s (execVxIota a0 a1 t) := by
  unfold execVxIota
  exact KeepsA.next (keeps_vxPlain h)
theorem keeps_vxRed {s t : State} (h : Keeps s t) {a1 a2 a3} : Keeps s (State.vxRed t a1 a2 a3) := by
  unfold State.vxRed
  exact keeps_vxPlain h
theorem keeps_execVxRedAdd {s t : State} (h : Keeps s t) {a0 a1} : KeepsA s (execVxRedAdd a0 a1 t) := by
  unfold execVxRedAdd
  exact KeepsA.next (keeps_vxRed h)
theorem keeps_execVxRedProduct {s t : State} (h : Keeps s t) {a0 a1} : KeepsA s (execVxRedProduct a0 a1 t) := by
  unfold execVxRedProduct
  exact KeepsA.next (keeps_vxRed h)
theorem keeps_execVxRedMax {s t : State} (h : Keeps s t) {a0 a1} : KeepsA s (execVxRedMax a0 a1 t) := by
  unfold execVxRedMax
  exact KeepsA.next (keeps_vxRed h)
theorem keeps_execVxRedMin {s t : State} (h : Keeps s t) {a0 a1} : KeepsA s (execVxRedMin a0 a1 t) := by
  unfold execVxRedMin
  exact KeepsA.next (keeps_vxRed h)
theorem keeps_execVxRedAnd {s t : State} (h : Keeps s t) {a0 a1} : KeepsA s (execVxRedAnd a0 a1 t) := by
  unfold execVxRedAnd
  exact KeepsA.next (keeps_vxRed h)
theorem keeps_execVxRedOr {s t : State} (h : Keeps s t) {a0 a1} : KeepsA s (execVxRedOr a0 a1 t) := by
  unfold execVxRedOr
  exact KeepsA.next (keeps_vxRed h)
theorem keeps_execVxRedXor {s t : State} (h : Keeps s t) {a0 a1} : KeepsA s (execVxRedXor a0 a1 t) := by
  unfold execVxRedXor
  exact KeepsA.next (keeps_vxRed h)
theorem keeps_execVxExp2 {s t : State} (h : Keeps s t) {a0 a1} : KeepsA s (execVxExp2 a0 a1 t) := by
  unfold execVxExp2
  exact KeepsA.next (keeps_vxPlain h)
theorem keeps_execVxLog2 {s t : State} (h : Keeps s t) {a0 a1} : KeepsA s (execVxLog2 a0 a1 t) := by
  unfold execVxLog2
  exact KeepsA.next (keeps_vxPlain h)
theorem keeps_execVxRcp {s t : State} (h : Keeps s t) {a0 a1} : KeepsA s (execVxRcp a0 a1 t) := by
  unfold execVxRcp
  exact KeepsA.next (keeps_vxPlain h)
theorem keeps_execVxRsqrt {s t : State} (h : Keeps s t) {a0 a1} : KeepsA s (execVxRsqrt a0 a1 t) := by
  unfold execVxRsqrt
  exact KeepsA.next (keeps_vxPlain h)
theorem keeps_execVxExtr {s t : State} (h : Keeps s t) {a0 a1} : KeepsA s (execVxExtr a0 a1 t) := by
  unfold execVxExtr
  exact KeepsA.next (keeps_vxIssue h fun _ _ y3 => keeps_noMark y3)
theorem keeps_execVxGets {s t : State} (h : Keeps s t) {a0 a1} : KeepsA s (execVxGets a0 a1 t) := by
  unfold execVxGets
  exact KeepsA.next (keeps_vxIssue h fun _ _ y3 => keeps_noMark y3)
theorem keeps_setSlot {s t : State} (h : Keeps s t) {a1 a2 a3} : Keeps s (State.setSlot t a1 a2 a3) := by
  unfold State.setSlot
  exact keeps_modCluster h
theorem keeps_execVxChld {s t : State} (h : Keeps s t) {a0 a1} : KeepsA s (execVxChld a0 a1 t) := by
  unfold execVxChld
  exact KeepsA.next (keeps_vxIssue h fun _ _ y3 => keeps_setSlot (keeps_count y3))
theorem keeps_execVxChbase {s t : State} (h : Keeps s t) {a0 a1} : KeepsA s (execVxChbase a0 a1 t) := by
  unfold execVxChbase
  extract_lets +onlyGivenNames -merge x1
  refine KeepsA.next ?_
  refine keeps_issue ?_ ?_
  · exact h
  · intro y2 y3 y4 y5 y6
    split
    · exact KeepsE.fault y6
    · extract_lets +onlyGivenNames -merge x11 x12 x13
      exact KeepsE.done (keeps_setGroup (keeps_setSlot (keeps_count y6)))
theorem keeps_vxStore {s t : State} (h : Keeps s t) {a1 a2 a3} : Keeps s (State.vxStore t a1 a2 a3) := by
  unfold State.vxStore
  extract_lets +onlyGivenNames -merge x1 x2 x3
  refine Keeps.foldl ?_ fun u4 z5 h6 => ?_
  · exact h
  · split
    · exact h6
    · split
      · exact keeps_halfStore h6
      · exact keeps_spadStore h6
theorem keeps_rowOut {s t : State} (h : Keeps s t) {a1 a2 a3 a4 a5 a6 a7 a8 a9} : Keeps s (State.rowOut t a1 a2 a3 a4 a5 a6 a7 a8 a9) := by
  unfold State.rowOut
  split
  · extract_lets +onlyGivenNames -merge x3 x4
    exact keeps_spadStore (keeps_flagGroup h)
  · exact keeps_spadStore h
theorem keeps_slipRow {s t : State} (h : Keeps s t) {a1 a2 a3} : Keeps s (State.slipRow t a1 a2 a3) := by
  unfold State.slipRow
  extract_lets +onlyGivenNames -merge x1 x2 x3 x4 x5 x6 x7 x8 x9
  split
  · extract_lets +onlyGivenNames -merge x14 x15
    have h16 : Keeps s x15 := by
      unfold x15
      refine Keeps.foldl ?_ fun u17 z18 h19 => ?_
      · exact h
      · split
        exact keeps_elemStore h19
    clear_value x15
    exact keeps_flagGroup h16
  · extract_lets +onlyGivenNames -merge x34 x35 x36
    split
    rename_i e44
    extract_lets +onlyGivenNames -merge x45 x46
    have h47 : Keeps s x46 := by
      unfold x46
      refine Keeps.foldl ?_ fun u48 z49 h50 => ?_
      · refine KeepsP.eq e44 ?_
        refine KeepsP.foldl ?_ fun u51 z52 h53 => ?_
        · exact KeepsP.mk h
        · unfold State.chainStage
          split
          · exact KeepsP.mk (keeps_rowOut (KeepsP.fst h53))
          · exact KeepsP.mk (KeepsP.fst h53)
      · split
        exact keeps_elemStore h50
    clear_value x46
    exact keeps_flagGroup h47
theorem keeps_slipMeet {s t : State} (h : Keeps s t) {a1 a2} : KeepsP s (State.slipMeet t a1 a2) := by
  unfold State.slipMeet
  split
  · rename_i e8
    exact KeepsP.mk (KeepsP.eq e8 (keeps_meetEntries h))
  · rename_i e14
    split
    · exact KeepsP.mk (KeepsP.eq e14 (keeps_meetEntries h))
    · extract_lets +onlyGivenNames -merge x27
      exact keeps_meetScratch (KeepsP.eq e14 (keeps_meetEntries h))
theorem keeps_execSlipPass {s t : State} (h : Keeps s t) {a0} : KeepsA s (execSlipPass a0 t) := by
  unfold execSlipPass
  refine KeepsA.next ?_
  refine keeps_settleEnds ?_
  split
  · exact h
  · split
    · rename_i e20
      exact KeepsP.fst (keeps_engineFault (KeepsP.eq e20 (keeps_slipMeet h)))
    · rename_i e26
      extract_lets +onlyGivenNames -merge x27 x28
      have h29 : Keeps s x28 := by
        unfold x28
        split
        · exact keeps_slipRow (keeps_slipRow (KeepsP.eq e26 (keeps_slipMeet h)))
        · exact keeps_slipRow (KeepsP.eq e26 (keeps_slipMeet h))
      clear_value x28
      extract_lets +onlyGivenNames -merge x34
      have h35 : Keeps s x34 := by
        unfold x34
        split
        · exact keeps_count h29
        · exact h29
      clear_value x34
      extract_lets +onlyGivenNames -merge x40
      have h41 : Keeps s x40 := keeps_count h35
      clear_value x40
      split
      · exact keeps_modCluster h41
      · exact keeps_modCluster (keeps_setTile h41)
theorem keeps_execMxDrain {s t : State} (h : Keeps s t) {a0 a1} : KeepsA s (execMxDrain a0 a1 t) := by
  unfold execMxDrain
  extract_lets +onlyGivenNames -merge x1 x2 x3
  refine KeepsA.next ?_
  refine keeps_issue ?_ ?_
  · exact h
  · intro y4 y5 y6 y7 y8
    extract_lets +onlyGivenNames -merge x9 x10
    split
    · exact KeepsE.hold y8
    · extract_lets +onlyGivenNames -merge x15 x16 x17 x18 x19 x20 x21 x22 x23
      split
      · exact KeepsE.fault y8
      · extract_lets +onlyGivenNames -merge x34 x35
        have h36 : Keeps s x35 := keeps_setTile y8
        clear_value x35
        exact KeepsE.done (keeps_mxPush h36)
theorem keeps_vxLoadChain {s t : State} (h : Keeps s t) {a1 a2 a3} : Keeps s (State.vxLoadChain t a1 a2 a3) := by
  unfold State.vxLoadChain
  extract_lets +onlyGivenNames -merge x1
  split
  · exact keeps_modGroup (keeps_setSlot h)
  · exact KeepsP.fst (keeps_engineFault (keeps_setSlot h))
theorem keeps_vxMeet {s t : State} (h : Keeps s t) {a1 a2} : KeepsP s (State.vxMeet t a1 a2) := by
  unfold State.vxMeet
  extract_lets +onlyGivenNames -merge x1
  split
  · exact keeps_meetScratch h
  · exact keeps_meetScratch h
  · exact KeepsP.mk h
theorem keeps_execVectorEngineStart {s t : State} (h : Keeps s t) {a0} : KeepsA s (execVectorEngineStart a0 t) := by
  unfold execVectorEngineStart
  refine KeepsA.next ?_
  refine keeps_settleEnds ?_
  split
  · exact h
  · extract_lets +onlyGivenNames -merge x13 x14
    split
    · exact h
    · extract_lets +onlyGivenNames -merge x19
      have h20 : Keeps s x19 := keeps_count (keeps_modCluster h)
      clear_value x19
      split
      · exact h20
      · split
        · rename_i e38
          exact KeepsP.fst (keeps_engineFault (KeepsP.eq e38 (keeps_vxMeet h20)))
        · rename_i e44
          split
          · exact keeps_vxLoadChain (KeepsP.eq e44 (keeps_vxMeet h20))
          · split
            · exact keeps_vxStore (KeepsP.eq e44 (keeps_vxMeet h20))
            · extract_lets +onlyGivenNames -merge x53 x54
              have h55 : Keeps s x54 := keeps_setGroup (KeepsP.eq e44 (keeps_vxMeet h20))
              clear_value x54
              split
              · exact keeps_count h55
              · exact h55
theorem keeps_coreValue {s t : State} (h : Keeps s t) {a1 a2} : Keeps s (State.coreValue t a1 a2) := by
  unfold State.coreValue
  exact keeps_send (keeps_modHart h)
theorem keeps_coreReadBytes {s t : State} (h : Keeps s t) {a1 a2 a3 a4} : KeepsOP s (State.coreReadBytes t a1 a2 a3 a4) := by
  unfold State.coreReadBytes
  refine KeepsOP.foldl ?_ fun u1 z2 h3 => ?_
  · exact KeepsOP.some (KeepsP.mk h)
  · split
    refine KeepsOP.bindP ?_ fun u10 h11 => ?_
    · exact h3
    · split
      split
      · exact KeepsOP.none
      · refine KeepsOP.mapP ?_ fun u32 h33 => ?_
        · exact keeps_coreRead h11
        · split
          exact KeepsP.mk h33
theorem keeps_storeBreaks {s t : State} (h : Keeps s t) {a1 a2} : Keeps s (State.storeBreaks t a1 a2) := by
  unfold State.storeBreaks
  exact keeps_breakReservations h
theorem keeps_coreWriteBytes {s t : State} (h : Keeps s t) {a1 a2 a3 a4 a5} : KeepsO s (State.coreWriteBytes t a1 a2 a3 a4 a5) := by
  unfold State.coreWriteBytes
  refine KeepsO.foldl ?_ fun u1 z2 h3 => ?_
  · exact KeepsO.some h
  · split
    refine KeepsO.bindS ?_ fun u10 h11 => ?_
    · exact h3
    · split
      · exact KeepsO.none
      · extract_lets +onlyGivenNames -merge x22
        exact KeepsO.mapS (keeps_coreWrite h11) fun u23 h24 => keeps_storeBreaks h24
theorem keeps_coreLoad {s t : State} (h : Keeps s t) {a1 a2 a3} : Keeps s (State.coreLoad t a1 a2 a3) := by
  unfold State.coreLoad
  extract_lets +onlyGivenNames -merge x1
  split
  · exact keeps_retryMet h
  · rename_i e17
    split
    · exact keeps_coreFault (KeepsOP.eq e17 (keeps_coreReadBytes h))
    · split
      · exact keeps_coreFault (KeepsOP.eq e17 (keeps_coreReadBytes h))
      · extract_lets +onlyGivenNames -merge x26
        have h27 : Keeps s x26 := by
          unfold x26
          split
          · exact keeps_modHart (KeepsOP.eq e17 (keeps_coreReadBytes h))
          · exact KeepsOP.eq e17 (keeps_coreReadBytes h)
        clear_value x26
        exact keeps_coreValue h27
theorem keeps_coreMemory {s t : State} (h : Keeps s t) {a1 a2} : Keeps s (State.coreMemory t a1 a2) := by
  unfold State.coreMemory
  extract_lets +onlyGivenNames -merge x1 x2
  split
  · exact keeps_coreLoad h
  · exact keeps_coreLoad h
  · exact keeps_coreLoad h
  · exact KeepsO.getD (keeps_coreWriteBytes h) (keeps_retryMet h)
  · extract_lets +onlyGivenNames -merge x23 x24
    have h25 : Keeps s x24 := keeps_modHart h
    clear_value x24
    split
    · split
      · exact keeps_retryMet h
      · rename_i e37
        exact keeps_coreValue (KeepsO.eq e37 (keeps_coreWriteBytes h25))
    · exact keeps_coreValue h25
  · split
    · exact keeps_retryMet h
    · rename_i e59
      split
      · exact keeps_coreFault (KeepsOP.eq e59 (keeps_coreReadBytes h))
      · split
        · exact keeps_coreFault (KeepsOP.eq e59 (keeps_coreReadBytes h))
        · split
          · exact keeps_retryMet h
          · rename_i e77
            exact keeps_coreValue (KeepsO.eq e77 (keeps_coreWriteBytes (KeepsOP.eq e59 (keeps_coreReadBytes h))))
theorem keeps_coreUncached {s t : State} (h : Keeps s t) {a1 a2 a3} : Keeps s (State.coreUncached t a1 a2 a3) := by
  unfold State.coreUncached
  extract_lets +onlyGivenNames -merge x1 x2 x3 x4
  split
  · split
    · exact h
    · exact keeps_coreFault h
  · split
    · exact keeps_writeAt h
    · split
      rename_i e36
      exact keeps_coreValue (KeepsP.eq e36 (keeps_readAt h))
    · exact keeps_send h
    · exact keeps_coreValue (keeps_useFree h)
    · exact keeps_windowPut h
    · exact keeps_windowGet h
    · exact keeps_hostWrite h
    · exact keeps_hostRead h
    · exact h
theorem keeps_execCoreAccess {s t : State} (h : Keeps s t) {a0 a1} : KeepsA s (execCoreAccess a0 a1 t) := by
  unfold execCoreAccess
  extract_lets +onlyGivenNames -merge x1
  refine KeepsA.next ?_
  split
  · exact h
  · extract_lets +onlyGivenNames -merge x6
    have h7 : Keeps s x6 := keeps_modHart h
    clear_value x6
    split
    · exact keeps_coreFault h7
    · extract_lets +onlyGivenNames -merge x12
      split
      · exact keeps_coreMemory h7
      · exact keeps_coreUncached h7
theorem keeps_execCoreFence {s t : State} (h : Keeps s t) {a0 a1 a2} : KeepsA s (execCoreFence a0 a1 a2 t) := by
  unfold execCoreFence
  refine KeepsA.next ?_
  split
  · exact h
  · exact keeps_count h
theorem keeps_cleanLine {s t : State} (h : Keeps s t) {a1} : Keeps s (State.cleanLine t a1) := by
  unfold State.cleanLine
  refine Keeps.foldl ?_ fun u1 z2 h3 => ?_
  · exact h
  · refine Keeps.foldl ?_ fun u4 z5 h6 => ?_
    · exact h3
    · extract_lets +onlyGivenNames -merge x7
      exact keeps_modAgent (keeps_dramWriteLine h6)
theorem keeps_dropLine {s t : State} (h : Keeps s t) {a1} : Keeps s (State.dropLine t a1) := by
  unfold State.dropLine
  extract_lets +onlyGivenNames -merge x1
  have h2 : Keeps s x1 := Keeps.foldl h fun _ _ h5 => keeps_modAgent (keeps_breakReservations h5)
  clear_value x1
  exact keeps_modAgent h2
theorem keeps_execCboFlush {s t : State} (h : Keeps s t) {a0 a1 a2} : KeepsA s (execCboFlush a0 a1 a2 t) := by
  unfold execCboFlush
  extract_lets +onlyGivenNames -merge x1
  refine KeepsA.next ?_
  split
  · exact h
  · split
    · exact keeps_coreFault h
    · split
      · exact h
      · extract_lets +onlyGivenNames -merge x20
        split
        · exact h
        · extract_lets +onlyGivenNames -merge x25
          have h26 : Keeps s x25 := keeps_cleanLine (keeps_reclaimNow h)
          clear_value x25
          split
          · exact h26
          · exact keeps_dropLine h26
          · exact keeps_dropLine h26
theorem keeps_execStimecmpMatch {s t : State} (h : Keeps s t) {a0} : KeepsA s (execStimecmpMatch a0 t) := by
  unfold execStimecmpMatch
  refine KeepsA.next ?_
  split
  · exact keeps_modHart h
  · exact h
theorem keeps_floatOp {s t : State} (h : Keeps s t) {a1 a2 a3 a4 a5 a6 a7} : Keeps s (State.floatOp t a1 a2 a3 a4 a5 a6 a7) := by
  unfold State.floatOp
  exact keeps_issueGroup h
theorem keeps_execF32Add {s t : State} (h : Keeps s t) {a0 a1} : KeepsA s (execF32Add a0 a1 t) := by
  unfold execF32Add
  exact KeepsA.next (keeps_floatOp h)
theorem keeps_execF32Sub {s t : State} (h : Keeps s t) {a0 a1} : KeepsA s (execF32Sub a0 a1 t) := by
  unfold execF32Sub
  exact KeepsA.next (keeps_floatOp h)
theorem keeps_execF32Mul {s t : State} (h : Keeps s t) {a0 a1} : KeepsA s (execF32Mul a0 a1 t) := by
  unfold execF32Mul
  exact KeepsA.next (keeps_floatOp h)
theorem keeps_execF32Fma {s t : State} (h : Keeps s t) {a0 a1} : KeepsA s (execF32Fma a0 a1 t) := by
  unfold execF32Fma
  exact KeepsA.next (keeps_floatOp h)
theorem keeps_execF32Min {s t : State} (h : Keeps s t) {a0 a1} : KeepsA s (execF32Min a0 a1 t) := by
  unfold execF32Min
  exact KeepsA.next (keeps_floatOp h)
theorem keeps_execF32Max {s t : State} (h : Keeps s t) {a0 a1} : KeepsA s (execF32Max a0 a1 t) := by
  unfold execF32Max
  exact KeepsA.next (keeps_floatOp h)
theorem keeps_execF32Abs {s t : State} (h : Keeps s t) {a0 a1} : KeepsA s (execF32Abs a0 a1 t) := by
  unfold execF32Abs
  exact KeepsA.next (keeps_floatOp h)
theorem keeps_execF32Neg {s t : State} (h : Keeps s t) {a0 a1} : KeepsA s (execF32Neg a0 a1 t) := by
  unfold execF32Neg
  exact KeepsA.next (keeps_floatOp h)
theorem keeps_execF32Div {s t : State} (h : Keeps s t) {a0 a1} : KeepsA s (execF32Div a0 a1 t) := by
  unfold execF32Div
  exact KeepsA.next (keeps_floatOp h)
theorem keeps_execF32Sqrt {s t : State} (h : Keeps s t) {a0 a1} : KeepsA s (execF32Sqrt a0 a1 t) := by
  unfold execF32Sqrt
  exact KeepsA.next (keeps_floatOp h)
theorem keeps_execF64Add {s t : State} (h : Keeps s t) {a0 a1} : KeepsA s (execF64Add a0 a1 t) := by
  unfold execF64Add
  exact KeepsA.next (keeps_floatOp h)
theorem keeps_execF64Sub {s t : State} (h : Keeps s t) {a0 a1} : KeepsA s (execF64Sub a0 a1 t) := by
  unfold execF64Sub
  exact KeepsA.next (keeps_floatOp h)
theorem keeps_execF64Mul {s t : State} (h : Keeps s t) {a0 a1} : KeepsA s (execF64Mul a0 a1 t) := by
  unfold execF64Mul
  exact KeepsA.next (keeps_floatOp h)
theorem keeps_execF64Fma {s t : State} (h : Keeps s t) {a0 a1} : KeepsA s (execF64Fma a0 a1 t) := by
  unfold execF64Fma
  exact KeepsA.next (keeps_floatOp h)
theorem keeps_execF64Min {s t : State} (h : Keeps s t) {a0 a1} : KeepsA s (execF64Min a0 a1 t) := by
  unfold execF64Min
  exact KeepsA.next (keeps_floatOp h)
theorem keeps_execF64Max {s t : State} (h : Keeps s t) {a0 a1} : KeepsA s (execF64Max a0 a1 t) := by
  unfold execF64Max
  exact KeepsA.next (keeps_floatOp h)
theorem keeps_execF64Abs {s t : State} (h : Keeps s t) {a0 a1} : KeepsA s (execF64Abs a0 a1 t) := by
  unfold execF64Abs
  exact KeepsA.next (keeps_floatOp h)
theorem keeps_execF64Neg {s t : State} (h : Keeps s t) {a0 a1} : KeepsA s (execF64Neg a0 a1 t) := by
  unfold execF64Neg
  exact KeepsA.next (keeps_floatOp h)
theorem keeps_execF64Div {s t : State} (h : Keeps s t) {a0 a1} : KeepsA s (execF64Div a0 a1 t) := by
  unfold execF64Div
  exact KeepsA.next (keeps_floatOp h)
theorem keeps_execF64Sqrt {s t : State} (h : Keeps s t) {a0 a1} : KeepsA s (execF64Sqrt a0 a1 t) := by
  unfold execF64Sqrt
  exact KeepsA.next (keeps_floatOp h)
theorem keeps_cmpOp {s t : State} (h : Keeps s t) {a1 a2 a3} : Keeps s (State.cmpOp t a1 a2 a3) := by
  unfold State.cmpOp
  extract_lets +onlyGivenNames -merge x1 x2
  exact keeps_issueGroup h
theorem keeps_execCmpEq {s t : State} (h : Keeps s t) {a0 a1} : KeepsA s (execCmpEq a0 a1 t) := by
  unfold execCmpEq
  exact KeepsA.next (keeps_cmpOp h)
theorem keeps_execCmpNe {s t : State} (h : Keeps s t) {a0 a1} : KeepsA s (execCmpNe a0 a1 t) := by
  unfold execCmpNe
  exact KeepsA.next (keeps_cmpOp h)
theorem keeps_execCmpLt {s t : State} (h : Keeps s t) {a0 a1} : KeepsA s (execCmpLt a0 a1 t) := by
  unfold execCmpLt
  exact KeepsA.next (keeps_cmpOp h)
theorem keeps_execCmpLe {s t : State} (h : Keeps s t) {a0 a1} : KeepsA s (execCmpLe a0 a1 t) := by
  unfold execCmpLe
  exact KeepsA.next (keeps_cmpOp h)
theorem keeps_execCmpSel {s t : State} (h : Keeps s t) {a0 a1} : KeepsA s (execCmpSel a0 a1 t) := by
  unfold execCmpSel
  extract_lets +onlyGivenNames -merge x1
  exact KeepsA.next (keeps_issueGroup h)
theorem keeps_cvtOp {s t : State} (h : Keeps s t) {a1 a2 a3 a4 a5 a6 a7} : Keeps s (State.cvtOp t a1 a2 a3 a4 a5 a6 a7) := by
  unfold State.cvtOp
  extract_lets +onlyGivenNames -merge x1
  exact keeps_issueGroup h
theorem keeps_execCvtCvt {s t : State} (h : Keeps s t) {a0 a1} : KeepsA s (execCvtCvt a0 a1 t) := by
  unfold execCvtCvt
  exact KeepsA.next (keeps_cvtOp h)
theorem keeps_execCvtCvte {s t : State} (h : Keeps s t) {a0 a1} : KeepsA s (execCvtCvte a0 a1 t) := by
  unfold execCvtCvte
  exact KeepsA.next (keeps_cvtOp h)
theorem keeps_execCvtEcvt {s t : State} (h : Keeps s t) {a0 a1} : KeepsA s (execCvtEcvt a0 a1 t) := by
  unfold execCvtEcvt
  exact KeepsA.next (keeps_cvtOp h)
theorem keeps_readService {s t : State} (h : Keeps s t) {a1 a2 a3 a4 a5 a6} : KeepsP s (State.readService t a1 a2 a3 a4 a5 a6) := by
  unfold State.readService
  extract_lets +onlyGivenNames -merge x1
  split
  · exact KeepsP.mk h
  · split
    · split
      · exact KeepsP.mk h
      · split
        rename_i e19
        extract_lets +onlyGivenNames -merge x20 x21
        exact KeepsP.mk (KeepsP.eq e19 (keeps_objectValue h))
    · split
      · exact KeepsP.mk h
      · split
        rename_i e35
        extract_lets +onlyGivenNames -merge x36
        exact KeepsP.mk (KeepsP.eq e35 (keeps_objectValue h))
theorem keeps_openSession {s t : State} (h : Keeps s t) {a1 a2 a3} : KeepsP s (State.openSession t a1 a2 a3) := by
  unfold State.openSession
  extract_lets +onlyGivenNames -merge x1
  split
  · exact KeepsP.mk h
  · split
    · exact KeepsP.mk h
    · split
      · exact KeepsP.mk (keeps_useFree h)
      · extract_lets +onlyGivenNames -merge x14
        split
        rename_i v20 _ e22
        extract_lets +onlyGivenNames -merge x23
        refine KeepsP.mk ?_
        exact Keeps.lit (t := v20) (KeepsP.eq e22 (keeps_freeBits (keeps_useFree h))) rfl rfl rfl
theorem keeps_service {s t : State} (h : Keeps s t) {a1 a2 a3} : KeepsP s (State.service t a1 a2 a3) := by
  unfold State.service
  extract_lets +onlyGivenNames -merge x1 x2 x3 x4
  split
  · exact keeps_openSession h
  · split
    · refine KeepsP.mk ?_
      exact Keeps.lit (t := t) h rfl rfl rfl
    · exact KeepsP.mk (keeps_count h)
  · split
    · exact KeepsP.mk h
    · split
      · exact KeepsP.mk h
      · split
        · exact KeepsP.mk h
        · split
          · exact keeps_readService h
          · split
            rename_i e62
            exact KeepsP.mk (KeepsP.eq e62 (keeps_dictWrite h))
          · exact KeepsP.mk h
          · split <;> exact KeepsP.mk h
theorem keeps_keep {s t : State} (h : Keeps s t) {a1 a2 a3} : Keeps s (State.keep t a1 a2 a3) := by
  unfold State.keep
  extract_lets +onlyGivenNames -merge x1 x2
  exact Keeps.lit (t := t) h rfl rfl rfl
theorem keeps_serve {s t : State} (h : Keeps s t) {a1 a2} : KeepsP s (State.serve t a1 a2) := by
  unfold State.serve
  extract_lets +onlyGivenNames -merge x1 x2 x3
  have h4 : Keeps s x3 := by
    unfold x3
    split
    · exact keeps_useFree h
    · exact h
  clear_value x3
  clear_value x2
  split
  · exact KeepsP.mk (keeps_count (keeps_count h4))
  · extract_lets +onlyGivenNames -merge x15
    split
    · split
      · exact KeepsP.mk h4
      · extract_lets +onlyGivenNames -merge x22
        exact KeepsP.mk (keeps_keep (keeps_count h4))
    · split
      · exact KeepsP.mk (keeps_count h4)
      · extract_lets +onlyGivenNames -merge x29
        split
        · extract_lets +onlyGivenNames -merge x32
          have h33 : Keeps s x32 := keeps_count h4
          clear_value x32
          split
          · exact KeepsP.mk h33
          · extract_lets +onlyGivenNames -merge x38
            exact KeepsP.mk (keeps_keep (keeps_count h33))
        · extract_lets +onlyGivenNames -merge x41 x42
          have h43 : Keeps s x42 := by
            unfold x42
            clear_value x29
            split
            · extract_lets +onlyGivenNames -merge x48
              exact Keeps.lit (t := x3) h4 rfl rfl rfl
            · exact h4
          clear_value x42
          split
          rename_i e60
          extract_lets +onlyGivenNames -merge x61
          exact KeepsP.mk (keeps_keep (keeps_count (KeepsP.eq e60 (keeps_service h43))))
theorem keeps_mailboxDone {s t : State} (h : Keeps s t) {a1 a2} : Keeps s (State.mailboxDone t a1 a2) := by
  unfold State.mailboxDone
  extract_lets +onlyGivenNames -merge x1
  exact keeps_setMailbox h
theorem keeps_sendMgmt {s t : State} (h : Keeps s t) {a1 a2 a3 a4} : Keeps s (State.sendMgmt t a1 a2 a3 a4) := by
  unfold State.sendMgmt
  exact keeps_send (keeps_count h)
theorem keeps_sendAnswer {s t : State} (h : Keeps s t) {a1 a2 a3} : Keeps s (State.sendAnswer t a1 a2 a3) := by
  unfold State.sendAnswer
  split
  · split
    · exact keeps_sendMgmt h
    · extract_lets +onlyGivenNames -merge x13
      split
      · exact keeps_sendMgmt (keeps_useFree h)
      · exact h
  · exact keeps_send h
theorem keeps_milmiuno {s t : State} (h : Keeps s t) {a1 a2 a3} : Keeps s (State.milmiuno t a1 a2 a3) := by
  unfold State.milmiuno
  split
  · exact h
  · split
    · split
      · exact h
      · split
        · rename_i e22
          exact keeps_mailboxDone (KeepsP.eq e22 (keeps_serve h))
        · rename_i e28
          exact KeepsP.eq e28 (keeps_serve h)
    · split
      · exact h
      · split
        · rename_i e44
          exact keeps_sendAnswer (KeepsP.eq e44 (keeps_serve h))
        · rename_i e50
          exact KeepsP.eq e50 (keeps_serve h)
theorem keeps_serviceFrame {s t : State} (h : Keeps s t) {a1 a2 a3} : Keeps s (State.serviceFrame t a1 a2 a3) := by
  unfold State.serviceFrame
  split
  · exact keeps_milmiuno h
  · exact h
theorem keeps_execDictRead {s t : State} (h : Keeps s t) {a0 a1} : KeepsA s (execDictRead a0 a1 t) := by
  unfold execDictRead
  extract_lets +onlyGivenNames -merge x1
  refine KeepsA.next ?_
  split
  · exact h
  · exact keeps_milmiuno h
theorem keeps_execDictWriteFrame {s t : State} (h : Keeps s t) {a0 a1} : KeepsA s (execDictWriteFrame a0 a1 t) := by
  unfold execDictWriteFrame
  exact KeepsA.next (keeps_serviceFrame h)
theorem keeps_execDictDescribe {s t : State} (h : Keeps s t) {a0 a1} : KeepsA s (execDictDescribe a0 a1 t) := by
  unfold execDictDescribe
  exact KeepsA.next (keeps_serviceFrame h)
theorem keeps_execDictNext {s t : State} (h : Keeps s t) {a0 a1} : KeepsA s (execDictNext a0 a1 t) := by
  unfold execDictNext
  exact KeepsA.next (keeps_serviceFrame h)
theorem keeps_execSessionOpen {s t : State} (h : Keeps s t) {a0 a1} : KeepsA s (execSessionOpen a0 a1 t) := by
  unfold execSessionOpen
  exact KeepsA.next (keeps_serviceFrame h)
theorem keeps_execSessionClose {s t : State} (h : Keeps s t) {a0 a1} : KeepsA s (execSessionClose a0 a1 t) := by
  unfold execSessionClose
  exact KeepsA.next (keeps_serviceFrame h)
theorem keeps_execNctMgmt {s t : State} (h : Keeps s t) {a0 a1} : KeepsA s (execNctMgmt a0 a1 t) := by
  unfold execNctMgmt
  exact KeepsA.next (keeps_admitPacket h fun _ _ _ y4 => keeps_milmiuno y4)
theorem keeps_execDoorbell {s t : State} (h : Keeps s t) {a0 a1 a2} : KeepsA s (execDoorbell a0 a1 a2 t) := by
  unfold execDoorbell
  extract_lets +onlyGivenNames -merge x1
  refine KeepsA.next ?_
  split
  · exact keeps_writeReg h
  · exact h
theorem keeps_execQcfgRestart {s t : State} (h : Keeps s t) {a0 a1 a2} : KeepsA s (execQcfgRestart a0 a1 a2 t) := by
  unfold execQcfgRestart
  extract_lets +onlyGivenNames -merge x1
  refine KeepsA.next ?_
  split
  · exact keeps_writeReg h
  · exact h
theorem keeps_sessionWrite {s t : State} (h : Keeps s t) {a1 a2} : Keeps s (State.sessionWrite t a1 a2) := by
  unfold State.sessionWrite
  split
  · exact keeps_writeReg h
  · exact h
theorem keeps_execSessionCtlOpen {s t : State} (h : Keeps s t) {a0} : KeepsA s (execSessionCtlOpen a0 t) := by
  unfold execSessionCtlOpen
  exact KeepsA.next (keeps_sessionWrite h)
theorem keeps_execSessionCtlReattach {s t : State} (h : Keeps s t) {a0} : KeepsA s (execSessionCtlReattach a0 t) := by
  unfold execSessionCtlReattach
  exact KeepsA.next (keeps_sessionWrite h)
theorem keeps_execSessionCtlClose {s t : State} (h : Keeps s t) {a0} : KeepsA s (execSessionCtlClose a0 t) := by
  unfold execSessionCtlClose
  exact KeepsA.next (keeps_sessionWrite h)
theorem keeps_execSessionCtlOpenForce {s t : State} (h : Keeps s t) {a0} : KeepsA s (execSessionCtlOpenForce a0 t) := by
  unfold execSessionCtlOpenForce
  exact KeepsA.next (keeps_sessionWrite h)
theorem keeps_execIntsend {s t : State} (h : Keeps s t) {a0} : KeepsA s (execIntsend a0 t) := by
  unfold execIntsend
  exact KeepsA.next (keeps_intSend h)
theorem keeps_execClaim {s t : State} (h : Keeps s t) {a0} : KeepsA s (execClaim a0 t) := by
  unfold execClaim
  split
  rename_i e8
  exact KeepsA.next (keeps_send (KeepsP.eq e8 (keeps_claim h)))
theorem keeps_execHartStart {s t : State} (h : Keeps s t) {a0 a1 a2} : KeepsA s (execHartStart a0 a1 a2 t) := by
  unfold execHartStart
  exact KeepsA.next (keeps_hartStart h)
theorem keeps_invWrite {s t : State} (h : Keeps s t) {a1 a2 a3 a4} : Keeps s (State.invWrite t a1 a2 a3 a4) := by
  unfold State.invWrite
  split
  · exact keeps_writeAt h
  · exact h
theorem keeps_execInvCtlRange {s t : State} (h : Keeps s t) {a0 a1 a2} : KeepsA s (execInvCtlRange a0 a1 a2 t) := by
  unfold execInvCtlRange
  exact KeepsA.next (keeps_invWrite h)
theorem keeps_execInvCtlContext {s t : State} (h : Keeps s t) {a0 a1 a2} : KeepsA s (execInvCtlContext a0 a1 a2 t) := by
  unfold execInvCtlContext
  exact KeepsA.next (keeps_invWrite h)
theorem keeps_execInvCtlPartition {s t : State} (h : Keeps s t) {a0 a1 a2} : KeepsA s (execInvCtlPartition a0 a1 a2 t) := by
  unfold execInvCtlPartition
  exact KeepsA.next (keeps_invWrite h)
theorem keeps_execResumeRetry {s t : State} (h : Keeps s t) {a0 a1 a2} : KeepsA s (execResumeRetry a0 a1 a2 t) := by
  unfold execResumeRetry
  refine KeepsA.next ?_
  split
  · exact h
  · exact keeps_writeAt h
theorem keeps_execResumeFail {s t : State} (h : Keeps s t) {a0 a1 a2} : KeepsA s (execResumeFail a0 a1 a2 t) := by
  unfold execResumeFail
  refine KeepsA.next ?_
  split
  · exact keeps_writeAt h
  · exact h
theorem keeps_execFqLostRead {s t : State} (h : Keeps s t) {a0 a1 a2 a3} : KeepsA s (execFqLostRead a0 a1 a2 a3 t) := by
  unfold execFqLostRead
  split
  rename_i e8
  exact KeepsA.next (keeps_send (KeepsP.eq e8 (keeps_readAt h)))
theorem keeps_execTallyAdd {s t : State} (h : Keeps s t) {a0 a1 a2 a3} : KeepsA s (execTallyAdd a0 a1 a2 a3 t) := by
  unfold execTallyAdd
  exact KeepsA.next (keeps_writeAt h)
theorem keeps_execRegisterWrite {s t : State} (h : Keeps s t) {a0 a1 a2 a3} : KeepsA s (execRegisterWrite a0 a1 a2 a3 t) := by
  unfold execRegisterWrite
  exact KeepsA.next (keeps_writeAt h)
theorem keeps_execRecGo {s t : State} (h : Keeps s t) {a0} : KeepsA s (execRecGo a0 t) := by
  unfold execRecGo
  refine KeepsA.next ?_
  split
  · exact keeps_recGo h
  · exact h
/-- Power-down leaves the power order whatever the pins were. -/
theorem keeps_powerDownOf {s t : State} (hp : t.pending = s.pending) : Keeps s (State.powerDown t) :=
  ⟨hp, fun _ => rfl, fun _ => ⟨fun e => Bool.noConfusion e, fun e => by rcases e with e | e <;> exact Bool.noConfusion e,
    fun e => Bool.noConfusion e⟩⟩
theorem keeps_powerDown {s t : State} (h : Keeps s t) : Keeps s (State.powerDown t) := keeps_powerDownOf h.1
theorem keeps_tryPower {s t : State} (h : Keeps s t) : Keeps s (State.tryPower t) := by
  unfold State.tryPower
  split
  · rename_i e
    simp only [Bool.and_eq_true, Bool.not_eq_true'] at e
    refine ⟨h.1, h.2.1, fun w => ?_⟩
    have k := h.2.2 w
    exact ⟨k.1, fun _ => ⟨e.1.1.1, e.1.1.2, e.1.2⟩, fun q => by rw [e.2] at q; cases q⟩
  · exact h
/-- A change of the pins alone keeps the rest. -/
theorem Keeps.pins {s t : State} (h : Keeps s t) (p : Pins) (k : PowerOrder t.pins → PowerOrder p) : Keeps s { t with pins := p } :=
  ⟨h.1, h.2.1, fun w => k (h.2.2 w)⟩
theorem keeps_execPwrEnAssert {s t : State} (h : Keeps s t) : KeepsA s (execPwrEnAssert t) := by
  unfold execPwrEnAssert
  exact KeepsA.next (keeps_tryPower (h.pins _ fun k => ⟨k.1, fun e => ⟨rfl, (k.2.1 e).2⟩, k.2.2⟩))
theorem keeps_execPwrEnDeassert {s t : State} (h : Keeps s t) {a0} : KeepsA s (execPwrEnDeassert a0 t) := by
  unfold execPwrEnDeassert
  extract_lets p u
  refine KeepsA.next ?_
  split
  · exact keeps_powerDownOf h.1
  · rename_i e
    have e1 : t.pins.pgood = false ∧ t.pins.railsRising = false := by simpa [u] using e
    refine h.pins _ fun k => ⟨k.1, fun q => ?_, k.2.2⟩
    rcases q with q | q
    · exact absurd (e1.1.symm.trans q) Bool.noConfusion
    · exact absurd (e1.2.symm.trans q) Bool.noConfusion
theorem keeps_execRailsInTolerance {s t : State} (h : Keeps s t) : KeepsA s (execRailsInTolerance t) := by
  unfold execRailsInTolerance
  refine KeepsA.next ?_
  split
  · rename_i e
    exact keeps_tryRelease (h.pins _ fun k => ⟨fun q => ⟨rfl, (k.1 q).2⟩, fun _ => k.2.1 (Or.inr e), fun _ => rfl⟩)
  · exact h
theorem keeps_execModResetAssert {s t : State} (h : Keeps s t) : KeepsA s (execModResetAssert t) := by
  unfold execModResetAssert
  extract_lets p u
  refine KeepsA.next ?_
  split
  · exact keeps_nodeResetOf false h.1 h.2.1 fun w => ⟨fun e => Bool.noConfusion e, (h.2.2 w).2⟩
  · rename_i e
    refine h.pins _ fun k => ⟨fun q => ?_, k.2⟩
    have m := k.1 q
    exact absurd (by simp [m.1, m.2.1]) e
theorem keeps_testLogicReset {s t : State} (h : Keeps s t) : Keeps s (State.testLogicReset t) := by
  unfold State.testLogicReset
  exact Keeps.lit (t := t) h rfl rfl rfl
theorem keeps_execModResetRelease {s t : State} (h : Keeps s t) : KeepsA s (execModResetRelease t) := by
  unfold execModResetRelease
  extract_lets driving p u
  have hu : Keeps s u := h.pins _ fun k => ⟨fun q => ⟨(k.1 q).1, rfl, (k.1 q).2.2⟩, k.2⟩
  refine KeepsA.next (keeps_tryRelease ?_)
  split
  · exact keeps_testLogicReset hu
  · exact hu
theorem keeps_inputShutdown {s t : State} (h : Keeps s t) : Keeps s (State.inputShutdown t) := by
  unfold State.inputShutdown
  extract_lets p u
  split
  · exact keeps_powerDownOf h.1
  · rename_i e
    have e1 : t.pins.pgood = false ∧ t.pins.railsRising = false := by simpa [u] using e
    refine h.pins _ fun k => ⟨k.1, fun q => ?_, k.2.2⟩
    rcases q with q | q
    · exact absurd (e1.1.symm.trans q) Bool.noConfusion
    · exact absurd (e1.2.symm.trans q) Bool.noConfusion
theorem keeps_execUndervoltageShutdown {s t : State} (h : Keeps s t) : KeepsA s (execUndervoltageShutdown t) := by
  unfold execUndervoltageShutdown
  exact KeepsA.next (keeps_inputShutdown h)
theorem keeps_execOvervoltageShutdown {s t : State} (h : Keeps s t) : KeepsA s (execOvervoltageShutdown t) := by
  unfold execOvervoltageShutdown
  exact KeepsA.next (keeps_inputShutdown h)
theorem keeps_execInputRestart {s t : State} (h : Keeps s t) : KeepsA s (execInputRestart t) := by
  unfold execInputRestart
  exact KeepsA.next (keeps_tryPower (h.pins _ fun k => ⟨k.1, fun e => ⟨(k.2.1 e).1, rfl, (k.2.1 e).2.2⟩, k.2.2⟩))
theorem keeps_execOscillatorLoss {s t : State} (h : Keeps s t) : KeepsA s (execOscillatorLoss t) := by
  unfold execOscillatorLoss
  extract_lets p u
  refine KeepsA.next ?_
  split
  · exact keeps_nodeResetOf false h.1 h.2.1 fun w => ⟨fun e => Bool.noConfusion e, (h.2.2 w).2⟩
  · rename_i e
    refine h.pins _ fun k => ⟨fun q => ?_, k.2⟩
    have m := k.1 q
    exact absurd (by simp [m.1]; exact q) e
theorem keeps_execOscillatorReturn {s t : State} (h : Keeps s t) : KeepsA s (execOscillatorReturn t) := by
  unfold execOscillatorReturn
  exact KeepsA.next (keeps_tryRelease (h.pins _ fun k => ⟨fun q => ⟨(k.1 q).1, (k.1 q).2.1, rfl⟩, k.2⟩))
theorem keeps_thermalTrip {s t : State} (h : Keeps s t) {a1} : Keeps s (State.thermalTrip t a1) := by
  unfold State.thermalTrip
  exact keeps_powerDownOf h.1
theorem keeps_thermalStep {s t : State} (h : Keeps s t) {a1 a2} : KeepsP s (State.thermalStep t a1 a2) := by
  unfold State.thermalStep
  extract_lets +onlyGivenNames -merge x1
  split
  extract_lets +onlyGivenNames -merge x14 x15
  split
  · exact KeepsP.mk h
  · split
    · exact KeepsP.mk h
    · split
      · exact KeepsP.mk (keeps_useFree h)
      · split <;> exact KeepsP.mk h
theorem keeps_execThermalSample {s t : State} (h : Keeps s t) {a0 a1} : KeepsA s (execThermalSample a0 a1 t) := by
  unfold execThermalSample
  refine KeepsA.next ?_
  split
  · exact h
  · extract_lets +onlyGivenNames -merge x5
    split
    rename_i v11 _ e13
    extract_lets +onlyGivenNames -merge x14 x15
    have h16 : Keeps s x15 := Keeps.lit (t := v11) (KeepsP.eq e13 (keeps_thermalStep h)) rfl rfl rfl
    clear_value x15
    extract_lets +onlyGivenNames -merge x17
    have h18 : Keeps s x17 := by
      unfold x17
      split
      · exact keeps_count h16
      · exact h16
    clear_value x17
    extract_lets +onlyGivenNames -merge x23
    have h24 : Keeps s x23 := by
      unfold x23
      split
      · exact keeps_count h18
      · exact h18
    clear_value x23
    extract_lets +onlyGivenNames -merge x29
    have h30 : Keeps s x29 := keeps_powerSettle h24
    clear_value x29
    split
    · exact keeps_thermalTrip h30
    · exact h30
theorem keeps_flushSide {s t : State} (h : Keeps s t) {a1} : Keeps s (State.flushSide t a1) := by
  unfold State.flushSide
  split
  · exact KeepsO.getD (keeps_drainAll h) h
  · exact keeps_endReads h
  · exact keeps_pumpAll (Keeps.foldl h fun _ _ h15 => keeps_portDown h15)
theorem keeps_resetSide {s t : State} (h : Keeps s t) {a1} : Keeps s (State.resetSide t a1) := by
  unfold State.resetSide
  split
  · extract_lets +onlyGivenNames -merge x5
    have h6 : Keeps s x5 := Keeps.lit (t := t) h rfl rfl rfl
    clear_value x5
    exact keeps_modCluster h6
  · exact keeps_hostReset h
  · exact h
theorem keeps_execResetRequest {s t : State} (h : Keeps s t) {a0} : KeepsA s (execResetRequest a0 t) := by
  unfold execResetRequest
  refine KeepsA.next ?_
  split
  · exact h
  · refine keeps_flushSide ?_
    exact Keeps.lit (t := t) h rfl rfl rfl
theorem keeps_endFlush {s t : State} (h : Keeps s t) {a1} : Keeps s (State.endFlush t a1) := by
  unfold State.endFlush
  refine keeps_resetSide ?_
  exact Keeps.lit (t := t) h rfl rfl rfl
theorem keeps_execFlushAcknowledgement {s t : State} (h : Keeps s t) {a0} : KeepsA s (execFlushAcknowledgement a0 t) := by
  unfold execFlushAcknowledgement
  refine KeepsA.next ?_
  split
  · exact keeps_endFlush h
  · exact h
theorem keeps_execFlushTimeout {s t : State} (h : Keeps s t) {a0} : KeepsA s (execFlushTimeout a0 t) := by
  unfold execFlushTimeout
  refine KeepsA.next ?_
  split
  · exact keeps_endFlush (keeps_count h)
  · exact h
theorem keeps_tapLoad {s t : State} (h : Keeps s t) {a1 a2 a3} : Keeps s (State.tapLoad t a1 a2 a3) := by
  unfold State.tapLoad
  split
  · exact h
  · extract_lets +onlyGivenNames -merge x5 x6 x7 x8
    exact Keeps.lit (t := t) h rfl rfl rfl
theorem keeps_tapScan {s t : State} (h : Keeps s t) {a1 a2 a3} : Keeps s (State.tapScan t a1 a2 a3) := by
  unfold State.tapScan
  extract_lets +onlyGivenNames -merge x1
  have h2 : Keeps s x1 := keeps_tapLoad h
  clear_value x1
  split
  · split
    rename_i e12
    exact keeps_send (KeepsP.eq e12 (keeps_freeBits h2))
  · exact h2
theorem keeps_execTapIdcode {s t : State} (h : Keeps s t) {a0} : KeepsA s (execTapIdcode a0 t) := by
  unfold execTapIdcode
  refine KeepsA.next ?_
  split
  · exact h
  · exact keeps_send (keeps_tapLoad h)
theorem keeps_execTapSamplePreload {s t : State} (h : Keeps s t) {a0 a1} : KeepsA s (execTapSamplePreload a0 a1 t) := by
  unfold execTapSamplePreload
  exact KeepsA.next (keeps_tapScan h)
theorem keeps_execTapExtest {s t : State} (h : Keeps s t) {a0 a1} : KeepsA s (execTapExtest a0 a1 t) := by
  unfold execTapExtest
  exact KeepsA.next (keeps_tapScan h)
theorem keeps_execTapExtestPulse {s t : State} (h : Keeps s t) {a0 a1} : KeepsA s (execTapExtestPulse a0 a1 t) := by
  unfold execTapExtestPulse
  exact KeepsA.next (keeps_tapScan h)
theorem keeps_execTapExtestTrain {s t : State} (h : Keeps s t) {a0 a1} : KeepsA s (execTapExtestTrain a0 a1 t) := by
  unfold execTapExtestTrain
  exact KeepsA.next (keeps_tapScan h)
theorem keeps_execTapClamp {s t : State} (h : Keeps s t) {a0} : KeepsA s (execTapClamp a0 t) := by
  unfold execTapClamp
  exact KeepsA.next (keeps_tapLoad h)
theorem keeps_execTapHighz {s t : State} (h : Keeps s t) {a0} : KeepsA s (execTapHighz a0 t) := by
  unfold execTapHighz
  exact KeepsA.next (keeps_tapLoad h)
theorem keeps_execTapBypass {s t : State} (h : Keeps s t) {a0} : KeepsA s (execTapBypass a0 t) := by
  unfold execTapBypass
  exact KeepsA.next (keeps_tapLoad h)
theorem keeps_execTrstAssert {s t : State} (h : Keeps s t) : KeepsA s (execTrstAssert t) := by
  unfold execTrstAssert
  refine KeepsA.next ?_
  refine keeps_testLogicReset ?_
  exact Keeps.lit (t := t) h rfl rfl rfl
theorem keeps_execTrstRelease {s t : State} (h : Keeps s t) : KeepsA s (execTrstRelease t) := by
  unfold execTrstRelease
  refine KeepsA.next ?_
  exact Keeps.lit (t := t) h rfl rfl rfl
theorem keeps_setSpdmConn {s t : State} (h : Keeps s t) {a1} : Keeps s (State.setSpdmConn t a1) := by
  unfold State.setSpdmConn
  exact Keeps.lit (t := t) h rfl rfl rfl
theorem keeps_freeBytes {s t : State} (h : Keeps s t) {a1} : KeepsP s (State.freeBytes t a1) := by
  unfold State.freeBytes
  refine KeepsP.mk ?_
  exact Keeps.lit (t := t) h rfl rfl rfl
theorem keeps_spdmNegotiate {s t : State} (h : Keeps s t) {a1 a2 a3 a4} : KeepsP s (State.spdmNegotiate t a1 a2 a3 a4) := by
  unfold State.spdmNegotiate
  extract_lets +onlyGivenNames -merge x1 x2
  exact KeepsP.mk (keeps_setSpdmConn h)
theorem keeps_spdmVersion {s t : State} (h : Keeps s t) {a1 a2} : KeepsP s (State.spdmVersion t a1 a2) := by
  unfold State.spdmVersion
  exact keeps_spdmNegotiate h
theorem keeps_spdmCapabilities {s t : State} (h : Keeps s t) {a1 a2} : KeepsP s (State.spdmCapabilities t a1 a2) := by
  unfold State.spdmCapabilities
  split
  · exact KeepsP.mk h
  · split
    rename_i e12
    extract_lets +onlyGivenNames -merge x13
    exact keeps_spdmNegotiate (KeepsP.eq e12 (keeps_freeBytes h))
theorem keeps_spdmAlgorithms {s t : State} (h : Keeps s t) {a1 a2} : KeepsP s (State.spdmAlgorithms t a1 a2) := by
  unfold State.spdmAlgorithms
  split
  · exact KeepsP.mk h
  · extract_lets +onlyGivenNames -merge x5 x6
    split
    · exact keeps_spdmNegotiate h
    · exact KeepsP.mk h
theorem keeps_spdmCerts {s t : State} (h : Keeps s t) {a1 a2 a3} : KeepsP s (State.spdmCerts t a1 a2 a3) := by
  unfold State.spdmCerts
  extract_lets +onlyGivenNames -merge x1
  exact KeepsP.mk (keeps_setSpdmConn h)
theorem keeps_spdmDigests {s t : State} (h : Keeps s t) {a1 a2} : KeepsP s (State.spdmDigests t a1 a2) := by
  unfold State.spdmDigests
  exact keeps_spdmCerts h
theorem keeps_spdmCertificate {s t : State} (h : Keeps s t) {a1 a2} : KeepsP s (State.spdmCertificate t a1 a2) := by
  unfold State.spdmCertificate
  extract_lets +onlyGivenNames -merge x1 x2
  split
  · exact KeepsP.mk h
  · extract_lets +onlyGivenNames -merge x7
    exact keeps_spdmCerts h
theorem keeps_spdmChallenge {s t : State} (h : Keeps s t) {a1 a2} : KeepsP s (State.spdmChallenge t a1 a2) := by
  unfold State.spdmChallenge
  extract_lets +onlyGivenNames -merge x1
  split
  · exact KeepsP.mk h
  · extract_lets +onlyGivenNames -merge x6
    split
    rename_i e14
    extract_lets +onlyGivenNames -merge x15 x16 x17 x18
    exact KeepsP.mk (keeps_setSpdmConn (KeepsP.eq e14 (keeps_freeBytes h)))
theorem keeps_spdmMeasurements {s t : State} (h : Keeps s t) {a1 a2} : KeepsP s (State.spdmMeasurements t a1 a2) := by
  unfold State.spdmMeasurements
  extract_lets +onlyGivenNames -merge x1 x2 x3
  split
  · split
    · exact KeepsP.mk h
    · extract_lets +onlyGivenNames -merge x10
      split
      rename_i e18
      extract_lets +onlyGivenNames -merge x19 x20 x21
      exact KeepsP.mk (keeps_setSpdmConn (KeepsP.eq e18 (keeps_freeBytes h)))
  · split
    · exact KeepsP.mk h
    · extract_lets +onlyGivenNames -merge x28
      split
      rename_i e36
      extract_lets +onlyGivenNames -merge x37 x38 x39
      exact KeepsP.mk (keeps_setSpdmConn (KeepsP.eq e36 (keeps_freeBytes h)))
theorem keeps_spdmServe {s t : State} (h : Keeps s t) {a1 a2} : KeepsP s (State.spdmServe t a1 a2) := by
  unfold State.spdmServe
  extract_lets +onlyGivenNames -merge x1
  split
  · exact keeps_spdmVersion h
  · split
    · split
      · exact KeepsP.mk h
      · split
        · exact keeps_spdmCapabilities h
        · split
          · exact keeps_spdmAlgorithms h
          · split
            · exact KeepsP.mk h
            · split
              · exact keeps_spdmDigests h
              · split
                · exact keeps_spdmCertificate h
                · split
                  · exact keeps_spdmChallenge h
                  · exact keeps_spdmMeasurements h
    · exact KeepsP.mk h
theorem keeps_spdmFit {s t : State} (h : Keeps s t) {a1 a2} : KeepsP s (State.spdmFit t a1 a2) := by
  unfold State.spdmFit
  split
  · exact KeepsP.mk h
  · split
    · exact KeepsP.mk h
    · extract_lets +onlyGivenNames -merge x15 x16
      exact KeepsP.mk (keeps_setSpdmConn (keeps_useFree h))
theorem keeps_spdmChunkGet {s t : State} (h : Keeps s t) {a1 a2} : KeepsP s (State.spdmChunkGet t a1 a2) := by
  unfold State.spdmChunkGet
  extract_lets +onlyGivenNames -merge x1
  split
  · exact KeepsP.mk h
  · split
    · exact KeepsP.mk h
    · extract_lets +onlyGivenNames -merge x20 x21 x22 x23 x24 x25
      exact KeepsP.mk (keeps_setSpdmConn h)
theorem keeps_spdmChunkSend {s t : State} (h : Keeps s t) {a1 a2} : KeepsP s (State.spdmChunkSend t a1 a2) := by
  unfold State.spdmChunkSend
  extract_lets +onlyGivenNames -merge x1 x2 x3 x4 x5 x6
  split
  · exact KeepsP.mk (keeps_setSpdmConn h)
  · extract_lets +onlyGivenNames -merge x17 x18
    split
    · split
      rename_i e28
      split
      rename_i e36
      exact KeepsP.mk (KeepsP.eq e36 (keeps_spdmFit (KeepsP.eq e28 (keeps_spdmServe (keeps_setSpdmConn h)))))
    · exact KeepsP.mk (keeps_setSpdmConn h)
theorem keeps_spdmAnswer {s t : State} (h : Keeps s t) {a1 a2} : KeepsP s (State.spdmAnswer t a1 a2) := by
  unfold State.spdmAnswer
  extract_lets +onlyGivenNames -merge x1
  split
  · split
    · exact KeepsP.mk h
    · split
      · exact KeepsP.mk h
      · split
        · exact keeps_spdmChunkGet h
        · exact keeps_spdmChunkSend h
  · split
    rename_i e25
    exact keeps_spdmFit (KeepsP.eq e25 (keeps_spdmServe h))
theorem keeps_spdmMessage {s t : State} (h : Keeps s t) {a1 a2} : Keeps s (State.spdmMessage t a1 a2) := by
  unfold State.spdmMessage
  split
  rename_i e8
  exact keeps_send (keeps_count (KeepsP.eq e8 (keeps_spdmAnswer h)))
theorem keeps_spdmRow {s t : State} (h : Keeps s t) {a1 a2 a3} : KeepsA s (State.spdmRow t a1 a2 a3) := by
  unfold State.spdmRow
  refine KeepsA.next ?_
  split
  · exact keeps_spdmMessage h
  · exact h
theorem keeps_execSpdmGetVersion {s t : State} (h : Keeps s t) {a0 a1} : KeepsA s (execSpdmGetVersion a0 a1 t) := by
  unfold execSpdmGetVersion
  exact keeps_spdmRow h
theorem keeps_execSpdmGetCapabilities {s t : State} (h : Keeps s t) {a0 a1} : KeepsA s (execSpdmGetCapabilities a0 a1 t) := by
  unfold execSpdmGetCapabilities
  exact keeps_spdmRow h
theorem keeps_execSpdmNegotiateAlgorithms {s t : State} (h : Keeps s t) {a0 a1} : KeepsA s (execSpdmNegotiateAlgorithms a0 a1 t) := by
  unfold execSpdmNegotiateAlgorithms
  exact keeps_spdmRow h
theorem keeps_execSpdmGetDigests {s t : State} (h : Keeps s t) {a0 a1} : KeepsA s (execSpdmGetDigests a0 a1 t) := by
  unfold execSpdmGetDigests
  exact keeps_spdmRow h
theorem keeps_execSpdmGetCertificate {s t : State} (h : Keeps s t) {a0 a1} : KeepsA s (execSpdmGetCertificate a0 a1 t) := by
  unfold execSpdmGetCertificate
  exact keeps_spdmRow h
theorem keeps_execSpdmChallenge {s t : State} (h : Keeps s t) {a0 a1} : KeepsA s (execSpdmChallenge a0 a1 t) := by
  unfold execSpdmChallenge
  exact keeps_spdmRow h
theorem keeps_execSpdmGetMeasurements {s t : State} (h : Keeps s t) {a0 a1} : KeepsA s (execSpdmGetMeasurements a0 a1 t) := by
  unfold execSpdmGetMeasurements
  exact keeps_spdmRow h
theorem keeps_execSpdmChunkGet {s t : State} (h : Keeps s t) {a0 a1} : KeepsA s (execSpdmChunkGet a0 a1 t) := by
  unfold execSpdmChunkGet
  exact keeps_spdmRow h
theorem keeps_execSpdmChunkSend {s t : State} (h : Keeps s t) {a0 a1} : KeepsA s (execSpdmChunkSend a0 a1 t) := by
  unfold execSpdmChunkSend
  exact keeps_spdmRow h
theorem keeps_execSpdmUnsupported {s t : State} (h : Keeps s t) {a0 a1} : KeepsA s (execSpdmUnsupported a0 a1 t) := by
  unfold execSpdmUnsupported
  refine KeepsA.next ?_
  split
  · exact keeps_spdmMessage h
  · exact h
theorem keeps_syFence {s t : State} (h : Keeps s t) {a1 a2 a3 a4 a5} : Keeps s (State.syFence t a1 a2 a3 a4 a5) := by
  unfold State.syFence
  refine keeps_issue ?_ ?_
  · exact h
  · intro y1 y2 y3 y4 y5
    split
    · exact KeepsE.hold y5
    · rename_i e15
      extract_lets +onlyGivenNames -merge x16 x17
      refine KeepsE.done ?_
      refine keeps_setGroup ?_
      refine KeepsO.eq e15 ?_
      split
      · exact keeps_drainGroup y5
      · exact KeepsO.some y5
theorem keeps_execSyFence {s t : State} (h : Keeps s t) {a0 a1} : KeepsA s (execSyFence a0 a1 t) := by
  unfold execSyFence
  exact KeepsA.next (keeps_syFence h)
theorem keeps_execSyRel {s t : State} (h : Keeps s t) {a0 a1} : KeepsA s (execSyRel a0 a1 t) := by
  unfold execSyRel
  exact KeepsA.next (keeps_syFence h)
theorem keeps_execSyAcq {s t : State} (h : Keeps s t) {a0 a1} : KeepsA s (execSyAcq a0 a1 t) := by
  unfold execSyAcq
  refine KeepsA.next ?_
  refine keeps_issue ?_ ?_
  · exact h
  · intro y1 y2 y3 y4 y5
    extract_lets +onlyGivenNames -merge x6 x7 x8
    have h9 : Keeps s x8 := keeps_setGroup y5
    clear_value x8
    refine KeepsE.done ?_
    split
    · exact h9
    · exact keeps_acquire h9
theorem keeps_execSyFencec {s t : State} (h : Keeps s t) {a0 a1} : KeepsA s (execSyFencec a0 a1 t) := by
  unfold execSyFencec
  refine KeepsA.next ?_
  refine keeps_issue ?_ ?_
  · exact h
  · intro y1 y2 y3 y4 y5
    extract_lets +onlyGivenNames -merge x6
    split
    · exact KeepsE.fault y5
    · split
      · exact keeps_stallIn y5
      · rename_i e28
        split
        · exact keeps_stallIn (KeepsO.eq e28 (keeps_drainGroup y5))
        · extract_lets +onlyGivenNames -merge x33
          have h34 : Keeps s x33 := by
            unfold x33
            split
            · exact keeps_count (KeepsO.eq e28 (keeps_drainGroup y5))
            · exact KeepsO.eq e28 (keeps_drainGroup y5)
          clear_value x33
          exact KeepsE.done (keeps_acquire (keeps_setGroup h34))
theorem keeps_execSyTally {s t : State} (h : Keeps s t) {a0 a1} : KeepsA s (execSyTally a0 a1 t) := by
  unfold execSyTally
  refine KeepsA.next ?_
  refine keeps_issue ?_ ?_
  · exact h
  · intro y1 y2 y3 y4 y5
    extract_lets +onlyGivenNames -merge x6
    split
    · exact KeepsE.fault y5
    · split
      · exact KeepsE.done (keeps_acquire (keeps_setGroup y5))
      · exact keeps_stallIn y5
theorem keeps_execSyTrd {s t : State} (h : Keeps s t) {a0 a1} : KeepsA s (execSyTrd a0 a1 t) := by
  unfold execSyTrd
  refine KeepsA.next ?_
  refine keeps_issue ?_ ?_
  · exact h
  · intro y1 y2 y3 y4 y5
    extract_lets +onlyGivenNames -merge x6
    split
    · exact KeepsE.fault y5
    · exact KeepsE.done (keeps_setGroup y5)
theorem keeps_execSyTadd {s t : State} (h : Keeps s t) {a0 a1} : KeepsA s (execSyTadd a0 a1 t) := by
  unfold execSyTadd
  refine KeepsA.next ?_
  refine keeps_issue ?_ ?_
  · exact h
  · intro y1 y2 y3 y4 y5
    extract_lets +onlyGivenNames -merge x6
    split
    · exact KeepsE.fault y5
    · split
      · exact KeepsE.hold y5
      · rename_i e28
        split
        · exact KeepsE.hold (KeepsO.eq e28 (keeps_drainGroup y5))
        · exact KeepsE.done (keeps_tallyInc (keeps_modGroup (KeepsO.eq e28 (keeps_drainGroup y5))))
theorem keeps_execTallyWaitTimeout {s t : State} (h : Keeps s t) {a0} : KeepsA s (execTallyWaitTimeout a0 t) := by
  unfold execTallyWaitTimeout
  extract_lets +onlyGivenNames -merge x1
  refine KeepsA.next ?_
  split
  · exact h
  · split
    · extract_lets +onlyGivenNames -merge x24 x25 x26
      split
      · exact h
      · split
        · split
          · exact h
          · exact keeps_takeFault (keeps_count h)
        · exact h
    · exact h
theorem keeps_scatter {s t : State} (h : Keeps s t) {a1 a2 a3 a4} : Keeps s (State.scatter t a1 a2 a3 a4) := by
  unfold State.scatter
  refine KeepsP.fst ?_
  refine KeepsP.foldl ?_ fun u1 z2 h3 => ?_
  · exact KeepsP.mk h
  · split
    split
    exact KeepsP.mk (keeps_spadStore h3)
theorem keeps_txPush {s t : State} (h : Keeps s t) {a1 a2 a3} : KeepsE s (State.txPush t a1 a2 a3) := by
  unfold State.txPush
  split
  · exact KeepsE.hold h
  · exact KeepsE.done (keeps_setGroup (keeps_modCluster h))
theorem keeps_txTileIssue {s t : State} (h : Keeps s t) {a1 a2 a3} : Keeps s (State.txTileIssue t a1 a2 a3) := by
  unfold State.txTileIssue
  extract_lets +onlyGivenNames -merge x1 x2
  refine keeps_issue ?_ ?_
  · exact h
  · intro y3 y4 y5 y6 y7
    extract_lets +onlyGivenNames -merge x8
    split
    · exact KeepsE.fault y7
    · exact keeps_txPush y7
theorem keeps_txLinear {s t : State} (h : Keeps s t) {a1 a2 a3} : Keeps s (State.txLinear t a1 a2 a3) := by
  unfold State.txLinear
  extract_lets +onlyGivenNames -merge x1 x2
  refine keeps_issue ?_ ?_
  · exact h
  · intro y3 y4 y5 y6 y7
    extract_lets +onlyGivenNames -merge x8
    split
    · exact KeepsE.fault y7
    · exact keeps_txPush y7
theorem keeps_execTxLd {s t : State} (h : Keeps s t) {a0 a1} : KeepsA s (execTxLd a0 a1 t) := by
  unfold execTxLd
  exact KeepsA.next (keeps_txTileIssue h)
theorem keeps_execTxSt {s t : State} (h : Keeps s t) {a0 a1} : KeepsA s (execTxSt a0 a1 t) := by
  unfold execTxSt
  exact KeepsA.next (keeps_txTileIssue h)
theorem keeps_execTxLdl {s t : State} (h : Keeps s t) {a0 a1} : KeepsA s (execTxLdl a0 a1 t) := by
  unfold execTxLdl
  exact KeepsA.next (keeps_txLinear h)
theorem keeps_execTxStl {s t : State} (h : Keeps s t) {a0 a1} : KeepsA s (execTxStl a0 a1 t) := by
  unfold execTxStl
  exact KeepsA.next (keeps_txLinear h)
theorem keeps_txTalliedIssue {s t : State} (h : Keeps s t) {a1 a2 a3 a4 a5 a6} : Keeps s (State.txTalliedIssue t a1 a2 a3 a4 a5 a6) := by
  unfold State.txTalliedIssue
  extract_lets +onlyGivenNames -merge x1 x2
  refine keeps_issue ?_ ?_
  · exact h
  · intro y3 y4 y5 y6 y7
    extract_lets +onlyGivenNames -merge x8 x9
    split
    · exact KeepsE.fault y7
    · split
      · exact KeepsE.hold y7
      · rename_i e29
        refine keeps_txPush ?_
        refine KeepsO.eq e29 ?_
        split
        · exact keeps_drainGroup y7
        · exact KeepsO.some y7
theorem keeps_execTxPut {s t : State} (h : Keeps s t) {a0 a1} : KeepsA s (execTxPut a0 a1 t) := by
  unfold execTxPut
  exact KeepsA.next (keeps_txTalliedIssue h)
theorem keeps_txRed {s t : State} (h : Keeps s t) {a1 a2 a3} : Keeps s (State.txRed t a1 a2 a3) := by
  unfold State.txRed
  exact keeps_txTalliedIssue h
theorem keeps_execTxRedAdd {s t : State} (h : Keeps s t) {a0 a1} : KeepsA s (execTxRedAdd a0 a1 t) := by
  unfold execTxRedAdd
  exact KeepsA.next (keeps_txRed h)
theorem keeps_execTxRedMin {s t : State} (h : Keeps s t) {a0 a1} : KeepsA s (execTxRedMin a0 a1 t) := by
  unfold execTxRedMin
  exact KeepsA.next (keeps_txRed h)
theorem keeps_execTxRedMax {s t : State} (h : Keeps s t) {a0 a1} : KeepsA s (execTxRedMax a0 a1 t) := by
  unfold execTxRedMax
  exact KeepsA.next (keeps_txRed h)
theorem keeps_execTxRedAnd {s t : State} (h : Keeps s t) {a0 a1} : KeepsA s (execTxRedAnd a0 a1 t) := by
  unfold execTxRedAnd
  exact KeepsA.next (keeps_txRed h)
theorem keeps_execTxRedOr {s t : State} (h : Keeps s t) {a0 a1} : KeepsA s (execTxRedOr a0 a1 t) := by
  unfold execTxRedOr
  exact KeepsA.next (keeps_txRed h)
theorem keeps_execTxRedXor {s t : State} (h : Keeps s t) {a0 a1} : KeepsA s (execTxRedXor a0 a1 t) := by
  unfold execTxRedXor
  exact KeepsA.next (keeps_txRed h)
theorem keeps_execTxDead {s t : State} (h : Keeps s t) {a0 a1} : KeepsA s (execTxDead a0 a1 t) := by
  unfold execTxDead
  extract_lets +onlyGivenNames -merge x1
  refine KeepsA.next ?_
  refine keeps_issue ?_ ?_
  · exact h
  · intro y2 y3 y4 y5 y6
    extract_lets +onlyGivenNames -merge x7
    split
    · exact KeepsE.fault y6
    · exact keeps_txPush y6
theorem keeps_markAwaiting {s t : State} (h : Keeps s t) {a1 a2 a3} : Keeps s (State.markAwaiting t a1 a2 a3) := by
  unfold State.markAwaiting
  exact keeps_modCluster h
theorem keeps_txRead {s t : State} (h : Keeps s t) {a1 a2 a3 a4 a5 a6 a7} : KeepsP s (State.txRead t a1 a2 a3 a4 a5 a6 a7) := by
  unfold State.txRead
  extract_lets +onlyGivenNames -merge x1 x2 x3 x4
  split
  · exact KeepsP.mk h
  · split
    · split
      rename_i e22
      exact KeepsP.mk (KeepsP.eq e22 (keeps_regRead h))
    · exact KeepsP.mk (keeps_useFree h)
    · exact KeepsP.mk h
    · split
      · rename_i e46
        refine KeepsOP.eqP e46 ?_
        unfold x4
        split
        · exact KeepsOP.some (KeepsP.mk h)
        · exact KeepsOP.some (KeepsP.mk h)
        · split
          · exact KeepsOP.some (KeepsP.mk h)
          · exact KeepsOP.none
      · exact KeepsP.mk (keeps_hostRead (keeps_markAwaiting h))
    · extract_lets +onlyGivenNames -merge x77 x78 x79
      split
      · rename_i e87
        split
        · refine KeepsP.mk ?_
          split
          · refine keeps_keepRemote ?_
            refine KeepsOP.eq e87 ?_
            unfold x4
            split
            · exact KeepsOP.some (KeepsP.mk h)
            · exact KeepsOP.some (KeepsP.mk h)
            · split
              · exact KeepsOP.some (KeepsP.mk h)
              · exact KeepsOP.none
          · refine KeepsOP.eq e87 ?_
            unfold x4
            split
            · exact KeepsOP.some (KeepsP.mk h)
            · exact KeepsOP.some (KeepsP.mk h)
            · split
              · exact KeepsOP.some (KeepsP.mk h)
              · exact KeepsOP.none
        · refine KeepsP.mk ?_
          refine KeepsOP.eq e87 ?_
          unfold x4
          split
          · exact KeepsOP.some (KeepsP.mk h)
          · exact KeepsOP.some (KeepsP.mk h)
          · split
            · exact KeepsOP.some (KeepsP.mk h)
            · exact KeepsOP.none
      · rename_i e163
        refine KeepsOP.eqP e163 ?_
        unfold x4
        split
        · exact KeepsOP.some (KeepsP.mk h)
        · exact KeepsOP.some (KeepsP.mk h)
        · split
          · exact KeepsOP.some (KeepsP.mk h)
          · exact KeepsOP.none
      · split
        · rename_i e195
          exact KeepsP.mk (KeepsP.eq e195 (keeps_remoteLookup h))
        · rename_i e201
          extract_lets +onlyGivenNames -merge x202
          have h203 : Keeps s x202 := keeps_markAwaiting (KeepsP.eq e201 (keeps_remoteLookup h))
          clear_value x202
          refine KeepsP.mk ?_
          split <;> exact keeps_windowGet h203
    · split
      · exact KeepsP.mk h
      · split
        · exact KeepsP.mk (keeps_retryMet h)
        · rename_i e241
          split
          · exact KeepsP.mk (KeepsOP.eq e241 (keeps_clusterRead h))
          · split <;> exact KeepsP.mk (KeepsOP.eq e241 (keeps_clusterRead h))
theorem keeps_txWrite {s t : State} (h : Keeps s t) {a1 a2 a3 a4 a5 a6} : KeepsP s (State.txWrite t a1 a2 a3 a4 a5 a6) := by
  unfold State.txWrite
  extract_lets +onlyGivenNames -merge x1 x2 x3 x4
  split
  · exact KeepsP.mk h
  · split
    · exact KeepsP.mk (keeps_regWrite h)
    · exact KeepsP.mk (keeps_send h)
    · exact KeepsP.mk (keeps_hostWrite h)
    · exact KeepsP.mk (keeps_windowPut (keeps_updateRemote h))
    · exact KeepsP.mk h
    · split
      · exact KeepsP.mk h
      · split
        · exact KeepsP.mk (keeps_retryMet h)
        · rename_i e70
          exact KeepsP.mk (KeepsO.eq e70 (keeps_clusterWrite h))
theorem keeps_txReduce {s t : State} (h : Keeps s t) {a1 a2 a3 a4 a5} : KeepsP s (State.txReduce t a1 a2 a3 a4 a5) := by
  unfold State.txReduce
  extract_lets +onlyGivenNames -merge x1 x2 x3
  split
  · split
    · exact KeepsP.mk h
    · split
      exact KeepsP.mk (keeps_startOp h)
  · split
    · exact KeepsP.mk h
    · split
      · exact KeepsP.mk (keeps_retryMet h)
      · rename_i e47
        exact KeepsP.mk (KeepsOP.eq e47 (keeps_adderReduce h))
      · rename_i e53
        exact KeepsP.mk (KeepsOP.eq e53 (keeps_adderReduce h))
      · rename_i e61
        exact KeepsP.mk (KeepsOP.eq e61 (keeps_adderReduce h))
theorem keeps_declareDead {s t : State} (h : Keeps s t) {a1 a2} : KeepsP s (State.declareDead t a1 a2) := by
  unfold State.declareDead
  extract_lets +onlyGivenNames -merge x1 x2
  split
  · unfold x2
    exact KeepsP.mk (keeps_count (keeps_dropL1 (keeps_modAgent h)))
  · extract_lets +onlyGivenNames -merge x13
    split
    · unfold x2
      exact KeepsP.mk (keeps_count (keeps_dropL1 h))
    · split
      · exact KeepsP.mk (keeps_retryMet h)
      · rename_i e27
        extract_lets +onlyGivenNames -merge x28
        split
        · split
          · unfold x2
            exact KeepsP.mk (keeps_count (keeps_dropL1 (KeepsO.eq e27 (keeps_runDead (keeps_reclaimNow h)))))
          · rename_i e42
            unfold x2
            exact KeepsP.mk (keeps_count (keeps_dropL1 (keeps_modAgent (KeepsOP.eq e42 (keeps_makeRoom (KeepsO.eq e27 (keeps_runDead (keeps_reclaimNow h))))))))
        · unfold x2
          exact KeepsP.mk (keeps_count (keeps_dropL1 (KeepsO.eq e27 (keeps_runDead (keeps_reclaimNow h)))))
theorem keeps_txCount {s t : State} (h : Keeps s t) {a1 a2 a3 a4 a5} : Keeps s (State.txCount t a1 a2 a3 a4 a5) := by
  unfold State.txCount
  split
  · exact h
  · split
    · exact keeps_tallyInc h
    · exact h
  · exact h
theorem keeps_txPart {s t : State} (h : Keeps s t) {a1 a2 a3 a4 a5 a6 a7} : KeepsP s (State.txPart t a1 a2 a3 a4 a5 a6 a7) := by
  unfold State.txPart
  extract_lets +onlyGivenNames -merge x1
  split
  · exact KeepsP.mk h
  · split
    · split
      · rename_i e23
        exact KeepsP.mk (keeps_count (keeps_scatter (KeepsP.eq e23 (keeps_txRead h))))
      · rename_i e35
        exact KeepsP.mk (KeepsP.eq e35 (keeps_txRead h))
    · split
      · rename_i e47
        exact KeepsP.mk (keeps_count (keeps_scatter (KeepsP.eq e47 (keeps_txRead h))))
      · rename_i e59
        exact KeepsP.mk (KeepsP.eq e59 (keeps_txRead h))
    · split
      · rename_i e71
        refine KeepsP.mk ?_
        split
        · exact keeps_txCount (keeps_dropL1 (KeepsP.eq e71 (keeps_txReduce h)))
        · exact KeepsP.eq e71 (keeps_txReduce h)
      · rename_i e87
        exact KeepsP.mk (KeepsP.eq e87 (keeps_txReduce h))
    · exact keeps_declareDead h
    · split
      · rename_i e107
        extract_lets +onlyGivenNames -merge x108
        have h109 : Keeps s x108 := keeps_txCount (keeps_dropL1 (KeepsP.eq e107 (keeps_txWrite h)))
        clear_value x108
        refine KeepsP.mk ?_
        split
        · exact h109
        · exact keeps_count h109
      · exact keeps_txWrite h
theorem keeps_txAdvance {s t : State} (h : Keeps s t) {a1 a2 a3} : Keeps s (State.txAdvance t a1 a2 a3) := by
  unfold State.txAdvance
  extract_lets +onlyGivenNames -merge x1
  split
  · exact keeps_settleEnds (keeps_modCluster h)
  · exact keeps_modCluster h
theorem keeps_lineStep {s t : State} (h : Keeps s t) {a1 a2} : Keeps s (State.lineStep t a1 a2) := by
  unfold State.lineStep
  extract_lets +onlyGivenNames -merge x1 x2
  split
  · exact h
  · extract_lets +onlyGivenNames -merge x13 x14 x15
    split
    · exact h
    · extract_lets +onlyGivenNames -merge x20
      split
      · exact keeps_txAdvance h
      · extract_lets +onlyGivenNames -merge x31
        split
        · rename_i e39
          exact KeepsP.fst (keeps_engineFault (KeepsP.eq e39 (keeps_meetScratch h)))
        · rename_i e45
          split
          · extract_lets +onlyGivenNames -merge x48
            have h49 : Keeps s x48 := by
              unfold x48
              split
              · exact keeps_spadStore (KeepsP.eq e45 (keeps_meetScratch h))
              · exact keeps_scatter (KeepsP.eq e45 (keeps_meetScratch h))
            clear_value x48
            exact keeps_txAdvance (keeps_count h49)
          · split
            · rename_i e63
              exact KeepsP.fst (keeps_engineFault (KeepsP.eq e63 (keeps_translate (KeepsP.eq e45 (keeps_meetScratch h)))))
            · rename_i e69
              exact KeepsP.eq e69 (keeps_translate (KeepsP.eq e45 (keeps_meetScratch h)))
            · rename_i e75
              exact KeepsP.eq e75 (keeps_translate (KeepsP.eq e45 (keeps_meetScratch h)))
            · rename_i e87
              split
              · rename_i e93
                exact keeps_txAdvance (KeepsP.eq e93 (keeps_txPart (KeepsP.eq e87 (keeps_translate (KeepsP.eq e45 (keeps_meetScratch h))))))
              · rename_i e101
                exact KeepsP.fst (keeps_engineFault (KeepsP.eq e101 (keeps_txPart (KeepsP.eq e87 (keeps_translate (KeepsP.eq e45 (keeps_meetScratch h)))))))
              · rename_i e107
                exact KeepsP.eq e107 (keeps_txPart (KeepsP.eq e87 (keeps_translate (KeepsP.eq e45 (keeps_meetScratch h)))))
theorem keeps_execTransferLinePart {s t : State} (h : Keeps s t) {a0 a1} : KeepsA s (execTransferLinePart a0 a1 t) := by
  unfold execTransferLinePart
  refine KeepsA.next ?_
  split
  · exact keeps_lineStep h
  · exact h

end Sys2Proof.Laws
end

