-- ==== Sys2Proof/Laws/State.lean ====
section
/-! SUPPORT. The named updates of the state: what each one sets, and that it leaves every other part as it
was. All true by unfolding, so that no later proof unfolds an update. -/
namespace Sys2Proof.Laws
open Sys2Proof.Machine

/-! ### What an update sets -/

@[simp] theorem cluster_setCluster (s : State) (c : Nat) (x : Cluster) : (s.setCluster c x).cluster c = x :=
  sgetD_sput_same _ c x {}
theorem cluster_setCluster_other {c d : Nat} (s : State) (x : Cluster) (h : d ≠ c) : (s.setCluster c x).cluster d = s.cluster d :=
  sgetD_sput_other _ x {} h
@[simp] theorem cluster_modCluster (s : State) (c : Nat) (f : Cluster → Cluster) : (s.modCluster c f).cluster c = f (s.cluster c) :=
  cluster_setCluster s c _
theorem cluster_modCluster_other {c d : Nat} (s : State) (f : Cluster → Cluster) (h : d ≠ c) :
    (s.modCluster c f).cluster d = s.cluster d := cluster_setCluster_other s _ h
@[simp] theorem group?_setGroup (s : State) (k : Nat) (x : Group) : (s.setGroup k x).group? k = some x := sget?_sset_same k x _
theorem group?_setGroup_other {k j : Nat} (s : State) (x : Group) (h : j ≠ k) : (s.setGroup k x).group? j = s.group? j :=
  sget?_sset_other x _ h
@[simp] theorem kernel?_setKernel (s : State) (k : Nat) (x : Kernel) : (s.setKernel k x).kernel? k = some x := sget?_sset_same k x _
theorem kernel?_setKernel_other {k j : Nat} (s : State) (x : Kernel) (h : j ≠ k) : (s.setKernel k x).kernel? j = s.kernel? j :=
  sget?_sset_other x _ h
@[simp] theorem agent_setAgent (s : State) (a : Nat) (x : CohAgent) : (s.setAgent a x).agent a = x := sgetD_sput_same _ a x {}
theorem agent_setAgent_other {a b : Nat} (s : State) (x : CohAgent) (h : b ≠ a) : (s.setAgent a x).agent b = s.agent b :=
  sgetD_sput_other _ x {} h
@[simp] theorem xl_setXl (s : State) (p : Nat) (x : Xlate) : (s.setXl p x).xl p = x := sgetD_sput_same _ p x {}
theorem xl_setXl_other {p q : Nat} (s : State) (x : Xlate) (h : q ≠ p) : (s.setXl p x).xl q = s.xl q := sgetD_sput_other _ x {} h
@[simp] theorem dx_setDx (s : State) (d : Nat) (x : DieXlate) : (s.setDx d x).dx d = x := sgetD_sput_same _ d x {}
@[simp] theorem tally_setTally (s : State) (d : Nat) (x : TallySet) : (s.setTally d x).tally d = x := sgetD_sput_same _ d x {}
theorem tally_setTally_other {d e : Nat} (s : State) (x : TallySet) (h : e ≠ d) : (s.setTally d x).tally e = s.tally e :=
  sgetD_sput_other _ x {} h
@[simp] theorem counter_setCounter (s : State) (i j n : Nat) : (s.setCounter i j n).counter i j = n % 2 ^ 64 := by
  unfold State.setCounter State.counter
  rw [sgetD_sput_same]
  exact BitVec.toNat_ofNat n 64
@[simp] theorem counter_count (s : State) (i j n : Nat) : (s.count i j n).counter i j = (s.counter i j + n) % 2 ^ 64 :=
  counter_setCounter s i j _
@[simp] theorem useFree_free (s : State) : s.useFree.free = s.free + 1 := rfl
@[simp] theorem send_out (s : State) (o : Out) : (s.send o).out = o :: s.out := rfl

/-! ### What an update leaves -/

@[simp] theorem setCluster_pending (s : State) (c : Nat) (x : Cluster) : (s.setCluster c x).pending = s.pending := rfl
@[simp] theorem setCluster_free (s : State) (c : Nat) (x : Cluster) : (s.setCluster c x).free = s.free := rfl
@[simp] theorem setCluster_out (s : State) (c : Nat) (x : Cluster) : (s.setCluster c x).out = s.out := rfl
@[simp] theorem setCluster_groups (s : State) (c : Nat) (x : Cluster) : (s.setCluster c x).groups = s.groups := rfl
@[simp] theorem setCluster_kernels (s : State) (c : Nat) (x : Cluster) : (s.setCluster c x).kernels = s.kernels := rfl
@[simp] theorem setCluster_nextKernel (s : State) (c : Nat) (x : Cluster) : (s.setCluster c x).nextKernel = s.nextKernel := rfl
@[simp] theorem setCluster_tallies (s : State) (c : Nat) (x : Cluster) : (s.setCluster c x).tallies = s.tallies := rfl
@[simp] theorem setCluster_mem (s : State) (c : Nat) (x : Cluster) : (s.setCluster c x).mem = s.mem := rfl
@[simp] theorem setCluster_agents (s : State) (c : Nat) (x : Cluster) : (s.setCluster c x).agents = s.agents := rfl
@[simp] theorem setCluster_txns (s : State) (c : Nat) (x : Cluster) : (s.setCluster c x).txns = s.txns := rfl
@[simp] theorem setCluster_xlate (s : State) (c : Nat) (x : Cluster) : (s.setCluster c x).xlate = s.xlate := rfl
@[simp] theorem setCluster_dieXlate (s : State) (c : Nat) (x : Cluster) : (s.setCluster c x).dieXlate = s.dieXlate := rfl
@[simp] theorem setCluster_stalled (s : State) (c : Nat) (x : Cluster) : (s.setCluster c x).stalled = s.stalled := rfl
@[simp] theorem setCluster_links (s : State) (c : Nat) (x : Cluster) : (s.setCluster c x).links = s.links := rfl
@[simp] theorem setCluster_pkgRequests (s : State) (c : Nat) (x : Cluster) : (s.setCluster c x).pkgRequests = s.pkgRequests := rfl
@[simp] theorem setCluster_forwards (s : State) (c : Nat) (x : Cluster) : (s.setCluster c x).forwards = s.forwards := rfl
@[simp] theorem setCluster_dieState (s : State) (c : Nat) (x : Cluster) : (s.setCluster c x).dieState = s.dieState := rfl
@[simp] theorem setCluster_counters (s : State) (c : Nat) (x : Cluster) : (s.setCluster c x).counters = s.counters := rfl
@[simp] theorem setCluster_net (s : State) (c : Nat) (x : Cluster) : (s.setCluster c x).net = s.net := rfl
@[simp] theorem setCluster_host (s : State) (c : Nat) (x : Cluster) : (s.setCluster c x).host = s.host := rfl
@[simp] theorem setCluster_power (s : State) (c : Nat) (x : Cluster) : (s.setCluster c x).power = s.power := rfl
@[simp] theorem setCluster_dict (s : State) (c : Nat) (x : Cluster) : (s.setCluster c x).dict = s.dict := rfl
@[simp] theorem setCluster_boot (s : State) (c : Nat) (x : Cluster) : (s.setCluster c x).boot = s.boot := rfl
@[simp] theorem setCluster_pins (s : State) (c : Nat) (x : Cluster) : (s.setCluster c x).pins = s.pins := rfl
@[simp] theorem setCluster_taps (s : State) (c : Nat) (x : Cluster) : (s.setCluster c x).taps = s.taps := rfl
@[simp] theorem setCluster_trstHeld (s : State) (c : Nat) (x : Cluster) : (s.setCluster c x).trstHeld = s.trstHeld := rfl
@[simp] theorem setCluster_flushes (s : State) (c : Nat) (x : Cluster) : (s.setCluster c x).flushes = s.flushes := rfl
@[simp] theorem setCluster_parts (s : State) (c : Nat) (x : Cluster) : (s.setCluster c x).parts = s.parts := rfl
@[simp] theorem modCluster_pending (s : State) (c : Nat) (f : Cluster → Cluster) : (s.modCluster c f).pending = s.pending := rfl
@[simp] theorem modCluster_free (s : State) (c : Nat) (f : Cluster → Cluster) : (s.modCluster c f).free = s.free := rfl
@[simp] theorem modCluster_out (s : State) (c : Nat) (f : Cluster → Cluster) : (s.modCluster c f).out = s.out := rfl
@[simp] theorem modCluster_groups (s : State) (c : Nat) (f : Cluster → Cluster) : (s.modCluster c f).groups = s.groups := rfl
@[simp] theorem modCluster_kernels (s : State) (c : Nat) (f : Cluster → Cluster) : (s.modCluster c f).kernels = s.kernels := rfl
@[simp] theorem modCluster_nextKernel (s : State) (c : Nat) (f : Cluster → Cluster) : (s.modCluster c f).nextKernel = s.nextKernel := rfl
@[simp] theorem modCluster_tallies (s : State) (c : Nat) (f : Cluster → Cluster) : (s.modCluster c f).tallies = s.tallies := rfl
@[simp] theorem modCluster_mem (s : State) (c : Nat) (f : Cluster → Cluster) : (s.modCluster c f).mem = s.mem := rfl
@[simp] theorem modCluster_agents (s : State) (c : Nat) (f : Cluster → Cluster) : (s.modCluster c f).agents = s.agents := rfl
@[simp] theorem modCluster_txns (s : State) (c : Nat) (f : Cluster → Cluster) : (s.modCluster c f).txns = s.txns := rfl
@[simp] theorem modCluster_xlate (s : State) (c : Nat) (f : Cluster → Cluster) : (s.modCluster c f).xlate = s.xlate := rfl
@[simp] theorem modCluster_dieXlate (s : State) (c : Nat) (f : Cluster → Cluster) : (s.modCluster c f).dieXlate = s.dieXlate := rfl
@[simp] theorem modCluster_stalled (s : State) (c : Nat) (f : Cluster → Cluster) : (s.modCluster c f).stalled = s.stalled := rfl
@[simp] theorem modCluster_links (s : State) (c : Nat) (f : Cluster → Cluster) : (s.modCluster c f).links = s.links := rfl
@[simp] theorem modCluster_pkgRequests (s : State) (c : Nat) (f : Cluster → Cluster) : (s.modCluster c f).pkgRequests = s.pkgRequests := rfl
@[simp] theorem modCluster_forwards (s : State) (c : Nat) (f : Cluster → Cluster) : (s.modCluster c f).forwards = s.forwards := rfl
@[simp] theorem modCluster_dieState (s : State) (c : Nat) (f : Cluster → Cluster) : (s.modCluster c f).dieState = s.dieState := rfl
@[simp] theorem modCluster_counters (s : State) (c : Nat) (f : Cluster → Cluster) : (s.modCluster c f).counters = s.counters := rfl
@[simp] theorem modCluster_net (s : State) (c : Nat) (f : Cluster → Cluster) : (s.modCluster c f).net = s.net := rfl
@[simp] theorem modCluster_host (s : State) (c : Nat) (f : Cluster → Cluster) : (s.modCluster c f).host = s.host := rfl
@[simp] theorem modCluster_power (s : State) (c : Nat) (f : Cluster → Cluster) : (s.modCluster c f).power = s.power := rfl
@[simp] theorem modCluster_dict (s : State) (c : Nat) (f : Cluster → Cluster) : (s.modCluster c f).dict = s.dict := rfl
@[simp] theorem modCluster_boot (s : State) (c : Nat) (f : Cluster → Cluster) : (s.modCluster c f).boot = s.boot := rfl
@[simp] theorem modCluster_pins (s : State) (c : Nat) (f : Cluster → Cluster) : (s.modCluster c f).pins = s.pins := rfl
@[simp] theorem modCluster_taps (s : State) (c : Nat) (f : Cluster → Cluster) : (s.modCluster c f).taps = s.taps := rfl
@[simp] theorem modCluster_trstHeld (s : State) (c : Nat) (f : Cluster → Cluster) : (s.modCluster c f).trstHeld = s.trstHeld := rfl
@[simp] theorem modCluster_flushes (s : State) (c : Nat) (f : Cluster → Cluster) : (s.modCluster c f).flushes = s.flushes := rfl
@[simp] theorem modCluster_parts (s : State) (c : Nat) (f : Cluster → Cluster) : (s.modCluster c f).parts = s.parts := rfl
@[simp] theorem setGroup_pending (s : State) (k : Nat) (x : Group) : (s.setGroup k x).pending = s.pending := rfl
@[simp] theorem setGroup_free (s : State) (k : Nat) (x : Group) : (s.setGroup k x).free = s.free := rfl
@[simp] theorem setGroup_out (s : State) (k : Nat) (x : Group) : (s.setGroup k x).out = s.out := rfl
@[simp] theorem setGroup_clusters (s : State) (k : Nat) (x : Group) : (s.setGroup k x).clusters = s.clusters := rfl
@[simp] theorem setGroup_kernels (s : State) (k : Nat) (x : Group) : (s.setGroup k x).kernels = s.kernels := rfl
@[simp] theorem setGroup_nextKernel (s : State) (k : Nat) (x : Group) : (s.setGroup k x).nextKernel = s.nextKernel := rfl
@[simp] theorem setGroup_tallies (s : State) (k : Nat) (x : Group) : (s.setGroup k x).tallies = s.tallies := rfl
@[simp] theorem setGroup_mem (s : State) (k : Nat) (x : Group) : (s.setGroup k x).mem = s.mem := rfl
@[simp] theorem setGroup_agents (s : State) (k : Nat) (x : Group) : (s.setGroup k x).agents = s.agents := rfl
@[simp] theorem setGroup_txns (s : State) (k : Nat) (x : Group) : (s.setGroup k x).txns = s.txns := rfl
@[simp] theorem setGroup_xlate (s : State) (k : Nat) (x : Group) : (s.setGroup k x).xlate = s.xlate := rfl
@[simp] theorem setGroup_dieXlate (s : State) (k : Nat) (x : Group) : (s.setGroup k x).dieXlate = s.dieXlate := rfl
@[simp] theorem setGroup_stalled (s : State) (k : Nat) (x : Group) : (s.setGroup k x).stalled = s.stalled := rfl
@[simp] theorem setGroup_links (s : State) (k : Nat) (x : Group) : (s.setGroup k x).links = s.links := rfl
@[simp] theorem setGroup_pkgRequests (s : State) (k : Nat) (x : Group) : (s.setGroup k x).pkgRequests = s.pkgRequests := rfl
@[simp] theorem setGroup_forwards (s : State) (k : Nat) (x : Group) : (s.setGroup k x).forwards = s.forwards := rfl
@[simp] theorem setGroup_dieState (s : State) (k : Nat) (x : Group) : (s.setGroup k x).dieState = s.dieState := rfl
@[simp] theorem setGroup_counters (s : State) (k : Nat) (x : Group) : (s.setGroup k x).counters = s.counters := rfl
@[simp] theorem setGroup_net (s : State) (k : Nat) (x : Group) : (s.setGroup k x).net = s.net := rfl
@[simp] theorem setGroup_host (s : State) (k : Nat) (x : Group) : (s.setGroup k x).host = s.host := rfl
@[simp] theorem setGroup_power (s : State) (k : Nat) (x : Group) : (s.setGroup k x).power = s.power := rfl
@[simp] theorem setGroup_dict (s : State) (k : Nat) (x : Group) : (s.setGroup k x).dict = s.dict := rfl
@[simp] theorem setGroup_boot (s : State) (k : Nat) (x : Group) : (s.setGroup k x).boot = s.boot := rfl
@[simp] theorem setGroup_pins (s : State) (k : Nat) (x : Group) : (s.setGroup k x).pins = s.pins := rfl
@[simp] theorem setGroup_taps (s : State) (k : Nat) (x : Group) : (s.setGroup k x).taps = s.taps := rfl
@[simp] theorem setGroup_trstHeld (s : State) (k : Nat) (x : Group) : (s.setGroup k x).trstHeld = s.trstHeld := rfl
@[simp] theorem setGroup_flushes (s : State) (k : Nat) (x : Group) : (s.setGroup k x).flushes = s.flushes := rfl
@[simp] theorem setGroup_parts (s : State) (k : Nat) (x : Group) : (s.setGroup k x).parts = s.parts := rfl
@[simp] theorem setKernel_pending (s : State) (k : Nat) (x : Kernel) : (s.setKernel k x).pending = s.pending := rfl
@[simp] theorem setKernel_free (s : State) (k : Nat) (x : Kernel) : (s.setKernel k x).free = s.free := rfl
@[simp] theorem setKernel_out (s : State) (k : Nat) (x : Kernel) : (s.setKernel k x).out = s.out := rfl
@[simp] theorem setKernel_groups (s : State) (k : Nat) (x : Kernel) : (s.setKernel k x).groups = s.groups := rfl
@[simp] theorem setKernel_clusters (s : State) (k : Nat) (x : Kernel) : (s.setKernel k x).clusters = s.clusters := rfl
@[simp] theorem setKernel_nextKernel (s : State) (k : Nat) (x : Kernel) : (s.setKernel k x).nextKernel = s.nextKernel := rfl
@[simp] theorem setKernel_tallies (s : State) (k : Nat) (x : Kernel) : (s.setKernel k x).tallies = s.tallies := rfl
@[simp] theorem setKernel_mem (s : State) (k : Nat) (x : Kernel) : (s.setKernel k x).mem = s.mem := rfl
@[simp] theorem setKernel_agents (s : State) (k : Nat) (x : Kernel) : (s.setKernel k x).agents = s.agents := rfl
@[simp] theorem setKernel_txns (s : State) (k : Nat) (x : Kernel) : (s.setKernel k x).txns = s.txns := rfl
@[simp] theorem setKernel_xlate (s : State) (k : Nat) (x : Kernel) : (s.setKernel k x).xlate = s.xlate := rfl
@[simp] theorem setKernel_dieXlate (s : State) (k : Nat) (x : Kernel) : (s.setKernel k x).dieXlate = s.dieXlate := rfl
@[simp] theorem setKernel_stalled (s : State) (k : Nat) (x : Kernel) : (s.setKernel k x).stalled = s.stalled := rfl
@[simp] theorem setKernel_links (s : State) (k : Nat) (x : Kernel) : (s.setKernel k x).links = s.links := rfl
@[simp] theorem setKernel_pkgRequests (s : State) (k : Nat) (x : Kernel) : (s.setKernel k x).pkgRequests = s.pkgRequests := rfl
@[simp] theorem setKernel_forwards (s : State) (k : Nat) (x : Kernel) : (s.setKernel k x).forwards = s.forwards := rfl
@[simp] theorem setKernel_dieState (s : State) (k : Nat) (x : Kernel) : (s.setKernel k x).dieState = s.dieState := rfl
@[simp] theorem setKernel_counters (s : State) (k : Nat) (x : Kernel) : (s.setKernel k x).counters = s.counters := rfl
@[simp] theorem setKernel_net (s : State) (k : Nat) (x : Kernel) : (s.setKernel k x).net = s.net := rfl
@[simp] theorem setKernel_host (s : State) (k : Nat) (x : Kernel) : (s.setKernel k x).host = s.host := rfl
@[simp] theorem setKernel_power (s : State) (k : Nat) (x : Kernel) : (s.setKernel k x).power = s.power := rfl
@[simp] theorem setKernel_dict (s : State) (k : Nat) (x : Kernel) : (s.setKernel k x).dict = s.dict := rfl
@[simp] theorem setKernel_boot (s : State) (k : Nat) (x : Kernel) : (s.setKernel k x).boot = s.boot := rfl
@[simp] theorem setKernel_pins (s : State) (k : Nat) (x : Kernel) : (s.setKernel k x).pins = s.pins := rfl
@[simp] theorem setKernel_taps (s : State) (k : Nat) (x : Kernel) : (s.setKernel k x).taps = s.taps := rfl
@[simp] theorem setKernel_trstHeld (s : State) (k : Nat) (x : Kernel) : (s.setKernel k x).trstHeld = s.trstHeld := rfl
@[simp] theorem setKernel_flushes (s : State) (k : Nat) (x : Kernel) : (s.setKernel k x).flushes = s.flushes := rfl
@[simp] theorem setKernel_parts (s : State) (k : Nat) (x : Kernel) : (s.setKernel k x).parts = s.parts := rfl
@[simp] theorem setAgent_pending (s : State) (a : Nat) (x : CohAgent) : (s.setAgent a x).pending = s.pending := rfl
@[simp] theorem setAgent_free (s : State) (a : Nat) (x : CohAgent) : (s.setAgent a x).free = s.free := rfl
@[simp] theorem setAgent_out (s : State) (a : Nat) (x : CohAgent) : (s.setAgent a x).out = s.out := rfl
@[simp] theorem setAgent_groups (s : State) (a : Nat) (x : CohAgent) : (s.setAgent a x).groups = s.groups := rfl
@[simp] theorem setAgent_clusters (s : State) (a : Nat) (x : CohAgent) : (s.setAgent a x).clusters = s.clusters := rfl
@[simp] theorem setAgent_kernels (s : State) (a : Nat) (x : CohAgent) : (s.setAgent a x).kernels = s.kernels := rfl
@[simp] theorem setAgent_nextKernel (s : State) (a : Nat) (x : CohAgent) : (s.setAgent a x).nextKernel = s.nextKernel := rfl
@[simp] theorem setAgent_tallies (s : State) (a : Nat) (x : CohAgent) : (s.setAgent a x).tallies = s.tallies := rfl
@[simp] theorem setAgent_mem (s : State) (a : Nat) (x : CohAgent) : (s.setAgent a x).mem = s.mem := rfl
@[simp] theorem setAgent_txns (s : State) (a : Nat) (x : CohAgent) : (s.setAgent a x).txns = s.txns := rfl
@[simp] theorem setAgent_xlate (s : State) (a : Nat) (x : CohAgent) : (s.setAgent a x).xlate = s.xlate := rfl
@[simp] theorem setAgent_dieXlate (s : State) (a : Nat) (x : CohAgent) : (s.setAgent a x).dieXlate = s.dieXlate := rfl
@[simp] theorem setAgent_stalled (s : State) (a : Nat) (x : CohAgent) : (s.setAgent a x).stalled = s.stalled := rfl
@[simp] theorem setAgent_links (s : State) (a : Nat) (x : CohAgent) : (s.setAgent a x).links = s.links := rfl
@[simp] theorem setAgent_pkgRequests (s : State) (a : Nat) (x : CohAgent) : (s.setAgent a x).pkgRequests = s.pkgRequests := rfl
@[simp] theorem setAgent_forwards (s : State) (a : Nat) (x : CohAgent) : (s.setAgent a x).forwards = s.forwards := rfl
@[simp] theorem setAgent_dieState (s : State) (a : Nat) (x : CohAgent) : (s.setAgent a x).dieState = s.dieState := rfl
@[simp] theorem setAgent_counters (s : State) (a : Nat) (x : CohAgent) : (s.setAgent a x).counters = s.counters := rfl
@[simp] theorem setAgent_net (s : State) (a : Nat) (x : CohAgent) : (s.setAgent a x).net = s.net := rfl
@[simp] theorem setAgent_host (s : State) (a : Nat) (x : CohAgent) : (s.setAgent a x).host = s.host := rfl
@[simp] theorem setAgent_power (s : State) (a : Nat) (x : CohAgent) : (s.setAgent a x).power = s.power := rfl
@[simp] theorem setAgent_dict (s : State) (a : Nat) (x : CohAgent) : (s.setAgent a x).dict = s.dict := rfl
@[simp] theorem setAgent_boot (s : State) (a : Nat) (x : CohAgent) : (s.setAgent a x).boot = s.boot := rfl
@[simp] theorem setAgent_pins (s : State) (a : Nat) (x : CohAgent) : (s.setAgent a x).pins = s.pins := rfl
@[simp] theorem setAgent_taps (s : State) (a : Nat) (x : CohAgent) : (s.setAgent a x).taps = s.taps := rfl
@[simp] theorem setAgent_trstHeld (s : State) (a : Nat) (x : CohAgent) : (s.setAgent a x).trstHeld = s.trstHeld := rfl
@[simp] theorem setAgent_flushes (s : State) (a : Nat) (x : CohAgent) : (s.setAgent a x).flushes = s.flushes := rfl
@[simp] theorem setAgent_parts (s : State) (a : Nat) (x : CohAgent) : (s.setAgent a x).parts = s.parts := rfl
@[simp] theorem modAgent_pending (s : State) (a : Nat) (f : CohAgent → CohAgent) : (s.modAgent a f).pending = s.pending := rfl
@[simp] theorem modAgent_free (s : State) (a : Nat) (f : CohAgent → CohAgent) : (s.modAgent a f).free = s.free := rfl
@[simp] theorem modAgent_out (s : State) (a : Nat) (f : CohAgent → CohAgent) : (s.modAgent a f).out = s.out := rfl
@[simp] theorem modAgent_groups (s : State) (a : Nat) (f : CohAgent → CohAgent) : (s.modAgent a f).groups = s.groups := rfl
@[simp] theorem modAgent_clusters (s : State) (a : Nat) (f : CohAgent → CohAgent) : (s.modAgent a f).clusters = s.clusters := rfl
@[simp] theorem modAgent_kernels (s : State) (a : Nat) (f : CohAgent → CohAgent) : (s.modAgent a f).kernels = s.kernels := rfl
@[simp] theorem modAgent_nextKernel (s : State) (a : Nat) (f : CohAgent → CohAgent) : (s.modAgent a f).nextKernel = s.nextKernel := rfl
@[simp] theorem modAgent_tallies (s : State) (a : Nat) (f : CohAgent → CohAgent) : (s.modAgent a f).tallies = s.tallies := rfl
@[simp] theorem modAgent_mem (s : State) (a : Nat) (f : CohAgent → CohAgent) : (s.modAgent a f).mem = s.mem := rfl
@[simp] theorem modAgent_txns (s : State) (a : Nat) (f : CohAgent → CohAgent) : (s.modAgent a f).txns = s.txns := rfl
@[simp] theorem modAgent_xlate (s : State) (a : Nat) (f : CohAgent → CohAgent) : (s.modAgent a f).xlate = s.xlate := rfl
@[simp] theorem modAgent_dieXlate (s : State) (a : Nat) (f : CohAgent → CohAgent) : (s.modAgent a f).dieXlate = s.dieXlate := rfl
@[simp] theorem modAgent_stalled (s : State) (a : Nat) (f : CohAgent → CohAgent) : (s.modAgent a f).stalled = s.stalled := rfl
@[simp] theorem modAgent_links (s : State) (a : Nat) (f : CohAgent → CohAgent) : (s.modAgent a f).links = s.links := rfl
@[simp] theorem modAgent_pkgRequests (s : State) (a : Nat) (f : CohAgent → CohAgent) : (s.modAgent a f).pkgRequests = s.pkgRequests := rfl
@[simp] theorem modAgent_forwards (s : State) (a : Nat) (f : CohAgent → CohAgent) : (s.modAgent a f).forwards = s.forwards := rfl
@[simp] theorem modAgent_dieState (s : State) (a : Nat) (f : CohAgent → CohAgent) : (s.modAgent a f).dieState = s.dieState := rfl
@[simp] theorem modAgent_counters (s : State) (a : Nat) (f : CohAgent → CohAgent) : (s.modAgent a f).counters = s.counters := rfl
@[simp] theorem modAgent_net (s : State) (a : Nat) (f : CohAgent → CohAgent) : (s.modAgent a f).net = s.net := rfl
@[simp] theorem modAgent_host (s : State) (a : Nat) (f : CohAgent → CohAgent) : (s.modAgent a f).host = s.host := rfl
@[simp] theorem modAgent_power (s : State) (a : Nat) (f : CohAgent → CohAgent) : (s.modAgent a f).power = s.power := rfl
@[simp] theorem modAgent_dict (s : State) (a : Nat) (f : CohAgent → CohAgent) : (s.modAgent a f).dict = s.dict := rfl
@[simp] theorem modAgent_boot (s : State) (a : Nat) (f : CohAgent → CohAgent) : (s.modAgent a f).boot = s.boot := rfl
@[simp] theorem modAgent_pins (s : State) (a : Nat) (f : CohAgent → CohAgent) : (s.modAgent a f).pins = s.pins := rfl
@[simp] theorem modAgent_taps (s : State) (a : Nat) (f : CohAgent → CohAgent) : (s.modAgent a f).taps = s.taps := rfl
@[simp] theorem modAgent_trstHeld (s : State) (a : Nat) (f : CohAgent → CohAgent) : (s.modAgent a f).trstHeld = s.trstHeld := rfl
@[simp] theorem modAgent_flushes (s : State) (a : Nat) (f : CohAgent → CohAgent) : (s.modAgent a f).flushes = s.flushes := rfl
@[simp] theorem modAgent_parts (s : State) (a : Nat) (f : CohAgent → CohAgent) : (s.modAgent a f).parts = s.parts := rfl
@[simp] theorem setXl_pending (s : State) (p : Nat) (x : Xlate) : (s.setXl p x).pending = s.pending := rfl
@[simp] theorem setXl_free (s : State) (p : Nat) (x : Xlate) : (s.setXl p x).free = s.free := rfl
@[simp] theorem setXl_out (s : State) (p : Nat) (x : Xlate) : (s.setXl p x).out = s.out := rfl
@[simp] theorem setXl_groups (s : State) (p : Nat) (x : Xlate) : (s.setXl p x).groups = s.groups := rfl
@[simp] theorem setXl_clusters (s : State) (p : Nat) (x : Xlate) : (s.setXl p x).clusters = s.clusters := rfl
@[simp] theorem setXl_kernels (s : State) (p : Nat) (x : Xlate) : (s.setXl p x).kernels = s.kernels := rfl
@[simp] theorem setXl_nextKernel (s : State) (p : Nat) (x : Xlate) : (s.setXl p x).nextKernel = s.nextKernel := rfl
@[simp] theorem setXl_tallies (s : State) (p : Nat) (x : Xlate) : (s.setXl p x).tallies = s.tallies := rfl
@[simp] theorem setXl_mem (s : State) (p : Nat) (x : Xlate) : (s.setXl p x).mem = s.mem := rfl
@[simp] theorem setXl_agents (s : State) (p : Nat) (x : Xlate) : (s.setXl p x).agents = s.agents := rfl
@[simp] theorem setXl_txns (s : State) (p : Nat) (x : Xlate) : (s.setXl p x).txns = s.txns := rfl
@[simp] theorem setXl_dieXlate (s : State) (p : Nat) (x : Xlate) : (s.setXl p x).dieXlate = s.dieXlate := rfl
@[simp] theorem setXl_stalled (s : State) (p : Nat) (x : Xlate) : (s.setXl p x).stalled = s.stalled := rfl
@[simp] theorem setXl_links (s : State) (p : Nat) (x : Xlate) : (s.setXl p x).links = s.links := rfl
@[simp] theorem setXl_pkgRequests (s : State) (p : Nat) (x : Xlate) : (s.setXl p x).pkgRequests = s.pkgRequests := rfl
@[simp] theorem setXl_forwards (s : State) (p : Nat) (x : Xlate) : (s.setXl p x).forwards = s.forwards := rfl
@[simp] theorem setXl_dieState (s : State) (p : Nat) (x : Xlate) : (s.setXl p x).dieState = s.dieState := rfl
@[simp] theorem setXl_counters (s : State) (p : Nat) (x : Xlate) : (s.setXl p x).counters = s.counters := rfl
@[simp] theorem setXl_net (s : State) (p : Nat) (x : Xlate) : (s.setXl p x).net = s.net := rfl
@[simp] theorem setXl_host (s : State) (p : Nat) (x : Xlate) : (s.setXl p x).host = s.host := rfl
@[simp] theorem setXl_power (s : State) (p : Nat) (x : Xlate) : (s.setXl p x).power = s.power := rfl
@[simp] theorem setXl_dict (s : State) (p : Nat) (x : Xlate) : (s.setXl p x).dict = s.dict := rfl
@[simp] theorem setXl_boot (s : State) (p : Nat) (x : Xlate) : (s.setXl p x).boot = s.boot := rfl
@[simp] theorem setXl_pins (s : State) (p : Nat) (x : Xlate) : (s.setXl p x).pins = s.pins := rfl
@[simp] theorem setXl_taps (s : State) (p : Nat) (x : Xlate) : (s.setXl p x).taps = s.taps := rfl
@[simp] theorem setXl_trstHeld (s : State) (p : Nat) (x : Xlate) : (s.setXl p x).trstHeld = s.trstHeld := rfl
@[simp] theorem setXl_flushes (s : State) (p : Nat) (x : Xlate) : (s.setXl p x).flushes = s.flushes := rfl
@[simp] theorem setXl_parts (s : State) (p : Nat) (x : Xlate) : (s.setXl p x).parts = s.parts := rfl
@[simp] theorem modXl_pending (s : State) (p : Nat) (f : Xlate → Xlate) : (s.modXl p f).pending = s.pending := rfl
@[simp] theorem modXl_free (s : State) (p : Nat) (f : Xlate → Xlate) : (s.modXl p f).free = s.free := rfl
@[simp] theorem modXl_out (s : State) (p : Nat) (f : Xlate → Xlate) : (s.modXl p f).out = s.out := rfl
@[simp] theorem modXl_groups (s : State) (p : Nat) (f : Xlate → Xlate) : (s.modXl p f).groups = s.groups := rfl
@[simp] theorem modXl_clusters (s : State) (p : Nat) (f : Xlate → Xlate) : (s.modXl p f).clusters = s.clusters := rfl
@[simp] theorem modXl_kernels (s : State) (p : Nat) (f : Xlate → Xlate) : (s.modXl p f).kernels = s.kernels := rfl
@[simp] theorem modXl_nextKernel (s : State) (p : Nat) (f : Xlate → Xlate) : (s.modXl p f).nextKernel = s.nextKernel := rfl
@[simp] theorem modXl_tallies (s : State) (p : Nat) (f : Xlate → Xlate) : (s.modXl p f).tallies = s.tallies := rfl
@[simp] theorem modXl_mem (s : State) (p : Nat) (f : Xlate → Xlate) : (s.modXl p f).mem = s.mem := rfl
@[simp] theorem modXl_agents (s : State) (p : Nat) (f : Xlate → Xlate) : (s.modXl p f).agents = s.agents := rfl
@[simp] theorem modXl_txns (s : State) (p : Nat) (f : Xlate → Xlate) : (s.modXl p f).txns = s.txns := rfl
@[simp] theorem modXl_dieXlate (s : State) (p : Nat) (f : Xlate → Xlate) : (s.modXl p f).dieXlate = s.dieXlate := rfl
@[simp] theorem modXl_stalled (s : State) (p : Nat) (f : Xlate → Xlate) : (s.modXl p f).stalled = s.stalled := rfl
@[simp] theorem modXl_links (s : State) (p : Nat) (f : Xlate → Xlate) : (s.modXl p f).links = s.links := rfl
@[simp] theorem modXl_pkgRequests (s : State) (p : Nat) (f : Xlate → Xlate) : (s.modXl p f).pkgRequests = s.pkgRequests := rfl
@[simp] theorem modXl_forwards (s : State) (p : Nat) (f : Xlate → Xlate) : (s.modXl p f).forwards = s.forwards := rfl
@[simp] theorem modXl_dieState (s : State) (p : Nat) (f : Xlate → Xlate) : (s.modXl p f).dieState = s.dieState := rfl
@[simp] theorem modXl_counters (s : State) (p : Nat) (f : Xlate → Xlate) : (s.modXl p f).counters = s.counters := rfl
@[simp] theorem modXl_net (s : State) (p : Nat) (f : Xlate → Xlate) : (s.modXl p f).net = s.net := rfl
@[simp] theorem modXl_host (s : State) (p : Nat) (f : Xlate → Xlate) : (s.modXl p f).host = s.host := rfl
@[simp] theorem modXl_power (s : State) (p : Nat) (f : Xlate → Xlate) : (s.modXl p f).power = s.power := rfl
@[simp] theorem modXl_dict (s : State) (p : Nat) (f : Xlate → Xlate) : (s.modXl p f).dict = s.dict := rfl
@[simp] theorem modXl_boot (s : State) (p : Nat) (f : Xlate → Xlate) : (s.modXl p f).boot = s.boot := rfl
@[simp] theorem modXl_pins (s : State) (p : Nat) (f : Xlate → Xlate) : (s.modXl p f).pins = s.pins := rfl
@[simp] theorem modXl_taps (s : State) (p : Nat) (f : Xlate → Xlate) : (s.modXl p f).taps = s.taps := rfl
@[simp] theorem modXl_trstHeld (s : State) (p : Nat) (f : Xlate → Xlate) : (s.modXl p f).trstHeld = s.trstHeld := rfl
@[simp] theorem modXl_flushes (s : State) (p : Nat) (f : Xlate → Xlate) : (s.modXl p f).flushes = s.flushes := rfl
@[simp] theorem modXl_parts (s : State) (p : Nat) (f : Xlate → Xlate) : (s.modXl p f).parts = s.parts := rfl
@[simp] theorem setDx_pending (s : State) (d : Nat) (x : DieXlate) : (s.setDx d x).pending = s.pending := rfl
@[simp] theorem setDx_free (s : State) (d : Nat) (x : DieXlate) : (s.setDx d x).free = s.free := rfl
@[simp] theorem setDx_out (s : State) (d : Nat) (x : DieXlate) : (s.setDx d x).out = s.out := rfl
@[simp] theorem setDx_groups (s : State) (d : Nat) (x : DieXlate) : (s.setDx d x).groups = s.groups := rfl
@[simp] theorem setDx_clusters (s : State) (d : Nat) (x : DieXlate) : (s.setDx d x).clusters = s.clusters := rfl
@[simp] theorem setDx_kernels (s : State) (d : Nat) (x : DieXlate) : (s.setDx d x).kernels = s.kernels := rfl
@[simp] theorem setDx_nextKernel (s : State) (d : Nat) (x : DieXlate) : (s.setDx d x).nextKernel = s.nextKernel := rfl
@[simp] theorem setDx_tallies (s : State) (d : Nat) (x : DieXlate) : (s.setDx d x).tallies = s.tallies := rfl
@[simp] theorem setDx_mem (s : State) (d : Nat) (x : DieXlate) : (s.setDx d x).mem = s.mem := rfl
@[simp] theorem setDx_agents (s : State) (d : Nat) (x : DieXlate) : (s.setDx d x).agents = s.agents := rfl
@[simp] theorem setDx_txns (s : State) (d : Nat) (x : DieXlate) : (s.setDx d x).txns = s.txns := rfl
@[simp] theorem setDx_xlate (s : State) (d : Nat) (x : DieXlate) : (s.setDx d x).xlate = s.xlate := rfl
@[simp] theorem setDx_stalled (s : State) (d : Nat) (x : DieXlate) : (s.setDx d x).stalled = s.stalled := rfl
@[simp] theorem setDx_links (s : State) (d : Nat) (x : DieXlate) : (s.setDx d x).links = s.links := rfl
@[simp] theorem setDx_pkgRequests (s : State) (d : Nat) (x : DieXlate) : (s.setDx d x).pkgRequests = s.pkgRequests := rfl
@[simp] theorem setDx_forwards (s : State) (d : Nat) (x : DieXlate) : (s.setDx d x).forwards = s.forwards := rfl
@[simp] theorem setDx_dieState (s : State) (d : Nat) (x : DieXlate) : (s.setDx d x).dieState = s.dieState := rfl
@[simp] theorem setDx_counters (s : State) (d : Nat) (x : DieXlate) : (s.setDx d x).counters = s.counters := rfl
@[simp] theorem setDx_net (s : State) (d : Nat) (x : DieXlate) : (s.setDx d x).net = s.net := rfl
@[simp] theorem setDx_host (s : State) (d : Nat) (x : DieXlate) : (s.setDx d x).host = s.host := rfl
@[simp] theorem setDx_power (s : State) (d : Nat) (x : DieXlate) : (s.setDx d x).power = s.power := rfl
@[simp] theorem setDx_dict (s : State) (d : Nat) (x : DieXlate) : (s.setDx d x).dict = s.dict := rfl
@[simp] theorem setDx_boot (s : State) (d : Nat) (x : DieXlate) : (s.setDx d x).boot = s.boot := rfl
@[simp] theorem setDx_pins (s : State) (d : Nat) (x : DieXlate) : (s.setDx d x).pins = s.pins := rfl
@[simp] theorem setDx_taps (s : State) (d : Nat) (x : DieXlate) : (s.setDx d x).taps = s.taps := rfl
@[simp] theorem setDx_trstHeld (s : State) (d : Nat) (x : DieXlate) : (s.setDx d x).trstHeld = s.trstHeld := rfl
@[simp] theorem setDx_flushes (s : State) (d : Nat) (x : DieXlate) : (s.setDx d x).flushes = s.flushes := rfl
@[simp] theorem setDx_parts (s : State) (d : Nat) (x : DieXlate) : (s.setDx d x).parts = s.parts := rfl
@[simp] theorem setTally_pending (s : State) (d : Nat) (x : TallySet) : (s.setTally d x).pending = s.pending := rfl
@[simp] theorem setTally_free (s : State) (d : Nat) (x : TallySet) : (s.setTally d x).free = s.free := rfl
@[simp] theorem setTally_out (s : State) (d : Nat) (x : TallySet) : (s.setTally d x).out = s.out := rfl
@[simp] theorem setTally_groups (s : State) (d : Nat) (x : TallySet) : (s.setTally d x).groups = s.groups := rfl
@[simp] theorem setTally_clusters (s : State) (d : Nat) (x : TallySet) : (s.setTally d x).clusters = s.clusters := rfl
@[simp] theorem setTally_kernels (s : State) (d : Nat) (x : TallySet) : (s.setTally d x).kernels = s.kernels := rfl
@[simp] theorem setTally_nextKernel (s : State) (d : Nat) (x : TallySet) : (s.setTally d x).nextKernel = s.nextKernel := rfl
@[simp] theorem setTally_mem (s : State) (d : Nat) (x : TallySet) : (s.setTally d x).mem = s.mem := rfl
@[simp] theorem setTally_agents (s : State) (d : Nat) (x : TallySet) : (s.setTally d x).agents = s.agents := rfl
@[simp] theorem setTally_txns (s : State) (d : Nat) (x : TallySet) : (s.setTally d x).txns = s.txns := rfl
@[simp] theorem setTally_xlate (s : State) (d : Nat) (x : TallySet) : (s.setTally d x).xlate = s.xlate := rfl
@[simp] theorem setTally_dieXlate (s : State) (d : Nat) (x : TallySet) : (s.setTally d x).dieXlate = s.dieXlate := rfl
@[simp] theorem setTally_stalled (s : State) (d : Nat) (x : TallySet) : (s.setTally d x).stalled = s.stalled := rfl
@[simp] theorem setTally_links (s : State) (d : Nat) (x : TallySet) : (s.setTally d x).links = s.links := rfl
@[simp] theorem setTally_pkgRequests (s : State) (d : Nat) (x : TallySet) : (s.setTally d x).pkgRequests = s.pkgRequests := rfl
@[simp] theorem setTally_forwards (s : State) (d : Nat) (x : TallySet) : (s.setTally d x).forwards = s.forwards := rfl
@[simp] theorem setTally_dieState (s : State) (d : Nat) (x : TallySet) : (s.setTally d x).dieState = s.dieState := rfl
@[simp] theorem setTally_counters (s : State) (d : Nat) (x : TallySet) : (s.setTally d x).counters = s.counters := rfl
@[simp] theorem setTally_net (s : State) (d : Nat) (x : TallySet) : (s.setTally d x).net = s.net := rfl
@[simp] theorem setTally_host (s : State) (d : Nat) (x : TallySet) : (s.setTally d x).host = s.host := rfl
@[simp] theorem setTally_power (s : State) (d : Nat) (x : TallySet) : (s.setTally d x).power = s.power := rfl
@[simp] theorem setTally_dict (s : State) (d : Nat) (x : TallySet) : (s.setTally d x).dict = s.dict := rfl
@[simp] theorem setTally_boot (s : State) (d : Nat) (x : TallySet) : (s.setTally d x).boot = s.boot := rfl
@[simp] theorem setTally_pins (s : State) (d : Nat) (x : TallySet) : (s.setTally d x).pins = s.pins := rfl
@[simp] theorem setTally_taps (s : State) (d : Nat) (x : TallySet) : (s.setTally d x).taps = s.taps := rfl
@[simp] theorem setTally_trstHeld (s : State) (d : Nat) (x : TallySet) : (s.setTally d x).trstHeld = s.trstHeld := rfl
@[simp] theorem setTally_flushes (s : State) (d : Nat) (x : TallySet) : (s.setTally d x).flushes = s.flushes := rfl
@[simp] theorem setTally_parts (s : State) (d : Nat) (x : TallySet) : (s.setTally d x).parts = s.parts := rfl
@[simp] theorem setCounter_pending (s : State) (i j n : Nat) : (s.setCounter i j n).pending = s.pending := rfl
@[simp] theorem setCounter_free (s : State) (i j n : Nat) : (s.setCounter i j n).free = s.free := rfl
@[simp] theorem setCounter_out (s : State) (i j n : Nat) : (s.setCounter i j n).out = s.out := rfl
@[simp] theorem setCounter_groups (s : State) (i j n : Nat) : (s.setCounter i j n).groups = s.groups := rfl
@[simp] theorem setCounter_clusters (s : State) (i j n : Nat) : (s.setCounter i j n).clusters = s.clusters := rfl
@[simp] theorem setCounter_kernels (s : State) (i j n : Nat) : (s.setCounter i j n).kernels = s.kernels := rfl
@[simp] theorem setCounter_nextKernel (s : State) (i j n : Nat) : (s.setCounter i j n).nextKernel = s.nextKernel := rfl
@[simp] theorem setCounter_tallies (s : State) (i j n : Nat) : (s.setCounter i j n).tallies = s.tallies := rfl
@[simp] theorem setCounter_mem (s : State) (i j n : Nat) : (s.setCounter i j n).mem = s.mem := rfl
@[simp] theorem setCounter_agents (s : State) (i j n : Nat) : (s.setCounter i j n).agents = s.agents := rfl
@[simp] theorem setCounter_txns (s : State) (i j n : Nat) : (s.setCounter i j n).txns = s.txns := rfl
@[simp] theorem setCounter_xlate (s : State) (i j n : Nat) : (s.setCounter i j n).xlate = s.xlate := rfl
@[simp] theorem setCounter_dieXlate (s : State) (i j n : Nat) : (s.setCounter i j n).dieXlate = s.dieXlate := rfl
@[simp] theorem setCounter_stalled (s : State) (i j n : Nat) : (s.setCounter i j n).stalled = s.stalled := rfl
@[simp] theorem setCounter_links (s : State) (i j n : Nat) : (s.setCounter i j n).links = s.links := rfl
@[simp] theorem setCounter_pkgRequests (s : State) (i j n : Nat) : (s.setCounter i j n).pkgRequests = s.pkgRequests := rfl
@[simp] theorem setCounter_forwards (s : State) (i j n : Nat) : (s.setCounter i j n).forwards = s.forwards := rfl
@[simp] theorem setCounter_dieState (s : State) (i j n : Nat) : (s.setCounter i j n).dieState = s.dieState := rfl
@[simp] theorem setCounter_net (s : State) (i j n : Nat) : (s.setCounter i j n).net = s.net := rfl
@[simp] theorem setCounter_host (s : State) (i j n : Nat) : (s.setCounter i j n).host = s.host := rfl
@[simp] theorem setCounter_power (s : State) (i j n : Nat) : (s.setCounter i j n).power = s.power := rfl
@[simp] theorem setCounter_dict (s : State) (i j n : Nat) : (s.setCounter i j n).dict = s.dict := rfl
@[simp] theorem setCounter_boot (s : State) (i j n : Nat) : (s.setCounter i j n).boot = s.boot := rfl
@[simp] theorem setCounter_pins (s : State) (i j n : Nat) : (s.setCounter i j n).pins = s.pins := rfl
@[simp] theorem setCounter_taps (s : State) (i j n : Nat) : (s.setCounter i j n).taps = s.taps := rfl
@[simp] theorem setCounter_trstHeld (s : State) (i j n : Nat) : (s.setCounter i j n).trstHeld = s.trstHeld := rfl
@[simp] theorem setCounter_flushes (s : State) (i j n : Nat) : (s.setCounter i j n).flushes = s.flushes := rfl
@[simp] theorem setCounter_parts (s : State) (i j n : Nat) : (s.setCounter i j n).parts = s.parts := rfl
@[simp] theorem count_pending (s : State) (i j n : Nat) : (s.count i j n).pending = s.pending := rfl
@[simp] theorem count_free (s : State) (i j n : Nat) : (s.count i j n).free = s.free := rfl
@[simp] theorem count_out (s : State) (i j n : Nat) : (s.count i j n).out = s.out := rfl
@[simp] theorem count_groups (s : State) (i j n : Nat) : (s.count i j n).groups = s.groups := rfl
@[simp] theorem count_clusters (s : State) (i j n : Nat) : (s.count i j n).clusters = s.clusters := rfl
@[simp] theorem count_kernels (s : State) (i j n : Nat) : (s.count i j n).kernels = s.kernels := rfl
@[simp] theorem count_nextKernel (s : State) (i j n : Nat) : (s.count i j n).nextKernel = s.nextKernel := rfl
@[simp] theorem count_tallies (s : State) (i j n : Nat) : (s.count i j n).tallies = s.tallies := rfl
@[simp] theorem count_mem (s : State) (i j n : Nat) : (s.count i j n).mem = s.mem := rfl
@[simp] theorem count_agents (s : State) (i j n : Nat) : (s.count i j n).agents = s.agents := rfl
@[simp] theorem count_txns (s : State) (i j n : Nat) : (s.count i j n).txns = s.txns := rfl
@[simp] theorem count_xlate (s : State) (i j n : Nat) : (s.count i j n).xlate = s.xlate := rfl
@[simp] theorem count_dieXlate (s : State) (i j n : Nat) : (s.count i j n).dieXlate = s.dieXlate := rfl
@[simp] theorem count_stalled (s : State) (i j n : Nat) : (s.count i j n).stalled = s.stalled := rfl
@[simp] theorem count_links (s : State) (i j n : Nat) : (s.count i j n).links = s.links := rfl
@[simp] theorem count_pkgRequests (s : State) (i j n : Nat) : (s.count i j n).pkgRequests = s.pkgRequests := rfl
@[simp] theorem count_forwards (s : State) (i j n : Nat) : (s.count i j n).forwards = s.forwards := rfl
@[simp] theorem count_dieState (s : State) (i j n : Nat) : (s.count i j n).dieState = s.dieState := rfl
@[simp] theorem count_net (s : State) (i j n : Nat) : (s.count i j n).net = s.net := rfl
@[simp] theorem count_host (s : State) (i j n : Nat) : (s.count i j n).host = s.host := rfl
@[simp] theorem count_power (s : State) (i j n : Nat) : (s.count i j n).power = s.power := rfl
@[simp] theorem count_dict (s : State) (i j n : Nat) : (s.count i j n).dict = s.dict := rfl
@[simp] theorem count_boot (s : State) (i j n : Nat) : (s.count i j n).boot = s.boot := rfl
@[simp] theorem count_pins (s : State) (i j n : Nat) : (s.count i j n).pins = s.pins := rfl
@[simp] theorem count_taps (s : State) (i j n : Nat) : (s.count i j n).taps = s.taps := rfl
@[simp] theorem count_trstHeld (s : State) (i j n : Nat) : (s.count i j n).trstHeld = s.trstHeld := rfl
@[simp] theorem count_flushes (s : State) (i j n : Nat) : (s.count i j n).flushes = s.flushes := rfl
@[simp] theorem count_parts (s : State) (i j n : Nat) : (s.count i j n).parts = s.parts := rfl
@[simp] theorem useFree_pending (s : State) : (s.useFree).pending = s.pending := rfl
@[simp] theorem useFree_out (s : State) : (s.useFree).out = s.out := rfl
@[simp] theorem useFree_groups (s : State) : (s.useFree).groups = s.groups := rfl
@[simp] theorem useFree_clusters (s : State) : (s.useFree).clusters = s.clusters := rfl
@[simp] theorem useFree_kernels (s : State) : (s.useFree).kernels = s.kernels := rfl
@[simp] theorem useFree_nextKernel (s : State) : (s.useFree).nextKernel = s.nextKernel := rfl
@[simp] theorem useFree_tallies (s : State) : (s.useFree).tallies = s.tallies := rfl
@[simp] theorem useFree_mem (s : State) : (s.useFree).mem = s.mem := rfl
@[simp] theorem useFree_agents (s : State) : (s.useFree).agents = s.agents := rfl
@[simp] theorem useFree_txns (s : State) : (s.useFree).txns = s.txns := rfl
@[simp] theorem useFree_xlate (s : State) : (s.useFree).xlate = s.xlate := rfl
@[simp] theorem useFree_dieXlate (s : State) : (s.useFree).dieXlate = s.dieXlate := rfl
@[simp] theorem useFree_stalled (s : State) : (s.useFree).stalled = s.stalled := rfl
@[simp] theorem useFree_links (s : State) : (s.useFree).links = s.links := rfl
@[simp] theorem useFree_pkgRequests (s : State) : (s.useFree).pkgRequests = s.pkgRequests := rfl
@[simp] theorem useFree_forwards (s : State) : (s.useFree).forwards = s.forwards := rfl
@[simp] theorem useFree_dieState (s : State) : (s.useFree).dieState = s.dieState := rfl
@[simp] theorem useFree_counters (s : State) : (s.useFree).counters = s.counters := rfl
@[simp] theorem useFree_net (s : State) : (s.useFree).net = s.net := rfl
@[simp] theorem useFree_host (s : State) : (s.useFree).host = s.host := rfl
@[simp] theorem useFree_power (s : State) : (s.useFree).power = s.power := rfl
@[simp] theorem useFree_dict (s : State) : (s.useFree).dict = s.dict := rfl
@[simp] theorem useFree_boot (s : State) : (s.useFree).boot = s.boot := rfl
@[simp] theorem useFree_pins (s : State) : (s.useFree).pins = s.pins := rfl
@[simp] theorem useFree_taps (s : State) : (s.useFree).taps = s.taps := rfl
@[simp] theorem useFree_trstHeld (s : State) : (s.useFree).trstHeld = s.trstHeld := rfl
@[simp] theorem useFree_flushes (s : State) : (s.useFree).flushes = s.flushes := rfl
@[simp] theorem useFree_parts (s : State) : (s.useFree).parts = s.parts := rfl
@[simp] theorem send_pending (s : State) (o : Out) : (s.send o).pending = s.pending := rfl
@[simp] theorem send_free (s : State) (o : Out) : (s.send o).free = s.free := rfl
@[simp] theorem send_groups (s : State) (o : Out) : (s.send o).groups = s.groups := rfl
@[simp] theorem send_clusters (s : State) (o : Out) : (s.send o).clusters = s.clusters := rfl
@[simp] theorem send_kernels (s : State) (o : Out) : (s.send o).kernels = s.kernels := rfl
@[simp] theorem send_nextKernel (s : State) (o : Out) : (s.send o).nextKernel = s.nextKernel := rfl
@[simp] theorem send_tallies (s : State) (o : Out) : (s.send o).tallies = s.tallies := rfl
@[simp] theorem send_mem (s : State) (o : Out) : (s.send o).mem = s.mem := rfl
@[simp] theorem send_agents (s : State) (o : Out) : (s.send o).agents = s.agents := rfl
@[simp] theorem send_txns (s : State) (o : Out) : (s.send o).txns = s.txns := rfl
@[simp] theorem send_xlate (s : State) (o : Out) : (s.send o).xlate = s.xlate := rfl
@[simp] theorem send_dieXlate (s : State) (o : Out) : (s.send o).dieXlate = s.dieXlate := rfl
@[simp] theorem send_stalled (s : State) (o : Out) : (s.send o).stalled = s.stalled := rfl
@[simp] theorem send_links (s : State) (o : Out) : (s.send o).links = s.links := rfl
@[simp] theorem send_pkgRequests (s : State) (o : Out) : (s.send o).pkgRequests = s.pkgRequests := rfl
@[simp] theorem send_forwards (s : State) (o : Out) : (s.send o).forwards = s.forwards := rfl
@[simp] theorem send_dieState (s : State) (o : Out) : (s.send o).dieState = s.dieState := rfl
@[simp] theorem send_counters (s : State) (o : Out) : (s.send o).counters = s.counters := rfl
@[simp] theorem send_net (s : State) (o : Out) : (s.send o).net = s.net := rfl
@[simp] theorem send_host (s : State) (o : Out) : (s.send o).host = s.host := rfl
@[simp] theorem send_power (s : State) (o : Out) : (s.send o).power = s.power := rfl
@[simp] theorem send_dict (s : State) (o : Out) : (s.send o).dict = s.dict := rfl
@[simp] theorem send_boot (s : State) (o : Out) : (s.send o).boot = s.boot := rfl
@[simp] theorem send_pins (s : State) (o : Out) : (s.send o).pins = s.pins := rfl
@[simp] theorem send_taps (s : State) (o : Out) : (s.send o).taps = s.taps := rfl
@[simp] theorem send_trstHeld (s : State) (o : Out) : (s.send o).trstHeld = s.trstHeld := rfl
@[simp] theorem send_flushes (s : State) (o : Out) : (s.send o).flushes = s.flushes := rfl
@[simp] theorem send_parts (s : State) (o : Out) : (s.send o).parts = s.parts := rfl
@[simp] theorem setFn_pending (s : State) (p v : Nat) (x : FnState) : (s.setFn p v x).pending = s.pending := rfl
@[simp] theorem setFn_free (s : State) (p v : Nat) (x : FnState) : (s.setFn p v x).free = s.free := rfl
@[simp] theorem setFn_out (s : State) (p v : Nat) (x : FnState) : (s.setFn p v x).out = s.out := rfl
@[simp] theorem setFn_groups (s : State) (p v : Nat) (x : FnState) : (s.setFn p v x).groups = s.groups := rfl
@[simp] theorem setFn_clusters (s : State) (p v : Nat) (x : FnState) : (s.setFn p v x).clusters = s.clusters := rfl
@[simp] theorem setFn_kernels (s : State) (p v : Nat) (x : FnState) : (s.setFn p v x).kernels = s.kernels := rfl
@[simp] theorem setFn_nextKernel (s : State) (p v : Nat) (x : FnState) : (s.setFn p v x).nextKernel = s.nextKernel := rfl
@[simp] theorem setFn_tallies (s : State) (p v : Nat) (x : FnState) : (s.setFn p v x).tallies = s.tallies := rfl
@[simp] theorem setFn_mem (s : State) (p v : Nat) (x : FnState) : (s.setFn p v x).mem = s.mem := rfl
@[simp] theorem setFn_agents (s : State) (p v : Nat) (x : FnState) : (s.setFn p v x).agents = s.agents := rfl
@[simp] theorem setFn_txns (s : State) (p v : Nat) (x : FnState) : (s.setFn p v x).txns = s.txns := rfl
@[simp] theorem setFn_xlate (s : State) (p v : Nat) (x : FnState) : (s.setFn p v x).xlate = s.xlate := rfl
@[simp] theorem setFn_dieXlate (s : State) (p v : Nat) (x : FnState) : (s.setFn p v x).dieXlate = s.dieXlate := rfl
@[simp] theorem setFn_stalled (s : State) (p v : Nat) (x : FnState) : (s.setFn p v x).stalled = s.stalled := rfl
@[simp] theorem setFn_links (s : State) (p v : Nat) (x : FnState) : (s.setFn p v x).links = s.links := rfl
@[simp] theorem setFn_pkgRequests (s : State) (p v : Nat) (x : FnState) : (s.setFn p v x).pkgRequests = s.pkgRequests := rfl
@[simp] theorem setFn_forwards (s : State) (p v : Nat) (x : FnState) : (s.setFn p v x).forwards = s.forwards := rfl
@[simp] theorem setFn_dieState (s : State) (p v : Nat) (x : FnState) : (s.setFn p v x).dieState = s.dieState := rfl
@[simp] theorem setFn_counters (s : State) (p v : Nat) (x : FnState) : (s.setFn p v x).counters = s.counters := rfl
@[simp] theorem setFn_net (s : State) (p v : Nat) (x : FnState) : (s.setFn p v x).net = s.net := rfl
@[simp] theorem setFn_power (s : State) (p v : Nat) (x : FnState) : (s.setFn p v x).power = s.power := rfl
@[simp] theorem setFn_dict (s : State) (p v : Nat) (x : FnState) : (s.setFn p v x).dict = s.dict := rfl
@[simp] theorem setFn_boot (s : State) (p v : Nat) (x : FnState) : (s.setFn p v x).boot = s.boot := rfl
@[simp] theorem setFn_pins (s : State) (p v : Nat) (x : FnState) : (s.setFn p v x).pins = s.pins := rfl
@[simp] theorem setFn_taps (s : State) (p v : Nat) (x : FnState) : (s.setFn p v x).taps = s.taps := rfl
@[simp] theorem setFn_trstHeld (s : State) (p v : Nat) (x : FnState) : (s.setFn p v x).trstHeld = s.trstHeld := rfl
@[simp] theorem setFn_flushes (s : State) (p v : Nat) (x : FnState) : (s.setFn p v x).flushes = s.flushes := rfl
@[simp] theorem setFn_parts (s : State) (p v : Nat) (x : FnState) : (s.setFn p v x).parts = s.parts := rfl
@[simp] theorem setQueue_pending (s : State) (k : Nat) (x : Queue) : (s.setQueue k x).pending = s.pending := rfl
@[simp] theorem setQueue_free (s : State) (k : Nat) (x : Queue) : (s.setQueue k x).free = s.free := rfl
@[simp] theorem setQueue_out (s : State) (k : Nat) (x : Queue) : (s.setQueue k x).out = s.out := rfl
@[simp] theorem setQueue_groups (s : State) (k : Nat) (x : Queue) : (s.setQueue k x).groups = s.groups := rfl
@[simp] theorem setQueue_clusters (s : State) (k : Nat) (x : Queue) : (s.setQueue k x).clusters = s.clusters := rfl
@[simp] theorem setQueue_kernels (s : State) (k : Nat) (x : Queue) : (s.setQueue k x).kernels = s.kernels := rfl
@[simp] theorem setQueue_nextKernel (s : State) (k : Nat) (x : Queue) : (s.setQueue k x).nextKernel = s.nextKernel := rfl
@[simp] theorem setQueue_tallies (s : State) (k : Nat) (x : Queue) : (s.setQueue k x).tallies = s.tallies := rfl
@[simp] theorem setQueue_mem (s : State) (k : Nat) (x : Queue) : (s.setQueue k x).mem = s.mem := rfl
@[simp] theorem setQueue_agents (s : State) (k : Nat) (x : Queue) : (s.setQueue k x).agents = s.agents := rfl
@[simp] theorem setQueue_txns (s : State) (k : Nat) (x : Queue) : (s.setQueue k x).txns = s.txns := rfl
@[simp] theorem setQueue_xlate (s : State) (k : Nat) (x : Queue) : (s.setQueue k x).xlate = s.xlate := rfl
@[simp] theorem setQueue_dieXlate (s : State) (k : Nat) (x : Queue) : (s.setQueue k x).dieXlate = s.dieXlate := rfl
@[simp] theorem setQueue_stalled (s : State) (k : Nat) (x : Queue) : (s.setQueue k x).stalled = s.stalled := rfl
@[simp] theorem setQueue_links (s : State) (k : Nat) (x : Queue) : (s.setQueue k x).links = s.links := rfl
@[simp] theorem setQueue_pkgRequests (s : State) (k : Nat) (x : Queue) : (s.setQueue k x).pkgRequests = s.pkgRequests := rfl
@[simp] theorem setQueue_forwards (s : State) (k : Nat) (x : Queue) : (s.setQueue k x).forwards = s.forwards := rfl
@[simp] theorem setQueue_dieState (s : State) (k : Nat) (x : Queue) : (s.setQueue k x).dieState = s.dieState := rfl
@[simp] theorem setQueue_counters (s : State) (k : Nat) (x : Queue) : (s.setQueue k x).counters = s.counters := rfl
@[simp] theorem setQueue_net (s : State) (k : Nat) (x : Queue) : (s.setQueue k x).net = s.net := rfl
@[simp] theorem setQueue_power (s : State) (k : Nat) (x : Queue) : (s.setQueue k x).power = s.power := rfl
@[simp] theorem setQueue_dict (s : State) (k : Nat) (x : Queue) : (s.setQueue k x).dict = s.dict := rfl
@[simp] theorem setQueue_boot (s : State) (k : Nat) (x : Queue) : (s.setQueue k x).boot = s.boot := rfl
@[simp] theorem setQueue_pins (s : State) (k : Nat) (x : Queue) : (s.setQueue k x).pins = s.pins := rfl
@[simp] theorem setQueue_taps (s : State) (k : Nat) (x : Queue) : (s.setQueue k x).taps = s.taps := rfl
@[simp] theorem setQueue_trstHeld (s : State) (k : Nat) (x : Queue) : (s.setQueue k x).trstHeld = s.trstHeld := rfl
@[simp] theorem setQueue_flushes (s : State) (k : Nat) (x : Queue) : (s.setQueue k x).flushes = s.flushes := rfl
@[simp] theorem setQueue_parts (s : State) (k : Nat) (x : Queue) : (s.setQueue k x).parts = s.parts := rfl
@[simp] theorem setStack_pending (s : State) (k : Nat) (x : Stack) : (s.setStack k x).pending = s.pending := rfl
@[simp] theorem setStack_free (s : State) (k : Nat) (x : Stack) : (s.setStack k x).free = s.free := rfl
@[simp] theorem setStack_out (s : State) (k : Nat) (x : Stack) : (s.setStack k x).out = s.out := rfl
@[simp] theorem setStack_groups (s : State) (k : Nat) (x : Stack) : (s.setStack k x).groups = s.groups := rfl
@[simp] theorem setStack_clusters (s : State) (k : Nat) (x : Stack) : (s.setStack k x).clusters = s.clusters := rfl
@[simp] theorem setStack_kernels (s : State) (k : Nat) (x : Stack) : (s.setStack k x).kernels = s.kernels := rfl
@[simp] theorem setStack_nextKernel (s : State) (k : Nat) (x : Stack) : (s.setStack k x).nextKernel = s.nextKernel := rfl
@[simp] theorem setStack_tallies (s : State) (k : Nat) (x : Stack) : (s.setStack k x).tallies = s.tallies := rfl
@[simp] theorem setStack_agents (s : State) (k : Nat) (x : Stack) : (s.setStack k x).agents = s.agents := rfl
@[simp] theorem setStack_txns (s : State) (k : Nat) (x : Stack) : (s.setStack k x).txns = s.txns := rfl
@[simp] theorem setStack_xlate (s : State) (k : Nat) (x : Stack) : (s.setStack k x).xlate = s.xlate := rfl
@[simp] theorem setStack_dieXlate (s : State) (k : Nat) (x : Stack) : (s.setStack k x).dieXlate = s.dieXlate := rfl
@[simp] theorem setStack_stalled (s : State) (k : Nat) (x : Stack) : (s.setStack k x).stalled = s.stalled := rfl
@[simp] theorem setStack_links (s : State) (k : Nat) (x : Stack) : (s.setStack k x).links = s.links := rfl
@[simp] theorem setStack_pkgRequests (s : State) (k : Nat) (x : Stack) : (s.setStack k x).pkgRequests = s.pkgRequests := rfl
@[simp] theorem setStack_forwards (s : State) (k : Nat) (x : Stack) : (s.setStack k x).forwards = s.forwards := rfl
@[simp] theorem setStack_dieState (s : State) (k : Nat) (x : Stack) : (s.setStack k x).dieState = s.dieState := rfl
@[simp] theorem setStack_counters (s : State) (k : Nat) (x : Stack) : (s.setStack k x).counters = s.counters := rfl
@[simp] theorem setStack_net (s : State) (k : Nat) (x : Stack) : (s.setStack k x).net = s.net := rfl
@[simp] theorem setStack_host (s : State) (k : Nat) (x : Stack) : (s.setStack k x).host = s.host := rfl
@[simp] theorem setStack_power (s : State) (k : Nat) (x : Stack) : (s.setStack k x).power = s.power := rfl
@[simp] theorem setStack_dict (s : State) (k : Nat) (x : Stack) : (s.setStack k x).dict = s.dict := rfl
@[simp] theorem setStack_boot (s : State) (k : Nat) (x : Stack) : (s.setStack k x).boot = s.boot := rfl
@[simp] theorem setStack_pins (s : State) (k : Nat) (x : Stack) : (s.setStack k x).pins = s.pins := rfl
@[simp] theorem setStack_taps (s : State) (k : Nat) (x : Stack) : (s.setStack k x).taps = s.taps := rfl
@[simp] theorem setStack_trstHeld (s : State) (k : Nat) (x : Stack) : (s.setStack k x).trstHeld = s.trstHeld := rfl
@[simp] theorem setStack_flushes (s : State) (k : Nat) (x : Stack) : (s.setStack k x).flushes = s.flushes := rfl
@[simp] theorem setStack_parts (s : State) (k : Nat) (x : Stack) : (s.setStack k x).parts = s.parts := rfl
@[simp] theorem setTwin_pending (s : State) (k : Nat) (x : Twin) : (s.setTwin k x).pending = s.pending := rfl
@[simp] theorem setTwin_free (s : State) (k : Nat) (x : Twin) : (s.setTwin k x).free = s.free := rfl
@[simp] theorem setTwin_out (s : State) (k : Nat) (x : Twin) : (s.setTwin k x).out = s.out := rfl
@[simp] theorem setTwin_groups (s : State) (k : Nat) (x : Twin) : (s.setTwin k x).groups = s.groups := rfl
@[simp] theorem setTwin_clusters (s : State) (k : Nat) (x : Twin) : (s.setTwin k x).clusters = s.clusters := rfl
@[simp] theorem setTwin_kernels (s : State) (k : Nat) (x : Twin) : (s.setTwin k x).kernels = s.kernels := rfl
@[simp] theorem setTwin_nextKernel (s : State) (k : Nat) (x : Twin) : (s.setTwin k x).nextKernel = s.nextKernel := rfl
@[simp] theorem setTwin_tallies (s : State) (k : Nat) (x : Twin) : (s.setTwin k x).tallies = s.tallies := rfl
@[simp] theorem setTwin_agents (s : State) (k : Nat) (x : Twin) : (s.setTwin k x).agents = s.agents := rfl
@[simp] theorem setTwin_txns (s : State) (k : Nat) (x : Twin) : (s.setTwin k x).txns = s.txns := rfl
@[simp] theorem setTwin_xlate (s : State) (k : Nat) (x : Twin) : (s.setTwin k x).xlate = s.xlate := rfl
@[simp] theorem setTwin_dieXlate (s : State) (k : Nat) (x : Twin) : (s.setTwin k x).dieXlate = s.dieXlate := rfl
@[simp] theorem setTwin_stalled (s : State) (k : Nat) (x : Twin) : (s.setTwin k x).stalled = s.stalled := rfl
@[simp] theorem setTwin_links (s : State) (k : Nat) (x : Twin) : (s.setTwin k x).links = s.links := rfl
@[simp] theorem setTwin_pkgRequests (s : State) (k : Nat) (x : Twin) : (s.setTwin k x).pkgRequests = s.pkgRequests := rfl
@[simp] theorem setTwin_forwards (s : State) (k : Nat) (x : Twin) : (s.setTwin k x).forwards = s.forwards := rfl
@[simp] theorem setTwin_dieState (s : State) (k : Nat) (x : Twin) : (s.setTwin k x).dieState = s.dieState := rfl
@[simp] theorem setTwin_counters (s : State) (k : Nat) (x : Twin) : (s.setTwin k x).counters = s.counters := rfl
@[simp] theorem setTwin_net (s : State) (k : Nat) (x : Twin) : (s.setTwin k x).net = s.net := rfl
@[simp] theorem setTwin_host (s : State) (k : Nat) (x : Twin) : (s.setTwin k x).host = s.host := rfl
@[simp] theorem setTwin_power (s : State) (k : Nat) (x : Twin) : (s.setTwin k x).power = s.power := rfl
@[simp] theorem setTwin_dict (s : State) (k : Nat) (x : Twin) : (s.setTwin k x).dict = s.dict := rfl
@[simp] theorem setTwin_boot (s : State) (k : Nat) (x : Twin) : (s.setTwin k x).boot = s.boot := rfl
@[simp] theorem setTwin_pins (s : State) (k : Nat) (x : Twin) : (s.setTwin k x).pins = s.pins := rfl
@[simp] theorem setTwin_taps (s : State) (k : Nat) (x : Twin) : (s.setTwin k x).taps = s.taps := rfl
@[simp] theorem setTwin_trstHeld (s : State) (k : Nat) (x : Twin) : (s.setTwin k x).trstHeld = s.trstHeld := rfl
@[simp] theorem setTwin_flushes (s : State) (k : Nat) (x : Twin) : (s.setTwin k x).flushes = s.flushes := rfl
@[simp] theorem setTwin_parts (s : State) (k : Nat) (x : Twin) : (s.setTwin k x).parts = s.parts := rfl
@[simp] theorem setFlip_pending (s : State) (k : Nat) (x : FlipState) : (s.setFlip k x).pending = s.pending := rfl
@[simp] theorem setFlip_free (s : State) (k : Nat) (x : FlipState) : (s.setFlip k x).free = s.free := rfl
@[simp] theorem setFlip_out (s : State) (k : Nat) (x : FlipState) : (s.setFlip k x).out = s.out := rfl
@[simp] theorem setFlip_groups (s : State) (k : Nat) (x : FlipState) : (s.setFlip k x).groups = s.groups := rfl
@[simp] theorem setFlip_clusters (s : State) (k : Nat) (x : FlipState) : (s.setFlip k x).clusters = s.clusters := rfl
@[simp] theorem setFlip_kernels (s : State) (k : Nat) (x : FlipState) : (s.setFlip k x).kernels = s.kernels := rfl
@[simp] theorem setFlip_nextKernel (s : State) (k : Nat) (x : FlipState) : (s.setFlip k x).nextKernel = s.nextKernel := rfl
@[simp] theorem setFlip_tallies (s : State) (k : Nat) (x : FlipState) : (s.setFlip k x).tallies = s.tallies := rfl
@[simp] theorem setFlip_agents (s : State) (k : Nat) (x : FlipState) : (s.setFlip k x).agents = s.agents := rfl
@[simp] theorem setFlip_txns (s : State) (k : Nat) (x : FlipState) : (s.setFlip k x).txns = s.txns := rfl
@[simp] theorem setFlip_xlate (s : State) (k : Nat) (x : FlipState) : (s.setFlip k x).xlate = s.xlate := rfl
@[simp] theorem setFlip_dieXlate (s : State) (k : Nat) (x : FlipState) : (s.setFlip k x).dieXlate = s.dieXlate := rfl
@[simp] theorem setFlip_stalled (s : State) (k : Nat) (x : FlipState) : (s.setFlip k x).stalled = s.stalled := rfl
@[simp] theorem setFlip_links (s : State) (k : Nat) (x : FlipState) : (s.setFlip k x).links = s.links := rfl
@[simp] theorem setFlip_pkgRequests (s : State) (k : Nat) (x : FlipState) : (s.setFlip k x).pkgRequests = s.pkgRequests := rfl
@[simp] theorem setFlip_forwards (s : State) (k : Nat) (x : FlipState) : (s.setFlip k x).forwards = s.forwards := rfl
@[simp] theorem setFlip_dieState (s : State) (k : Nat) (x : FlipState) : (s.setFlip k x).dieState = s.dieState := rfl
@[simp] theorem setFlip_counters (s : State) (k : Nat) (x : FlipState) : (s.setFlip k x).counters = s.counters := rfl
@[simp] theorem setFlip_net (s : State) (k : Nat) (x : FlipState) : (s.setFlip k x).net = s.net := rfl
@[simp] theorem setFlip_host (s : State) (k : Nat) (x : FlipState) : (s.setFlip k x).host = s.host := rfl
@[simp] theorem setFlip_power (s : State) (k : Nat) (x : FlipState) : (s.setFlip k x).power = s.power := rfl
@[simp] theorem setFlip_dict (s : State) (k : Nat) (x : FlipState) : (s.setFlip k x).dict = s.dict := rfl
@[simp] theorem setFlip_boot (s : State) (k : Nat) (x : FlipState) : (s.setFlip k x).boot = s.boot := rfl
@[simp] theorem setFlip_pins (s : State) (k : Nat) (x : FlipState) : (s.setFlip k x).pins = s.pins := rfl
@[simp] theorem setFlip_taps (s : State) (k : Nat) (x : FlipState) : (s.setFlip k x).taps = s.taps := rfl
@[simp] theorem setFlip_trstHeld (s : State) (k : Nat) (x : FlipState) : (s.setFlip k x).trstHeld = s.trstHeld := rfl
@[simp] theorem setFlip_flushes (s : State) (k : Nat) (x : FlipState) : (s.setFlip k x).flushes = s.flushes := rfl
@[simp] theorem setFlip_parts (s : State) (k : Nat) (x : FlipState) : (s.setFlip k x).parts = s.parts := rfl
@[simp] theorem setFlow_pending (s : State) (k : Nat) (x : Flow) : (s.setFlow k x).pending = s.pending := rfl
@[simp] theorem setFlow_free (s : State) (k : Nat) (x : Flow) : (s.setFlow k x).free = s.free := rfl
@[simp] theorem setFlow_out (s : State) (k : Nat) (x : Flow) : (s.setFlow k x).out = s.out := rfl
@[simp] theorem setFlow_groups (s : State) (k : Nat) (x : Flow) : (s.setFlow k x).groups = s.groups := rfl
@[simp] theorem setFlow_clusters (s : State) (k : Nat) (x : Flow) : (s.setFlow k x).clusters = s.clusters := rfl
@[simp] theorem setFlow_kernels (s : State) (k : Nat) (x : Flow) : (s.setFlow k x).kernels = s.kernels := rfl
@[simp] theorem setFlow_nextKernel (s : State) (k : Nat) (x : Flow) : (s.setFlow k x).nextKernel = s.nextKernel := rfl
@[simp] theorem setFlow_tallies (s : State) (k : Nat) (x : Flow) : (s.setFlow k x).tallies = s.tallies := rfl
@[simp] theorem setFlow_mem (s : State) (k : Nat) (x : Flow) : (s.setFlow k x).mem = s.mem := rfl
@[simp] theorem setFlow_agents (s : State) (k : Nat) (x : Flow) : (s.setFlow k x).agents = s.agents := rfl
@[simp] theorem setFlow_txns (s : State) (k : Nat) (x : Flow) : (s.setFlow k x).txns = s.txns := rfl
@[simp] theorem setFlow_xlate (s : State) (k : Nat) (x : Flow) : (s.setFlow k x).xlate = s.xlate := rfl
@[simp] theorem setFlow_dieXlate (s : State) (k : Nat) (x : Flow) : (s.setFlow k x).dieXlate = s.dieXlate := rfl
@[simp] theorem setFlow_stalled (s : State) (k : Nat) (x : Flow) : (s.setFlow k x).stalled = s.stalled := rfl
@[simp] theorem setFlow_links (s : State) (k : Nat) (x : Flow) : (s.setFlow k x).links = s.links := rfl
@[simp] theorem setFlow_pkgRequests (s : State) (k : Nat) (x : Flow) : (s.setFlow k x).pkgRequests = s.pkgRequests := rfl
@[simp] theorem setFlow_forwards (s : State) (k : Nat) (x : Flow) : (s.setFlow k x).forwards = s.forwards := rfl
@[simp] theorem setFlow_dieState (s : State) (k : Nat) (x : Flow) : (s.setFlow k x).dieState = s.dieState := rfl
@[simp] theorem setFlow_counters (s : State) (k : Nat) (x : Flow) : (s.setFlow k x).counters = s.counters := rfl
@[simp] theorem setFlow_host (s : State) (k : Nat) (x : Flow) : (s.setFlow k x).host = s.host := rfl
@[simp] theorem setFlow_power (s : State) (k : Nat) (x : Flow) : (s.setFlow k x).power = s.power := rfl
@[simp] theorem setFlow_dict (s : State) (k : Nat) (x : Flow) : (s.setFlow k x).dict = s.dict := rfl
@[simp] theorem setFlow_boot (s : State) (k : Nat) (x : Flow) : (s.setFlow k x).boot = s.boot := rfl
@[simp] theorem setFlow_pins (s : State) (k : Nat) (x : Flow) : (s.setFlow k x).pins = s.pins := rfl
@[simp] theorem setFlow_taps (s : State) (k : Nat) (x : Flow) : (s.setFlow k x).taps = s.taps := rfl
@[simp] theorem setFlow_trstHeld (s : State) (k : Nat) (x : Flow) : (s.setFlow k x).trstHeld = s.trstHeld := rfl
@[simp] theorem setFlow_flushes (s : State) (k : Nat) (x : Flow) : (s.setFlow k x).flushes = s.flushes := rfl
@[simp] theorem setFlow_parts (s : State) (k : Nat) (x : Flow) : (s.setFlow k x).parts = s.parts := rfl
@[simp] theorem setKey_pending (s : State) (i e : Nat) : (s.setKey i e).pending = s.pending := rfl
@[simp] theorem setKey_free (s : State) (i e : Nat) : (s.setKey i e).free = s.free := rfl
@[simp] theorem setKey_out (s : State) (i e : Nat) : (s.setKey i e).out = s.out := rfl
@[simp] theorem setKey_groups (s : State) (i e : Nat) : (s.setKey i e).groups = s.groups := rfl
@[simp] theorem setKey_clusters (s : State) (i e : Nat) : (s.setKey i e).clusters = s.clusters := rfl
@[simp] theorem setKey_kernels (s : State) (i e : Nat) : (s.setKey i e).kernels = s.kernels := rfl
@[simp] theorem setKey_nextKernel (s : State) (i e : Nat) : (s.setKey i e).nextKernel = s.nextKernel := rfl
@[simp] theorem setKey_tallies (s : State) (i e : Nat) : (s.setKey i e).tallies = s.tallies := rfl
@[simp] theorem setKey_mem (s : State) (i e : Nat) : (s.setKey i e).mem = s.mem := rfl
@[simp] theorem setKey_agents (s : State) (i e : Nat) : (s.setKey i e).agents = s.agents := rfl
@[simp] theorem setKey_txns (s : State) (i e : Nat) : (s.setKey i e).txns = s.txns := rfl
@[simp] theorem setKey_xlate (s : State) (i e : Nat) : (s.setKey i e).xlate = s.xlate := rfl
@[simp] theorem setKey_dieXlate (s : State) (i e : Nat) : (s.setKey i e).dieXlate = s.dieXlate := rfl
@[simp] theorem setKey_stalled (s : State) (i e : Nat) : (s.setKey i e).stalled = s.stalled := rfl
@[simp] theorem setKey_links (s : State) (i e : Nat) : (s.setKey i e).links = s.links := rfl
@[simp] theorem setKey_pkgRequests (s : State) (i e : Nat) : (s.setKey i e).pkgRequests = s.pkgRequests := rfl
@[simp] theorem setKey_forwards (s : State) (i e : Nat) : (s.setKey i e).forwards = s.forwards := rfl
@[simp] theorem setKey_dieState (s : State) (i e : Nat) : (s.setKey i e).dieState = s.dieState := rfl
@[simp] theorem setKey_counters (s : State) (i e : Nat) : (s.setKey i e).counters = s.counters := rfl
@[simp] theorem setKey_host (s : State) (i e : Nat) : (s.setKey i e).host = s.host := rfl
@[simp] theorem setKey_power (s : State) (i e : Nat) : (s.setKey i e).power = s.power := rfl
@[simp] theorem setKey_dict (s : State) (i e : Nat) : (s.setKey i e).dict = s.dict := rfl
@[simp] theorem setKey_boot (s : State) (i e : Nat) : (s.setKey i e).boot = s.boot := rfl
@[simp] theorem setKey_pins (s : State) (i e : Nat) : (s.setKey i e).pins = s.pins := rfl
@[simp] theorem setKey_taps (s : State) (i e : Nat) : (s.setKey i e).taps = s.taps := rfl
@[simp] theorem setKey_trstHeld (s : State) (i e : Nat) : (s.setKey i e).trstHeld = s.trstHeld := rfl
@[simp] theorem setKey_flushes (s : State) (i e : Nat) : (s.setKey i e).flushes = s.flushes := rfl
@[simp] theorem setKey_parts (s : State) (i e : Nat) : (s.setKey i e).parts = s.parts := rfl
@[simp] theorem setSched_pending (s : State) (k : Nat) (x : SchedSlot) : (s.setSched k x).pending = s.pending := rfl
@[simp] theorem setSched_free (s : State) (k : Nat) (x : SchedSlot) : (s.setSched k x).free = s.free := rfl
@[simp] theorem setSched_out (s : State) (k : Nat) (x : SchedSlot) : (s.setSched k x).out = s.out := rfl
@[simp] theorem setSched_groups (s : State) (k : Nat) (x : SchedSlot) : (s.setSched k x).groups = s.groups := rfl
@[simp] theorem setSched_clusters (s : State) (k : Nat) (x : SchedSlot) : (s.setSched k x).clusters = s.clusters := rfl
@[simp] theorem setSched_kernels (s : State) (k : Nat) (x : SchedSlot) : (s.setSched k x).kernels = s.kernels := rfl
@[simp] theorem setSched_nextKernel (s : State) (k : Nat) (x : SchedSlot) : (s.setSched k x).nextKernel = s.nextKernel := rfl
@[simp] theorem setSched_tallies (s : State) (k : Nat) (x : SchedSlot) : (s.setSched k x).tallies = s.tallies := rfl
@[simp] theorem setSched_mem (s : State) (k : Nat) (x : SchedSlot) : (s.setSched k x).mem = s.mem := rfl
@[simp] theorem setSched_agents (s : State) (k : Nat) (x : SchedSlot) : (s.setSched k x).agents = s.agents := rfl
@[simp] theorem setSched_txns (s : State) (k : Nat) (x : SchedSlot) : (s.setSched k x).txns = s.txns := rfl
@[simp] theorem setSched_xlate (s : State) (k : Nat) (x : SchedSlot) : (s.setSched k x).xlate = s.xlate := rfl
@[simp] theorem setSched_dieXlate (s : State) (k : Nat) (x : SchedSlot) : (s.setSched k x).dieXlate = s.dieXlate := rfl
@[simp] theorem setSched_stalled (s : State) (k : Nat) (x : SchedSlot) : (s.setSched k x).stalled = s.stalled := rfl
@[simp] theorem setSched_links (s : State) (k : Nat) (x : SchedSlot) : (s.setSched k x).links = s.links := rfl
@[simp] theorem setSched_pkgRequests (s : State) (k : Nat) (x : SchedSlot) : (s.setSched k x).pkgRequests = s.pkgRequests := rfl
@[simp] theorem setSched_forwards (s : State) (k : Nat) (x : SchedSlot) : (s.setSched k x).forwards = s.forwards := rfl
@[simp] theorem setSched_dieState (s : State) (k : Nat) (x : SchedSlot) : (s.setSched k x).dieState = s.dieState := rfl
@[simp] theorem setSched_counters (s : State) (k : Nat) (x : SchedSlot) : (s.setSched k x).counters = s.counters := rfl
@[simp] theorem setSched_host (s : State) (k : Nat) (x : SchedSlot) : (s.setSched k x).host = s.host := rfl
@[simp] theorem setSched_power (s : State) (k : Nat) (x : SchedSlot) : (s.setSched k x).power = s.power := rfl
@[simp] theorem setSched_dict (s : State) (k : Nat) (x : SchedSlot) : (s.setSched k x).dict = s.dict := rfl
@[simp] theorem setSched_boot (s : State) (k : Nat) (x : SchedSlot) : (s.setSched k x).boot = s.boot := rfl
@[simp] theorem setSched_pins (s : State) (k : Nat) (x : SchedSlot) : (s.setSched k x).pins = s.pins := rfl
@[simp] theorem setSched_taps (s : State) (k : Nat) (x : SchedSlot) : (s.setSched k x).taps = s.taps := rfl
@[simp] theorem setSched_trstHeld (s : State) (k : Nat) (x : SchedSlot) : (s.setSched k x).trstHeld = s.trstHeld := rfl
@[simp] theorem setSched_flushes (s : State) (k : Nat) (x : SchedSlot) : (s.setSched k x).flushes = s.flushes := rfl
@[simp] theorem setSched_parts (s : State) (k : Nat) (x : SchedSlot) : (s.setSched k x).parts = s.parts := rfl
@[simp] theorem setLink_pending (s : State) (l : Nat) (x : Link) : (s.setLink l x).pending = s.pending := rfl
@[simp] theorem setLink_free (s : State) (l : Nat) (x : Link) : (s.setLink l x).free = s.free := rfl
@[simp] theorem setLink_out (s : State) (l : Nat) (x : Link) : (s.setLink l x).out = s.out := rfl
@[simp] theorem setLink_groups (s : State) (l : Nat) (x : Link) : (s.setLink l x).groups = s.groups := rfl
@[simp] theorem setLink_clusters (s : State) (l : Nat) (x : Link) : (s.setLink l x).clusters = s.clusters := rfl
@[simp] theorem setLink_kernels (s : State) (l : Nat) (x : Link) : (s.setLink l x).kernels = s.kernels := rfl
@[simp] theorem setLink_nextKernel (s : State) (l : Nat) (x : Link) : (s.setLink l x).nextKernel = s.nextKernel := rfl
@[simp] theorem setLink_tallies (s : State) (l : Nat) (x : Link) : (s.setLink l x).tallies = s.tallies := rfl
@[simp] theorem setLink_mem (s : State) (l : Nat) (x : Link) : (s.setLink l x).mem = s.mem := rfl
@[simp] theorem setLink_agents (s : State) (l : Nat) (x : Link) : (s.setLink l x).agents = s.agents := rfl
@[simp] theorem setLink_txns (s : State) (l : Nat) (x : Link) : (s.setLink l x).txns = s.txns := rfl
@[simp] theorem setLink_xlate (s : State) (l : Nat) (x : Link) : (s.setLink l x).xlate = s.xlate := rfl
@[simp] theorem setLink_dieXlate (s : State) (l : Nat) (x : Link) : (s.setLink l x).dieXlate = s.dieXlate := rfl
@[simp] theorem setLink_stalled (s : State) (l : Nat) (x : Link) : (s.setLink l x).stalled = s.stalled := rfl
@[simp] theorem setLink_pkgRequests (s : State) (l : Nat) (x : Link) : (s.setLink l x).pkgRequests = s.pkgRequests := rfl
@[simp] theorem setLink_forwards (s : State) (l : Nat) (x : Link) : (s.setLink l x).forwards = s.forwards := rfl
@[simp] theorem setLink_dieState (s : State) (l : Nat) (x : Link) : (s.setLink l x).dieState = s.dieState := rfl
@[simp] theorem setLink_counters (s : State) (l : Nat) (x : Link) : (s.setLink l x).counters = s.counters := rfl
@[simp] theorem setLink_net (s : State) (l : Nat) (x : Link) : (s.setLink l x).net = s.net := rfl
@[simp] theorem setLink_host (s : State) (l : Nat) (x : Link) : (s.setLink l x).host = s.host := rfl
@[simp] theorem setLink_power (s : State) (l : Nat) (x : Link) : (s.setLink l x).power = s.power := rfl
@[simp] theorem setLink_dict (s : State) (l : Nat) (x : Link) : (s.setLink l x).dict = s.dict := rfl
@[simp] theorem setLink_boot (s : State) (l : Nat) (x : Link) : (s.setLink l x).boot = s.boot := rfl
@[simp] theorem setLink_pins (s : State) (l : Nat) (x : Link) : (s.setLink l x).pins = s.pins := rfl
@[simp] theorem setLink_taps (s : State) (l : Nat) (x : Link) : (s.setLink l x).taps = s.taps := rfl
@[simp] theorem setLink_trstHeld (s : State) (l : Nat) (x : Link) : (s.setLink l x).trstHeld = s.trstHeld := rfl
@[simp] theorem setLink_flushes (s : State) (l : Nat) (x : Link) : (s.setLink l x).flushes = s.flushes := rfl
@[simp] theorem setLink_parts (s : State) (l : Nat) (x : Link) : (s.setLink l x).parts = s.parts := rfl
@[simp] theorem setHalf_pending (s : State) (h : Nat) (x : Half) : (s.setHalf h x).pending = s.pending := rfl
@[simp] theorem setHalf_free (s : State) (h : Nat) (x : Half) : (s.setHalf h x).free = s.free := rfl
@[simp] theorem setHalf_out (s : State) (h : Nat) (x : Half) : (s.setHalf h x).out = s.out := rfl
@[simp] theorem setHalf_groups (s : State) (h : Nat) (x : Half) : (s.setHalf h x).groups = s.groups := rfl
@[simp] theorem setHalf_clusters (s : State) (h : Nat) (x : Half) : (s.setHalf h x).clusters = s.clusters := rfl
@[simp] theorem setHalf_kernels (s : State) (h : Nat) (x : Half) : (s.setHalf h x).kernels = s.kernels := rfl
@[simp] theorem setHalf_nextKernel (s : State) (h : Nat) (x : Half) : (s.setHalf h x).nextKernel = s.nextKernel := rfl
@[simp] theorem setHalf_tallies (s : State) (h : Nat) (x : Half) : (s.setHalf h x).tallies = s.tallies := rfl
@[simp] theorem setHalf_mem (s : State) (h : Nat) (x : Half) : (s.setHalf h x).mem = s.mem := rfl
@[simp] theorem setHalf_agents (s : State) (h : Nat) (x : Half) : (s.setHalf h x).agents = s.agents := rfl
@[simp] theorem setHalf_txns (s : State) (h : Nat) (x : Half) : (s.setHalf h x).txns = s.txns := rfl
@[simp] theorem setHalf_xlate (s : State) (h : Nat) (x : Half) : (s.setHalf h x).xlate = s.xlate := rfl
@[simp] theorem setHalf_dieXlate (s : State) (h : Nat) (x : Half) : (s.setHalf h x).dieXlate = s.dieXlate := rfl
@[simp] theorem setHalf_stalled (s : State) (h : Nat) (x : Half) : (s.setHalf h x).stalled = s.stalled := rfl
@[simp] theorem setHalf_links (s : State) (h : Nat) (x : Half) : (s.setHalf h x).links = s.links := rfl
@[simp] theorem setHalf_pkgRequests (s : State) (h : Nat) (x : Half) : (s.setHalf h x).pkgRequests = s.pkgRequests := rfl
@[simp] theorem setHalf_forwards (s : State) (h : Nat) (x : Half) : (s.setHalf h x).forwards = s.forwards := rfl
@[simp] theorem setHalf_dieState (s : State) (h : Nat) (x : Half) : (s.setHalf h x).dieState = s.dieState := rfl
@[simp] theorem setHalf_counters (s : State) (h : Nat) (x : Half) : (s.setHalf h x).counters = s.counters := rfl
@[simp] theorem setHalf_net (s : State) (h : Nat) (x : Half) : (s.setHalf h x).net = s.net := rfl
@[simp] theorem setHalf_host (s : State) (h : Nat) (x : Half) : (s.setHalf h x).host = s.host := rfl
@[simp] theorem setHalf_dict (s : State) (h : Nat) (x : Half) : (s.setHalf h x).dict = s.dict := rfl
@[simp] theorem setHalf_boot (s : State) (h : Nat) (x : Half) : (s.setHalf h x).boot = s.boot := rfl
@[simp] theorem setHalf_pins (s : State) (h : Nat) (x : Half) : (s.setHalf h x).pins = s.pins := rfl
@[simp] theorem setHalf_taps (s : State) (h : Nat) (x : Half) : (s.setHalf h x).taps = s.taps := rfl
@[simp] theorem setHalf_trstHeld (s : State) (h : Nat) (x : Half) : (s.setHalf h x).trstHeld = s.trstHeld := rfl
@[simp] theorem setHalf_flushes (s : State) (h : Nat) (x : Half) : (s.setHalf h x).flushes = s.flushes := rfl
@[simp] theorem setHalf_parts (s : State) (h : Nat) (x : Half) : (s.setHalf h x).parts = s.parts := rfl
@[simp] theorem setMailbox_pending (s : State) (k : Nat) (x : Mailbox) : (s.setMailbox k x).pending = s.pending := rfl
@[simp] theorem setMailbox_free (s : State) (k : Nat) (x : Mailbox) : (s.setMailbox k x).free = s.free := rfl
@[simp] theorem setMailbox_out (s : State) (k : Nat) (x : Mailbox) : (s.setMailbox k x).out = s.out := rfl
@[simp] theorem setMailbox_groups (s : State) (k : Nat) (x : Mailbox) : (s.setMailbox k x).groups = s.groups := rfl
@[simp] theorem setMailbox_clusters (s : State) (k : Nat) (x : Mailbox) : (s.setMailbox k x).clusters = s.clusters := rfl
@[simp] theorem setMailbox_kernels (s : State) (k : Nat) (x : Mailbox) : (s.setMailbox k x).kernels = s.kernels := rfl
@[simp] theorem setMailbox_nextKernel (s : State) (k : Nat) (x : Mailbox) : (s.setMailbox k x).nextKernel = s.nextKernel := rfl
@[simp] theorem setMailbox_tallies (s : State) (k : Nat) (x : Mailbox) : (s.setMailbox k x).tallies = s.tallies := rfl
@[simp] theorem setMailbox_mem (s : State) (k : Nat) (x : Mailbox) : (s.setMailbox k x).mem = s.mem := rfl
@[simp] theorem setMailbox_agents (s : State) (k : Nat) (x : Mailbox) : (s.setMailbox k x).agents = s.agents := rfl
@[simp] theorem setMailbox_txns (s : State) (k : Nat) (x : Mailbox) : (s.setMailbox k x).txns = s.txns := rfl
@[simp] theorem setMailbox_xlate (s : State) (k : Nat) (x : Mailbox) : (s.setMailbox k x).xlate = s.xlate := rfl
@[simp] theorem setMailbox_dieXlate (s : State) (k : Nat) (x : Mailbox) : (s.setMailbox k x).dieXlate = s.dieXlate := rfl
@[simp] theorem setMailbox_stalled (s : State) (k : Nat) (x : Mailbox) : (s.setMailbox k x).stalled = s.stalled := rfl
@[simp] theorem setMailbox_links (s : State) (k : Nat) (x : Mailbox) : (s.setMailbox k x).links = s.links := rfl
@[simp] theorem setMailbox_pkgRequests (s : State) (k : Nat) (x : Mailbox) : (s.setMailbox k x).pkgRequests = s.pkgRequests := rfl
@[simp] theorem setMailbox_forwards (s : State) (k : Nat) (x : Mailbox) : (s.setMailbox k x).forwards = s.forwards := rfl
@[simp] theorem setMailbox_dieState (s : State) (k : Nat) (x : Mailbox) : (s.setMailbox k x).dieState = s.dieState := rfl
@[simp] theorem setMailbox_counters (s : State) (k : Nat) (x : Mailbox) : (s.setMailbox k x).counters = s.counters := rfl
@[simp] theorem setMailbox_net (s : State) (k : Nat) (x : Mailbox) : (s.setMailbox k x).net = s.net := rfl
@[simp] theorem setMailbox_host (s : State) (k : Nat) (x : Mailbox) : (s.setMailbox k x).host = s.host := rfl
@[simp] theorem setMailbox_power (s : State) (k : Nat) (x : Mailbox) : (s.setMailbox k x).power = s.power := rfl
@[simp] theorem setMailbox_boot (s : State) (k : Nat) (x : Mailbox) : (s.setMailbox k x).boot = s.boot := rfl
@[simp] theorem setMailbox_pins (s : State) (k : Nat) (x : Mailbox) : (s.setMailbox k x).pins = s.pins := rfl
@[simp] theorem setMailbox_taps (s : State) (k : Nat) (x : Mailbox) : (s.setMailbox k x).taps = s.taps := rfl
@[simp] theorem setMailbox_trstHeld (s : State) (k : Nat) (x : Mailbox) : (s.setMailbox k x).trstHeld = s.trstHeld := rfl
@[simp] theorem setMailbox_flushes (s : State) (k : Nat) (x : Mailbox) : (s.setMailbox k x).flushes = s.flushes := rfl
@[simp] theorem setMailbox_parts (s : State) (k : Nat) (x : Mailbox) : (s.setMailbox k x).parts = s.parts := rfl
@[simp] theorem setTxn_pending (s : State) (t : Txn) : (s.setTxn t).pending = s.pending := rfl
@[simp] theorem setTxn_free (s : State) (t : Txn) : (s.setTxn t).free = s.free := rfl
@[simp] theorem setTxn_out (s : State) (t : Txn) : (s.setTxn t).out = s.out := rfl
@[simp] theorem setTxn_groups (s : State) (t : Txn) : (s.setTxn t).groups = s.groups := rfl
@[simp] theorem setTxn_clusters (s : State) (t : Txn) : (s.setTxn t).clusters = s.clusters := rfl
@[simp] theorem setTxn_kernels (s : State) (t : Txn) : (s.setTxn t).kernels = s.kernels := rfl
@[simp] theorem setTxn_nextKernel (s : State) (t : Txn) : (s.setTxn t).nextKernel = s.nextKernel := rfl
@[simp] theorem setTxn_tallies (s : State) (t : Txn) : (s.setTxn t).tallies = s.tallies := rfl
@[simp] theorem setTxn_mem (s : State) (t : Txn) : (s.setTxn t).mem = s.mem := rfl
@[simp] theorem setTxn_agents (s : State) (t : Txn) : (s.setTxn t).agents = s.agents := rfl
@[simp] theorem setTxn_xlate (s : State) (t : Txn) : (s.setTxn t).xlate = s.xlate := rfl
@[simp] theorem setTxn_dieXlate (s : State) (t : Txn) : (s.setTxn t).dieXlate = s.dieXlate := rfl
@[simp] theorem setTxn_stalled (s : State) (t : Txn) : (s.setTxn t).stalled = s.stalled := rfl
@[simp] theorem setTxn_links (s : State) (t : Txn) : (s.setTxn t).links = s.links := rfl
@[simp] theorem setTxn_pkgRequests (s : State) (t : Txn) : (s.setTxn t).pkgRequests = s.pkgRequests := rfl
@[simp] theorem setTxn_forwards (s : State) (t : Txn) : (s.setTxn t).forwards = s.forwards := rfl
@[simp] theorem setTxn_dieState (s : State) (t : Txn) : (s.setTxn t).dieState = s.dieState := rfl
@[simp] theorem setTxn_counters (s : State) (t : Txn) : (s.setTxn t).counters = s.counters := rfl
@[simp] theorem setTxn_net (s : State) (t : Txn) : (s.setTxn t).net = s.net := rfl
@[simp] theorem setTxn_host (s : State) (t : Txn) : (s.setTxn t).host = s.host := rfl
@[simp] theorem setTxn_power (s : State) (t : Txn) : (s.setTxn t).power = s.power := rfl
@[simp] theorem setTxn_dict (s : State) (t : Txn) : (s.setTxn t).dict = s.dict := rfl
@[simp] theorem setTxn_boot (s : State) (t : Txn) : (s.setTxn t).boot = s.boot := rfl
@[simp] theorem setTxn_pins (s : State) (t : Txn) : (s.setTxn t).pins = s.pins := rfl
@[simp] theorem setTxn_taps (s : State) (t : Txn) : (s.setTxn t).taps = s.taps := rfl
@[simp] theorem setTxn_trstHeld (s : State) (t : Txn) : (s.setTxn t).trstHeld = s.trstHeld := rfl
@[simp] theorem setTxn_flushes (s : State) (t : Txn) : (s.setTxn t).flushes = s.flushes := rfl
@[simp] theorem setTxn_parts (s : State) (t : Txn) : (s.setTxn t).parts = s.parts := rfl
@[simp] theorem dropTxn_pending (s : State) (l : Nat) : (s.dropTxn l).pending = s.pending := rfl
@[simp] theorem dropTxn_free (s : State) (l : Nat) : (s.dropTxn l).free = s.free := rfl
@[simp] theorem dropTxn_out (s : State) (l : Nat) : (s.dropTxn l).out = s.out := rfl
@[simp] theorem dropTxn_groups (s : State) (l : Nat) : (s.dropTxn l).groups = s.groups := rfl
@[simp] theorem dropTxn_clusters (s : State) (l : Nat) : (s.dropTxn l).clusters = s.clusters := rfl
@[simp] theorem dropTxn_kernels (s : State) (l : Nat) : (s.dropTxn l).kernels = s.kernels := rfl
@[simp] theorem dropTxn_nextKernel (s : State) (l : Nat) : (s.dropTxn l).nextKernel = s.nextKernel := rfl
@[simp] theorem dropTxn_tallies (s : State) (l : Nat) : (s.dropTxn l).tallies = s.tallies := rfl
@[simp] theorem dropTxn_mem (s : State) (l : Nat) : (s.dropTxn l).mem = s.mem := rfl
@[simp] theorem dropTxn_agents (s : State) (l : Nat) : (s.dropTxn l).agents = s.agents := rfl
@[simp] theorem dropTxn_xlate (s : State) (l : Nat) : (s.dropTxn l).xlate = s.xlate := rfl
@[simp] theorem dropTxn_dieXlate (s : State) (l : Nat) : (s.dropTxn l).dieXlate = s.dieXlate := rfl
@[simp] theorem dropTxn_stalled (s : State) (l : Nat) : (s.dropTxn l).stalled = s.stalled := rfl
@[simp] theorem dropTxn_links (s : State) (l : Nat) : (s.dropTxn l).links = s.links := rfl
@[simp] theorem dropTxn_pkgRequests (s : State) (l : Nat) : (s.dropTxn l).pkgRequests = s.pkgRequests := rfl
@[simp] theorem dropTxn_forwards (s : State) (l : Nat) : (s.dropTxn l).forwards = s.forwards := rfl
@[simp] theorem dropTxn_dieState (s : State) (l : Nat) : (s.dropTxn l).dieState = s.dieState := rfl
@[simp] theorem dropTxn_counters (s : State) (l : Nat) : (s.dropTxn l).counters = s.counters := rfl
@[simp] theorem dropTxn_net (s : State) (l : Nat) : (s.dropTxn l).net = s.net := rfl
@[simp] theorem dropTxn_host (s : State) (l : Nat) : (s.dropTxn l).host = s.host := rfl
@[simp] theorem dropTxn_power (s : State) (l : Nat) : (s.dropTxn l).power = s.power := rfl
@[simp] theorem dropTxn_dict (s : State) (l : Nat) : (s.dropTxn l).dict = s.dict := rfl
@[simp] theorem dropTxn_boot (s : State) (l : Nat) : (s.dropTxn l).boot = s.boot := rfl
@[simp] theorem dropTxn_pins (s : State) (l : Nat) : (s.dropTxn l).pins = s.pins := rfl
@[simp] theorem dropTxn_taps (s : State) (l : Nat) : (s.dropTxn l).taps = s.taps := rfl
@[simp] theorem dropTxn_trstHeld (s : State) (l : Nat) : (s.dropTxn l).trstHeld = s.trstHeld := rfl
@[simp] theorem dropTxn_flushes (s : State) (l : Nat) : (s.dropTxn l).flushes = s.flushes := rfl
@[simp] theorem dropTxn_parts (s : State) (l : Nat) : (s.dropTxn l).parts = s.parts := rfl

end Sys2Proof.Laws
end

