-- ==== Sys2Proof/WellFormed.lean ====
section
/-! DEFINITION. Well-formed commands: the bounds the spec puts on operands that are byte strings,
link widths and access widths. Commands outside them are still executed as the spec handles them
(refused, discarded or answered with an error); the predicate names what a conforming sender sends. -/
namespace Sys2Proof

/-- An access width the register interface carries: 1, 2, 4 or 8 bytes (R457). -/
def accessWidthOk (w : BitVec 4) : Bool := w = 1 || w = 2 || w = 4 || w = 8

/-- An access width of a core: a power of two up to 64 bytes (R338). -/
def coreWidthOk (w : BitVec 7) : Bool := w = 1 || w = 2 || w = 4 || w = 8 || w = 16 || w = 32 || w = 64

/-- A lane-error list names each physical lane of its link at most once (R268, R269). -/
def laneListOk (l : List (BitVec 8 × BitVec 16)) : Bool := (l.map Prod.fst).Nodup

/-- A received NCT frame carries at most 4,096 payload bytes (R294). -/
def NctIn.ok (p : NctIn) : Bool := p.payload.length ≤ 4096

/-- The checks on a command's operands. -/
def Instr.wellFormed : Instr → Bool
  | .registerWrite _ _ w _ | .tallyAdd _ _ w _ | .invCtlRange _ w _ | .invCtlContext _ w _
  | .invCtlPartition _ w _ | .resumeRetry _ w _ | .resumeFail _ w _ | .fqLostRead _ _ _ w
  | .ncrRegisterRead _ _ w | .ncrRegisterWrite _ _ w _ | .seqGo _ _ w | .recGo w => accessWidthOk w
  | .coreAccess _ a => coreWidthOk a.width
  | .bar4Read _ _ len => 0 < len.toNat && len.toNat ≤ 4096
  | .bar4Write _ _ d => 0 < d.length && d.length ≤ 512
  | .ncrScratchpadWrite _ _ d _ => 0 < d.length && d.length ≤ 128
  | .linkLock _ es => laneListOk es
  | .linkCaps _ a b => a.windows.length ≤ 8 && b.windows.length ≤ 8
  | .nctPut _ p | .nctGet _ p | .nctGetresp _ p | .nctAtomic _ p | .nctAtomicresp _ p
  | .nctReducePut _ p | .nctTadd _ p | .nctTile _ p | .nctCredit _ p | .nctConnect _ p
  | .nctEnd _ p | .nctAbandon _ p | .nctAck _ p | .nctError _ p | .nctMgmt _ p => p.ok
  | .dictRead _ f | .dictWriteFrame _ f | .dictDescribe _ f | .dictNext _ f | .sessionOpen _ f
  | .sessionClose _ f => f.length ≤ 16 + 1024 + 24
  | .recoveryChunkResponse _ d => d.length ≤ 1024
  | .tapSamplePreload d c | .tapExtest d c | .tapExtestPulse d c | .tapExtestTrain d c =>
    c.length = if d = 0 then 860 else 812
  | _ => true

end Sys2Proof
end

