-- ==== Sys2Proof/Tests/Slice0.lean ====
section
/-! SUPPORT. Small states that meet the statements' hypotheses, and what single steps do on them. -/
namespace Sys2Proof.Tests
open Sys2Proof Sys2Proof.Machine
-- One test at a time: evaluated side by side they take more memory than the check allows.
set_option Elab.async false

/-! ### A small state: one kernel with one group on cluster 0, its code page in the micro-TLB -/

/-- A leaf with every permission, A and D set, that maps virtual to the same physical addresses (1 GiB). -/
def tLeaf : TlbEntry := { part := 0, asid := 0, vpn := 0, log2pages := 18, level := 2, pte := 0xDF }
def tHeader : ImageHeader :=
  { magic := 0, version := 1, hdrsize := 64, imgsize := 0, crc := 0, codeOff := 0x100, codeSize := 0x1000, constOff := 0, constSize := 0, manOff := 0, manSize := 0 }
def tLanding : Landing := { clusters := 1, colocate := 0, groups := 1, regs := 16, vregs := 8, accum := 2, phase0 := 0, entry := 0 }
/-- A ferry of landing 0 to itself: capacity 2, tiles of 256 bytes. -/
def tFerry : Ferry := { producer := 0, consumer := 0, capacity := 2, pattern := 0, tileSize := 1, cycleCredit := 0, netgroup := 0xFFFF, tag := 0 }
def tMan : Manifest :=
  { version := 1, l1size := 65536, tallies := 4, features := 0xFFFFFFFF, landings := [tLanding], ferries := [tFerry]
    berths := [{ size := 256, landing := 0, zero := false }], moorings := [], netgroups := [], phases := [3, 5] }
def tKernel : Kernel :=
  { part := 0, queue := 0, seq := 7, cscope := 2, irq := false, flushAddr := 0, kernelId := 9, args := 0x77, image := 0x1000, completionPa := 0x4000
    ctx := 0, flush := false, fixedPoint := none, header := tHeader, man := tMan, clusters := [[0]], berthOff := [512], ferryOff := [0]
    ferries := [(0, { slots := [.free, .free] })], tallyBase := [(0, 8)], boundGroups := [] }
/-- The group: lane 0 alone, or all 32 lanes. -/
def tGroup (lanes : W32) (regs : Sparse W32) : Group :=
  { kernel := 0, landing := 0, lcluster := 0, index := 0, regCount := 16, vregCount := 8, accumCount := 2, accumBase := 0, pc := 0x1100
    launch := lanes, active := lanes, phase := 0, regs := regs }
def tCluster : Cluster := { kernel := some 0, l1size := 65536, utlb := [tLeaf] }
/-- The whole node around the group. -/
def tState (g : Group) : State :=
  { groups := [(0, g)], clusters := [(0, tCluster)], kernels := [(0, tKernel)], nextKernel := 1
    xlate := [(0, { ctxId := [(0, 0x8000000000000000)] })], boot := { stage := 0x0A, powerOn := false } }
def tId : GroupId := { cluster := 0, sched := 0, slot := 0 }

/-- The hypotheses of a statement about an instruction that passes its checks, as a check. -/
def passes (s : State) (id : GroupId) (cls op : Nat) (w : Fields) (sig : Sig) (g : Group) (kn : Kernel) : Bool :=
  decide (s.issuable (gkey id) (w.word cls op) = some (g, kn)) && (match (s.fetchCheck (gkey id) g kn).2 with | .ok _ _ _ => true | _ => false)
    && !sig.illegal w && decide (sig.range w g = none) && decide ((s.fetchCheck (gkey id) g kn).1.mem.arrays = [])

/-- The check gives the hypotheses. -/
theorem passes_spec {s : State} {id : GroupId} {cls op : Nat} {w : Fields} {sig : Sig} {g : Group} {kn : Kernel}
    (h : passes s id cls op w sig g kn = true) : Passes s id cls op w sig g kn (s.fetchCheck (gkey id) g kn).1 := by
  simp only [passes, Bool.and_eq_true, decide_eq_true_eq, Bool.not_eq_true'] at h
  obtain ⟨⟨⟨⟨h1, h2⟩, h3⟩, h4⟩, h5⟩ := h
  refine ⟨h1, ?_, h3, h4, h5⟩
  split at h2
  · rename_i pa b x hx
    exact ⟨pa, b, x, Prod.ext rfl hx⟩
  · exact absurd h2 (by decide)

/-- The state a step answers. -/
def after (c : Instr) (s : State) : State := match exec c s with
  | .next t => t
  | _ => s
/-- Register `r` of lane 0 after a command. -/
def regAfter (c : Instr) (s : State) (r : Nat) : Option Nat := ((after c s).group? 0).map fun g => g.reg 0 r
/-- The group after a command. -/
def groupAfter (c : Instr) (s : State) : Option Group := (after c s).group? 0
/-- One lane active, some registers set. -/
def tS (regs : Sparse W32) : State := tState (tGroup 1 regs)

/-! ### Classes INT, IMD, F32, F64, CMP, CVT -/

def tRegs : Sparse W32 := [(1, 5), (2, 0xFFFFFFFE), (4, 0x3F800000), (5, 0x40000000), (6, 0), (7, 0x3FF00000), (8, 0), (9, 0x40100000)]
def wRrr (ty : BitVec 4) : Fields := { type := ty, rd := 3, rs1 := 1, low := 0x020000 }
def wOne (ty : BitVec 4) : Fields := { type := ty, rd := 3, rs1 := 1, low := 0 }
/-- Every operation of IntegerOperations meets its hypotheses: register forms, and the RI forms of INT. -/
theorem test_integer_passes :
    ((List.range 5).all fun i => passes (tS tRegs) tId 0 (i + 1) (wRrr 0) (intSig (wRrr 0) true true true true) (tGroup 1 tRegs) tKernel) = true ∧
    passes (tS tRegs) tId 0 0x06 (wOne 1) (intSig (wOne 1) true false true false) (tGroup 1 tRegs) tKernel = true ∧
    ((List.range 4).all fun i => passes (tS tRegs) tId 0 (i + 7) (wRrr 0) { intSig (wRrr 0) true true true false with rs2 := .r } (tGroup 1 tRegs) tKernel) = true ∧
    passes (tS tRegs) tId 0 0x0B { form := 1, rd := 3, low := 0xFFFFFF } (intSig { form := 1, rd := 3, low := 0xFFFFFF } true true false false) (tGroup 1 tRegs) tKernel = true ∧
    passes (tS tRegs) tId 0 0x0C { form := 1, rd := 3, low := 65535 }
      { intSig { form := 1, rd := 3, low := 65535 } false true false false with legal := (intSig { form := 1, rd := 3, low := 65535 } false true false false).legal && true }
      (tGroup 1 tRegs) tKernel = true ∧
    ((List.range 2).all fun i => passes (tS tRegs) tId 0 (i + 0x0D) (wOne 0) (intSig (wOne 0) true false true false) (tGroup 1 tRegs) tKernel) = true ∧
    ((List.range 4).all fun i => passes (tS tRegs) tId 1 (i + 1) (wRrr 0) (intSig (wRrr 0) true true true true) (tGroup 1 tRegs) tKernel) = true := by decide
/-- 5 and −2: sums, differences, bits, shifts, products, quotient and remainder by hand. -/
theorem test_integer_results :
    ([(Instr.intAdd tId (wRrr 0), 3), (.intSub tId (wRrr 0), 7), (.intAnd tId (wRrr 0), 4), (.intOr tId (wRrr 0), 0xFFFFFFFF), (.intXor tId (wRrr 0), 0xFFFFFFFB),
      (.intNot tId (wOne 0), 0xFFFFFFFA), (.intShl tId (wRrr 0), 0x40000000), (.intShr tId (wRrr 0), 0), (.intClz tId (wOne 0), 29), (.intPopc tId (wOne 0), 2),
      (.imdMul tId (wRrr 0), 0xFFFFFFF6), (.imdMulhi tId (wRrr 0), 0xFFFFFFFF), (.imdMulhi tId (wRrr 1), 4), (.imdDiv tId (wRrr 0), 0xFFFFFFFE), (.imdRem tId (wRrr 0), 1),
      (.intMov tId { form := 1, rd := 3, low := 0xFFFFFF }, 0xFFFFFFFF), (.intLih tId { form := 1, rd := 3, low := 0x1234 }, 0x12340000)].all
      fun e => regAfter e.1 (tS tRegs) 3 == some e.2) = true := by decide
/-- R65: division by zero gives all ones and the dividend; −2^31 by −1 gives −2^31 and 0. -/
theorem test_integer_division_corners :
    regAfter (.imdDiv tId (wRrr 0)) (tS [(1, 5)]) 3 = some 0xFFFFFFFF ∧ regAfter (.imdRem tId (wRrr 0)) (tS [(1, 5)]) 3 = some 5 ∧
    regAfter (.imdDiv tId (wRrr 0)) (tS [(1, 0x80000000), (2, 0xFFFFFFFF)]) 3 = some 0x80000000 ∧
    regAfter (.imdRem tId (wRrr 0)) (tS [(1, 0x80000000), (2, 0xFFFFFFFF)]) 3 = some 0 := by decide
theorem test_integer_shifts : regAfter (.intSra tId { rd := 3, rs1 := 2, low := 0x010000 }) (tS tRegs) 3 = some 0xFFFFFFFF ∧
    regAfter (.intRot tId { rd := 3, rs1 := 1, low := 0x020000 }) (tS [(1, 3), (2, 31)]) 3 = some 0x80000001 ∧
    regAfter (.intAdd tId { form := 1, rd := 3, rs1 := 1, low := 0xFFFFFF }) (tS tRegs) 3 = some 4 := by decide
/-- A destination that is also a source, and the upper register of a 64-bit sum. -/
theorem test_integer_pair : (groupAfter (.intAdd tId { type := 2, rd := 4, rs1 := 4, low := 0x040000 }) (tS [(4, 0x80000000), (5, 1)])).map (fun g => g.pair 0 4) =
    some (2 * (2 ^ 32 + 2 ^ 31)) := by decide

def wF (dbl : Bool) (two three : Bool) : Fields :=
  if dbl then { type := 5, rd := 10, rs1 := 6, low := (if two then 0x080000 else 0) ||| (if three then 0x000800 else 0) }
  else { type := 4, rd := 10, rs1 := 4, low := (if two then 0x050000 else 0) ||| (if three then 0x000500 else 0) }
theorem test_float_passes :
    ([(1, true, false), (2, true, false), (3, true, false), (4, true, true), (5, true, false), (6, true, false), (7, false, false), (8, false, false), (9, true, false),
      (10, false, false)].all fun (e : Nat × Bool × Bool) => [false, true].all fun d =>
        passes (tS tRegs) tId (if d then 3 else 2) e.1 (wF d e.2.1 e.2.2) (floatSig (wF d e.2.1 e.2.2) (if d then 5 else 4) e.2.1 e.2.2) (tGroup 1 tRegs) tKernel) = true := by
  decide
/-- 1 and 2 in fp32. -/
theorem test_float_f32 :
    ([(Instr.f32Add tId (wF false true false), 0x40400000), (.f32Sub tId (wF false true false), 0xBF800000), (.f32Mul tId (wF false true false), 0x40000000),
      (.f32Fma tId (wF false true true), 0x40800000), (.f32Min tId (wF false true false), 0x3F800000), (.f32Max tId (wF false true false), 0x40000000),
      (.f32Abs tId (wF false false false), 0x3F800000), (.f32Neg tId (wF false false false), 0xBF800000), (.f32Div tId (wF false true false), 0x3F000000),
      (.f32Sqrt tId (wF false false false), 0x3F800000)].all fun e => regAfter e.1 (tS tRegs) 10 == some e.2) = true := by decide +kernel
/-- 1 and 4 in fp64: the upper word of the result. -/
theorem test_float_f64 :
    ([(Instr.f64Add tId (wF true true false), 0x40140000), (.f64Sub tId (wF true true false), 0xC0080000), (.f64Mul tId (wF true true false), 0x40100000),
      (.f64Fma tId (wF true true true), 0x40200000), (.f64Min tId (wF true true false), 0x3FF00000), (.f64Max tId (wF true true false), 0x40100000),
      (.f64Abs tId (wF true false false), 0x3FF00000), (.f64Neg tId (wF true false false), 0xBFF00000), (.f64Div tId (wF true true false), 0x3FD00000),
      (.f64Sqrt tId (wF true false false), 0x3FF00000)].all fun e => regAfter e.1 (tS tRegs) 11 == some e.2) = true := by decide +kernel
/-- The operand classes of FloatSpecialsAndRounding: a NaN, zeros, infinities, negative and finite values, and their results (R85, R87). -/
theorem test_float_specials :
    let f := Fmt.fp32
    ((f.decode 0xFF800001).isNan = true ∧ (f.decode 0xFF800001).neg? = true ∧ f.decode 0x80000000 = .fin true 0 f.qmin ∧ f.decode 0x7F800000 = .inf false ∧
      (f.decode 0x3F800000).isNan = false ∧ f.isSubnormal 0xBF800000 = false) ∧
    f.add false 0xFF800001 0x7FC00000 = (0xFFC00000, 0) ∧ f.mul false 0 0xFF800000 = (0x7FC00000, fInvalid) ∧ f.sub false 0x7F800000 0x7F800000 = (0x7FC00000, fInvalid) ∧
    f.div false 0 0x80000000 = (0x7FC00000, fInvalid) ∧ f.sqrt false 0xBF800000 = (0x7FC00000, fInvalid) ∧ f.div false 0xBF800000 0 = (0xFF800000, fDivzero) ∧
    f.fma false 0x3F800000 0x3F800000 0xFFC00000 = (0xFFC00000, 0) ∧ f.minMax false false 0 0x80000000 = (0x80000000, 0) := by decide
theorem test_rounding : rne 5 1 = 2 ∧ rne 7 1 = 4 ∧ rne 6 1 = 3 ∧ Fmt.fp32.decode 0x3FC00000 = .fin false 12582912 (-23) ∧ Fmt.fp32.round false false 12582912 (-23) = (0x3FC00000, 0) := by decide

def wCmp (ty : BitVec 4) : Fields := { type := ty, rd := 3, rs1 := 4, low := 0x050000 }
theorem test_compare_passes :
    ((List.range 4).all fun i => passes (tS tRegs) tId 4 (i + 1) (wCmp 4) { legal := true, rd := .r, rs1 := .r, rs2 := .r } (tGroup 1 tRegs) tKernel) = true ∧
    passes (tS tRegs) tId 4 5 { type := 4, rd := 3, rs1 := 4, low := 0x050100 } { legal := true, rd := .r, rs1 := .r, rs2 := .r, rs3 := .r } (tGroup 1 tRegs) tKernel = true := by decide
theorem test_compare_results :
    ([(Instr.cmpEq tId (wCmp 4), 0), (.cmpNe tId (wCmp 4), 1), (.cmpLt tId (wCmp 4), 1), (.cmpLe tId (wCmp 4), 1), (.cmpLt tId (wRrr 0), 0), (.cmpLt tId (wRrr 1), 1),
      (.cmpSel tId { type := 4, rd := 3, rs1 := 4, low := 0x050100 }, 0x3F800000), (.cmpSel tId { type := 4, rd := 3, rs1 := 4, low := 0x050000 }, 0x40000000)].all
      fun e => regAfter e.1 (tS tRegs) 3 == some e.2) = true := by decide

def wCvt (ty : BitVec 4) (rs1 : BitVec 8) (aux : BitVec 24) : Fields := { type := ty, rd := 10, rs1 := rs1, low := aux }
theorem test_convert_passes :
    passes (tS tRegs) tId 5 1 (wCvt 0 4 4) { legal := true, rd := .r, rs1 := .r } (tGroup 1 tRegs) tKernel = true ∧ scalarType 4 = some (.float .fp32) ∧
    passes (tS tRegs) tId 5 2 (wCvt 4 4 3) { legal := true, rd := elemOpnd 3, rs1 := .r } (tGroup 1 tRegs) tKernel = true ∧ (elemType 3).isSome = true ∧
    passes (tS tRegs) tId 5 3 (wCvt 4 1 3) { legal := true, rd := .r, rs1 := elemOpnd 3 } (tGroup 1 tRegs) tKernel = true := by decide
/-- 2.0 as i32; the ends and the NaN of R88. -/
theorem test_convert_results :
    regAfter (.cvtCvt tId (wCvt 0 5 4)) (tS tRegs) 10 = some 2 ∧ numToInt true 32 (.inf true) = (0x80000000, fOverflow) ∧ numToInt true 32 (.nan false) = (0x7FFFFFFF, fInvalid) ∧
    numToInt false 8 (.fin true 1 0) = (0, fOverflow) ∧ numToInt true 8 (.fin true 5 (-1)) = (254, 0) ∧ intMin true 8 = -128 ∧ intMax false 8 = 255 := by decide

/-! ### Memory: scratchpad, L1, write buffer, atomics -/

def wMem (space : Bool) (rd rs1 : BitVec 8) (imm : BitVec 24) : Fields := { form := 1, mod := if space then 1 else 0, rd := rd, rs1 := rs1, low := imm }
/-- Scratchpad offset 0x3F8 in r1, virtual address 0x10000 in the pair r2. -/
def mRegs : Sparse W32 := [(1, 0x3F8), (2, 0x10000), (4, 0x11223344), (5, 0x55667788)]
def mS : State := tS mRegs
/-- The state a fetch of the group leaves. -/
def tFetched (s : State) (g : Group) : State := (s.fetchCheck 0 g tKernel).1
def mT : State := tFetched mS (tGroup 1 mRegs)
theorem test_scratchpad_passes :
    ([(1, Opnd.r), (2, .r), (3, .r), (4, .r), (5, .r), (6, .p), (9, .r), (0xA, .r), (0xB, .r), (0xC, .p)].all fun (e : Nat × Opnd) =>
      passes mS tId 6 e.1 (wMem true 4 1 0) (memSig (wMem true 4 1 0) e.2) (tGroup 1 mRegs) tKernel) = true ∧
    mT.fenced 0 0 true false = false ∧ mT.fenced 0 0 false true = false ∧ (tGroup 1 mRegs).lanes = [0] ∧ (tGroup 1 mRegs).memOff (wMem true 4 1 0) 0 = 0x3F8 ∧
    mT.spadTargets 0 (0x3F8 / 256) = [0] ∧ mT.group? 0 = some (tGroup 1 mRegs) ∧ 0x3F8 + 8 ≤ 524288 - (mT.cluster 0).l1size := by decide
/-- A store of eight bytes, little-endian (R66), and its neighbour byte. -/
theorem test_scratchpad_store :
    let u := after (.memSt64 tId (wMem true 4 1 0)) mS
    readBytes (u.cluster 0).spad 0x3F8 9 = [0x44, 0x33, 0x22, 0x11, 0x88, 0x77, 0x66, 0x55, 0] ∧
    regAfter (.memLd8 tId (wMem true 3 1 4)) { u with groups := mS.groups } 3 = some 0xFFFFFF88 ∧ regAfter (.memLd8u tId (wMem true 3 1 4)) { u with groups := mS.groups } 3 = some 0x88 ∧
    regAfter (.memLd16 tId (wMem true 3 1 4)) { u with groups := mS.groups } 3 = some 0x7788 ∧ regAfter (.memLd32 tId (wMem true 3 1 0)) { u with groups := mS.groups } 3 = some 0x11223344 ∧
    regAfter (.memLd64 tId (wMem true 6 1 0)) { u with groups := mS.groups } 7 = some 0x55667788 := by decide

/-- The cluster holds line 10000h in its L1: byte i of the line reads i. -/
def hitLine : L1Line := { line := 0x10000, data := { data := BitVec.ofNat 1024 (fromLE ((List.range 128).map fun i => BitVec.ofNat 8 i)) } }
def hitS : State := mS.setCluster 0 { tCluster with l1 := [hitLine] }
def hitT : State := tFetched hitS (tGroup 1 mRegs)
/-- The translated accesses of the group's lanes. -/
def xlOf (s : State) (w : Fields) (acc : AccessKind) : State × List LaneXl :=
  match s.translateLanes 0 (tGroup 1 mRegs) tKernel w acc with
  | (v, .ok xs) => (v, xs)
  | (v, _) => (v, [])
theorem test_l1_hit_hypotheses :
    let r := xlOf hitT (wMem false 3 2 4) 0
    passes hitS tId 6 5 (wMem false 3 2 4) (memSig (wMem false 3 2 4) .r) (tGroup 1 mRegs) tKernel = true ∧ r.2.map (·.acc.pa) = [0x10004] ∧
    (r.2.all fun x => !x.uncached && !isRegs x.acc.pa && !isRegs (lineOf x.acc.pa)) = true ∧ (r.1.cluster 0).l1At 0x10004 = some hitLine.data ∧
    hitLine.data.poison.toNat.testBit (0x10004 % 128 / 32) = false ∧ (tGroup 1 mRegs).memAddr (wMem false 3 2 4) 0 % 4 = 0 := by decide +kernel
theorem test_l1_fits : (hitT.cluster 0).l1Fits := by
  refine ⟨by decide, fun n => ?_⟩
  exact Nat.le_trans (List.length_filter_le _ _) (by decide)
theorem test_l1_hit : regAfter (.memLd32 tId (wMem false 3 2 4)) hitS 3 = some 0x07060504 ∧ regAfter (.memLd8u tId (wMem false 3 2 127)) hitS 3 = some 127 := by decide +kernel
/-- A line nobody holds: the load blocks with one entry, and L1_FILL ends it. -/
theorem test_l1_miss_hypotheses :
    let r := xlOf mT (wMem false 3 2 4) 0
    let c := r.1.cluster 0
    r.2.map (·.acc.pa) = [0x10004] ∧ (r.2.all fun x => !x.uncached && decide (lineOf x.acc.pa = 0x10000)) = true ∧ window 0x10000 = .hbm 0 0x10000 ∧
    c.l1size ≠ 0 ∧ c.fills = [] ∧ c.wb = [] ∧ c.l1 = [] ∧ c.pf = [] := by decide
theorem test_l1_miss_and_fill :
    let u := after (.memLd32 tId (wMem false 3 2 4)) mS
    let v := after (.l1Fill 0 0x10000) u
    (u.cluster 0).fills.map (·.line) = [0x10000] ∧ (u.group? 0).map (fun g => g.wait == .ready) = some false ∧
    ((u.takeLine 0 0x10000 0 (some (0, 0)) false none true).2 matches .data _ _ _) = true ∧ u.clusterGroups 0 = [(0, (u.group? 0).getD (tGroup 1 []))] ∧
    (v.cluster 0).fills = [] ∧ (v.cluster 0).l1.map (·.line) = [0x10000] ∧ (v.group? 0).map (fun g => (g.reg 0 3, g.pc, g.wait == .ready)) = some (0, 0x1108, true) := by decide +kernel

theorem test_store_hypotheses :
    let r := xlOf mT (wMem false 4 2 0) 1
    ([(9, Opnd.r), (0xA, .r), (0xB, .r), (0xC, .p)].all fun (e : Nat × Opnd) =>
      passes mS tId 6 e.1 (wMem false 4 2 0) (memSig (wMem false 4 2 0) e.2) (tGroup 1 mRegs) tKernel) = true ∧
    r.2.map (·.acc.pa) = [0x10000] ∧ (r.2.all fun y => !(r.1.cluster 0).inFlight (lineOf y.acc.pa)) = true ∧ (r.1.cluster 0).wb.length + r.2.length ≤ 16 := by decide
theorem test_store_enters_the_buffer :
    let u := after (.memSt16 tId (wMem false 4 2 2)) mS
    (u.cluster 0).buffered 0x10002 = some 0x44 ∧ (u.cluster 0).buffered 0x10003 = some 0x33 ∧ (u.cluster 0).buffered 0x10004 = none ∧ u.mem.cells = [] := by decide
/-- PF of a line nobody holds, and of one the L1 holds; PF of an address with no mapping. -/
theorem test_prefetch :
    let w := wMem false 0 2 0
    let sig : Sig := { memSig w .zero with legal := (memSig w .zero).legal && !w.space }
    passes mS tId 6 0x10 w sig (tGroup 1 mRegs) tKernel = true ∧ ((after (.memPf tId w) mS).cluster 0).pf.map (·.line) = [0x10000] ∧
    ((after (.memPf tId w) hitS).cluster 0).pf = [] ∧ (groupAfter (.memPf tId w) mS).map (·.pc) = some 0x1108 ∧
    ((hitT.cluster 0).l1.any fun y => y.line = lineOf 0x10000) = true ∧
    (groupAfter (.memPf tId (wMem false 0 4 0)) mS).map (·.pc) = some 0x1108 ∧ (after (.memPf tId (wMem false 0 4 0)) mS).counter 0xA068 3 = 1 := by decide
theorem test_prefetch_no_lane : (tGroup 0 mRegs).lanes = [] ∧
    (groupAfter (.memPf tId (wMem false 0 2 0)) (tState { tGroup 1 mRegs with active := 0 })).map (·.pc) = some 0x1108 := by decide

def wAtom (order : BitVec 2) (ty : BitVec 4) : Fields := { type := ty, form := 1, mod := if order = 0 then 0 else 2, rd := 4, rs1 := 2, low := 0 }
theorem test_atomic_hypotheses :
    let w := wAtom 3 5
    let x := xlOf mT w 2
    ((List.range 8).all fun op => passes mS tId 6 (atomicCode 3 true op) w (atomicSig w 3 op) (tGroup 1 mRegs) tKernel) = true ∧
    ((List.range 8).all fun op => adderAllows op 5) = true ∧ x.2.map (·.acc.pa) = [0x10000] ∧ atomicTarget 0x10000 = none ∧ x.1.keyAddr 0x10000 = some 0x10000 ∧
    window 0x10000 = .hbm 0 0x10000 ∧ (x.1.drainGroup 0).isSome = true ∧ x.1.fenced 0 0 true true = false ∧ x.1.releaseHeldBack 0 (tGroup 1 mRegs) 1 = false ∧ (x.1.cluster 0).wb = [] := by decide
/-- Memory holds 3; the operand is 11223344h. -/
theorem test_atomic_results :
    let s := { mS with mem := { mS.mem with cells := [(0x10000, 3)] } }
    ([(Instr.atomAdd tId (wAtom 0 5) 0 true, 0x11223347), (.atomMin tId (wAtom 0 5) 0 true, 3), (.atomMax tId (wAtom 0 5) 0 true, 0x11223344), (.atomAnd tId (wAtom 0 5) 0 true, 0),
      (.atomOr tId (wAtom 0 5) 0 true, 0x11223347), (.atomXor tId (wAtom 0 5) 0 true, 0x11223347), (.atomSwap tId (wAtom 0 5) 0 true, 0x11223344),
      (.atomCas tId (wAtom 0 5) 0 true, 3)].all fun e => regAfter e.1 s 4 == some 3 && fromLE (readBytes (after e.1 s).mem.cells 0x10000 4) == e.2) = true := by decide
theorem test_adder_integers : adderStep 1 4 (2 ^ 64 - 1) 1 0 = (2 ^ 64 - 1, 0) ∧ adderStep 1 6 (2 ^ 64 - 1) 1 0 = (1, 0) ∧ adderStep 0 5 (2 ^ 32 - 1) 1 0 = (0, 0) ∧
    adderStep 7 5 3 9 3 = (9, 0) ∧ adderStep 7 5 3 9 4 = (3, 0) := by decide

def pfS : State := mS.setCluster 0 { tCluster with pf := [{ line := 0x10000 }] }
def wbEntry : WbEntry := { sector := 0xC00000000000 / 32, mask := BitVec.allOnes 32, data := 7, owners := [] }
def wbS : State := { mS.setCluster 0 { tCluster with wb := [wbEntry] } with host := { mS.host with ports := [(0, { link := 2, released := true })] } }
theorem test_cluster_events :
    ((pfS.cluster 0).pf.find? fun f => f.line = 0x10000 && f.data.isNone).map (·.keep) = some true ∧ pfS.lineWaiters 0 0x10000 = [] ∧
    ((after (.prefetchFill 0 0x10000) pfS).cluster 0).pf.map (fun e => (e.line, e.data.isSome)) = [(0x10000, true)] ∧
    window (32 * wbEntry.sector) = .host 0 0 ∧ (after (.writeBufferAge 0) wbS).out = [.hostWrite 0 0 0 (toLE 32 7) false] ∧ ((after (.writeBufferAge 0) wbS).cluster 0).wb = [] ∧
    (mS.cluster 0).wb = [] ∧ ((after (.streamTrackerExpiry 0 0) (mS.setAgent 0 { trackers := [some { cluster := 0, next := 0, count := 1 }] })).agent 0).trackers = [none] := by decide

/-! ### Control flow, masks, faults, special registers, ferries -/

def cRegs : Sparse W32 := [(1, 1), (257, 0), (2, 0x1200), (258, 0x1200), (4, 7), (260, 9)]
/-- Lanes 0 and 1; r1 is 1 and 0. -/
def cG : Group := tGroup 3 cRegs
def cS : State := tState cG
def wI (rd rs1 : BitVec 8) (imm : BitVec 24) : Fields := { form := 1, rd := rd, rs1 := rs1, low := imm }
def wR (rd rs1 : BitVec 8) (low : BitVec 24) : Fields := { rd := rd, rs1 := rs1, low := low }
/-- The lane operations take TYPE 1. -/
def wL (rd rs1 : BitVec 8) (low : BitVec 24) : Fields := { type := 1, rd := rd, rs1 := rs1, low := low }
def pcAfter (c : Instr) (s : State) : Option W64 := (groupAfter c s).map (·.pc)
theorem test_branch_passes :
    (passes cS tId 7 1 (wI 0 0 2) (ctlSig (wI 0 0 2) true .zero .zero false) cG tKernel && passes cS tId 7 2 (wI 0 0 2) (ctlSig (wI 0 0 2) true .zero .zero false) cG tKernel &&
      passes cS tId 7 3 (wI 0 1 2) (ctlSig (wI 0 1 2) true .zero .r false) cG tKernel && passes cS tId 7 4 (wI 0 1 2) (ctlSig (wI 0 1 2) true .zero .r false) cG tKernel &&
      passes cS tId 7 5 (wR 0 2 0) (ctlSig (wR 0 2 0) false .zero .p false) cG tKernel && passes cS tId 7 6 (wI 4 0 2) (ctlSig (wI 4 0 2) true .p .zero false) cG tKernel &&
      passes cS tId 7 9 (wR 0 0 0) (ctlSig (wR 0 0 0) false .zero .zero false) cG tKernel) = true := by decide
theorem test_branch_results :
    pcAfter (.ctlBr tId (wI 0 0 0xFFFFFF)) cS = some 0x10F8 ∧ pcAfter (.ctlBrmz tId (wI 0 0 2)) cS = some 0x1108 ∧
    pcAfter (.ctlBrmz tId (wI 0 0 2)) (tState { cG with active := 0 }) = some 0x1110 ∧ pcAfter (.ctlBrany tId (wI 0 1 2)) cS = some 0x1110 ∧
    pcAfter (.ctlBrall tId (wI 0 1 2)) cS = some 0x1108 ∧ pcAfter (.ctlBrall tId (wI 0 1 2)) (tState { cG with active := 1 }) = some 0x1110 ∧
    pcAfter (.ctlBri tId (wR 0 2 0)) cS = some 0x1200 ∧ pcAfter (.ctlCall tId (wI 4 0 2)) cS = some 0x1110 ∧ regAfter (.ctlCall tId (wI 4 0 2)) cS 4 = some 0x1108 ∧
    pcAfter (.ctlNop tId (wR 0 0 0)) cS = some 0x1108 := by decide
/-- BRI with disagreeing lanes faults with DIVERGENT_TARGET, and with none active it is not taken. -/
theorem test_branch_divergent : (after (.ctlBri tId (wR 0 4 0)) cS).kernels.map (fun e => e.2.reason) = [0x109] ∧
    pcAfter (.ctlBri tId (wR 0 4 0)) (tState { cG with active := 0 }) = some 0x1108 ∧ cG.pair 0 4 ≠ cG.pair 1 4 ∧ cG.pair 0 2 = 0x1200 ∧ cG.pair 1 2 = 0x1200 := by decide
/-- The worked example of R75: RS1 is 1 in lanes 0 to 9. -/
def mG : Group := tGroup 0xFFFFFFFF ((List.range 10).map fun l => (256 * l + 1, 1))
theorem test_mask_example :
    let a := after (.ctlMif tId (wR 0 1 0)) (tState mG)
    let b := after (.ctlMelse tId (wR 0 0 0)) a
    let c := after (.ctlMend tId (wR 0 0 0)) b
    (a.group? 0).map (fun g => (g.active, g.stack)) = some (0x3FF, [(0xFFFFFFFF, 0xFFFFFC00)]) ∧
    (b.group? 0).map (fun g => (g.active, g.stack)) = some (0xFFFFFC00, [(0xFFFFFFFF, 0)]) ∧ (c.group? 0).map (fun g => (g.active, g.stack)) = some (0xFFFFFFFF, []) := by decide
theorem test_mask_passes :
    (passes cS tId 7 0x10 (wR 0 1 0) (ctlSig (wR 0 1 0) false .zero .r false) cG tKernel && passes cS tId 7 0x11 (wR 0 0 0) (ctlSig (wR 0 0 0) false .zero .zero false) cG tKernel &&
      passes cS tId 7 0x14 (wR 0 1 1) (ctlSig (wR 0 1 1) false .zero .r true) cG tKernel && passes cS tId 8 2 (wL 3 1 0x040000) (laneSig (wL 3 1 0x040000) .r) cG tKernel &&
      passes cS tId 8 3 (wL 3 1 0) (laneSig (wL 3 1 0) .zero) cG tKernel) = true ∧
    ((List.range 32).all fun l => (1 : W32).getLsbD l == (cG.active.getLsbD l && decide (cG.reg l 1 ≠ 0))) = true := by decide
theorem test_mask_stack_corners :
    let deep := tState { cG with stack := List.replicate 16 (3, 0) }
    let two := tState { cG with stack := [(3, 2), (3, 0)] }
    (after (.ctlMif tId (wR 0 1 0)) deep).kernels.map (fun e => e.2.reason) = [0x10A] ∧ (after (.ctlMloop tId (wR 0 0 0)) deep).kernels.map (fun e => e.2.reason) = [0x10A] ∧
    (after (.ctlMelse tId (wR 0 0 0)) cS).kernels.map (fun e => e.2.reason) = [0x10B] ∧ (after (.ctlMend tId (wR 0 0 0)) cS).kernels.map (fun e => e.2.reason) = [0x10B] ∧
    (groupAfter (.ctlMloop tId (wR 0 0 0)) cS).map (fun g => (g.active, g.stack)) = some (3, [(3, 0)]) ∧
    (groupAfter (.ctlMbrk tId (wR 0 1 1)) two).map (fun g => (g.active, g.stack)) = some (2, [(2, 2), (3, 0)]) ∧
    (after (.ctlMbrk tId (wR 0 1 2)) two).kernels.map (fun e => e.2.reason) = [0x10B] := by decide
theorem test_lane_operations :
    regAfter (.spcShfl tId (wL 3 4 0x010000)) cS 3 = some 9 ∧ regAfter (.spcVoteany tId (wL 3 1 0)) cS 3 = some 1 ∧ regAfter (.spcVoteall tId (wL 3 1 0)) cS 3 = some 0 ∧
    regAfter (.spcVoteall tId (wL 3 4 0)) cS 3 = some 1 ∧ regAfter (.spcBallot tId (wL 3 4 0)) cS 3 = some 3 := by decide
theorem test_exit_and_trap :
    passes cS tId 7 7 (wR 0 0 0) (ctlSig (wR 0 0 0) false .zero .zero false) cG tKernel = true ∧ passes cS tId 7 8 (wI 0 0 5) (ctlSig (wI 0 0 5) true .zero .zero false) cG tKernel = true ∧
    (groupAfter (.ctlExit tId (wR 0 0 0)) (tState { cG with active := 1, stack := [(3, 1)] })).map (fun g => (g.launch, g.active, g.stack, g.pc)) = some (2, 0, [(2, 0)], 0x1108) ∧
    (after (.ctlTrap tId (wI 0 0 5)) cS).kernels.map (fun e => e.2.reason) = [0x10F] := by decide
/-- A fault with the fault queue not enabled is counted in FQ_LOST of its class, halts the group and discards the queues. -/
theorem test_taking_a_fault :
    let u := cS.takeFault 0 cG 0 { code := 0x10F, arg0 := 5 }
    cS.kernel? 0 = some tKernel ∧ tKernel.phase = .running ∧ (cS.xl 0).enable = false ∧ (u.group? 0).map (·.halted) = some true ∧
    (u.kernel? 0).map (fun k => (k.phase == .aborted, k.reason)) = some (true, 0x10F) ∧ sgetD (u.xl 0).fqLost 0 0 = 1 ∧ u.mem.cells = [] := by decide
theorem test_instruction_checks :
    let out := tState { cG with pc := 0x2100 }
    let odd := wRrr 2
    (after (.intAdd tId (wRrr 0)) out).kernels.map (fun e => e.2.reason) = [0x101] ∧ (after (.intAdd tId { wRrr 0 with mod := 1 }) cS).kernels.map (fun e => e.2.reason) = [0x102] ∧
    (intSig { wRrr 0 with mod := 1 } true true true true).illegal { wRrr 0 with mod := 1 } = true ∧
    (after (.intAdd tId { wRrr 0 with rd := 16 }) cS).kernels.map (fun e => e.2.reason) = [0x104] ∧ (after (.intAdd tId odd) cS).kernels.map (fun e => e.2.reason) = [0x105] ∧
    (after (.vxAdd tId (wR 8 0 0)) (tState (tGroup 3 []))).kernels.map (fun e => e.2.reason) = [0x106] ∧
    (after (.mxMma tId { wR 0 2 0x040000 with form := 0, low := 0x040003 }) cS).kernels.map (fun e => e.2.reason) = [0x107] ∧
    (after (.fyResv tId (wR 4 0 0)) (tState { cG with active := 1 })).kernels.map (fun e => e.2.reason) = [0x108] ∧
    cS.issuable 0 ((wRrr 0).word 0 1) = some (cG, tKernel) ∧ cS.issuable 1 ((wRrr 0).word 0 1) = none := by decide
theorem test_fetch_hit : ((cS.cluster 0).utlb.any fun e => e.host.isNone && e.covers 0 (cS.ctxAsid 0 0) (0x1100 / 4096 % 2 ^ 45)) = true := by decide
def rdsr (code : BitVec 24) : Fields := { form := 1, rd := 4, low := code }
theorem test_special_registers :
    ([(0x000, 0), (0x001, 0), (0x002, 0), (0x003, 0), (0x004, 0), (0x005, 1), (0x006, 0), (0x007, 9), (0x008, 0x77), (0x009, 8), (0x00A, 3), (0x00B, 3), (0x00C, 0), (0x00D, 0),
      (0x00F, 0), (0x100, 512)].all fun (e : BitVec 24 × Nat) => regAfter (.spcRdsr tId (rdsr e.1)) cS 4 == some e.2) = true ∧
    ([0x010, 0x0FF, 0x101, 0x200, 0xFFF].all fun (c : BitVec 24) => (after (.spcRdsr tId (rdsr c)) cS).kernels.map (fun e => e.2.reason) == [0x10E]) = true ∧
    (after (.spcRdsr tId (rdsr 0x00E)) cS).free = 1 ∧
    passes cS tId 8 1 (rdsr 0x00E) { ctlSig (rdsr 0x00E) true .p .zero false with legal := (ctlSig (rdsr 0x00E) true .p .zero false).legal && true } cG tKernel = true := by decide
theorem test_phase :
    (groupAfter (.spcPhase tId (wI 0 0 1)) cS).map (fun g => (g.phase, g.pc)) = some (1, 0x1108) ∧ (after (.spcPhase tId (wI 0 0 2)) cS).kernels.map (fun e => e.2.reason) = [0x110] ∧
    passes cS tId 8 0x10 (wI 0 0 1) { ctlSig (wI 0 0 1) true .zero .zero false with legal := (ctlSig (wI 0 0 1) true .zero .zero false).legal && true } cG tKernel = true := by decide

/-! ### Ferries: a queue of two slots from landing 0 to itself -/

def fS (slots : List SlotState) (fifo : List W64) : State :=
  { cS with kernels := [(0, { tKernel with ferries := [(0, { slots := slots, fifo := fifo })] })] }
def fK (slots : List SlotState) (fifo : List W64) : Kernel := { tKernel with ferries := [(0, { slots := slots, fifo := fifo })] }
/-- The pair r8 holds the handle of slot 1: format bf16 (3), unit 1. -/
def fHandle (n : Nat) : BitVec 64 := BitVec.ofNat 64 (setField (setField n 0 11 1) 11 0 0)
theorem test_ferry_reserve :
    passes cS tId 11 1 (wR 4 0 0) (fySig (wR 4 0 0) .p .zero) cG tKernel = true ∧ fyFeature (wR 4 0 0) tKernel = none ∧ tKernel.ferryFor 0 0 true = some tFerry ∧ tFerry.isOut = false ∧
    tKernel.producerQueues tFerry 0 = [0] ∧ tKernel.freePositions 0 tFerry [0] = [0, 1] ∧ ((tKernel.fq 0 0).gone || cS.consumersGone 0 tKernel tFerry 0) = false ∧
    (groupAfter (.fyResv tId (wR 4 0 0)) (fS [.committed, .committed] [])).map (·.wait) = some (.stall ((wR 4 0 0).word 11 1)) ∧
    (after (.fyResv tId (wR 4 0 0)) (fS [.committed, .free] [])).kernels.map (fun e => (e.2.fq 0 0).slots) = [[.committed, .reserved 0]] ∧
    (after (.fyResv tId (wR 4 0 0)) (tState { cG with closed := [ferryKey 0 0] })).kernels.map (fun e => e.2.reason) = [0x204] := by decide
/-- FYPUSH, FYPOP, FYFREE and FYCLOSE, with slot 1 of the queue. -/
def fG : Group := tGroup 3 [(8, 1), (264, 1)]
def fSt (slots : List SlotState) (fifo : List W64) : State := { fS slots fifo with groups := [(0, fG)] }
theorem test_ferry_transfer_hypotheses :
    (passes cS tId 11 2 (wR 0 8 0) (fySig (wR 0 8 0) .zero .p) cG tKernel && passes cS tId 11 3 (wR 4 0 0) (fySig (wR 4 0 0) .p .zero) cG tKernel &&
      passes cS tId 11 4 (wR 0 8 0) (fySig (wR 0 8 0) .zero .p) cG tKernel && passes cS tId 11 5 (wR 0 0 0) (fySig (wR 0 0 0) .zero .zero) cG tKernel) = true ∧
    tKernel.ferryFor 0 0 false = some tFerry ∧ tFerry.isIn = false ∧ fG.pair fG.lead 8 = 1 ∧ hTop 1 = 0 ∧ tKernel.slotIndex 0 tFerry 1 = some 1 ∧ hFormat 1 = 0 ∧
    hExtent 1 .whole ≤ 256 * tFerry.tileSize ∧ (fSt [.free, .reserved 0] []).earlierWork 0 0 = false ∧ (fSt [] []).mxReader 0 1 = none ∧
    (fSt [.free, .free] []).queueClosed 0 (fK [.free, .free] []) 0 tFerry 0 = false ∧
    (fK [.free, .free] []).man.ferries[0]? = some tFerry ∧
    State.queueClosed { fSt [.free, .free] [] with kernels := [(0, { tKernel with ferries := [(0, { slots := [.free, .free], closedBy := [0] })] })] } 0
      { tKernel with ferries := [(0, { slots := [.free, .free], closedBy := [0] })] } 0 tFerry 0 = true := by decide
theorem test_ferry_transfer :
    let q := fun (s : State) => (s.kernels.map fun e => ((e.2.fq 0 0).slots, (e.2.fq 0 0).fifo))
    q (after (.fyPush tId (wR 0 8 0)) (fSt [.free, .reserved 0] [])) = [([.free, .committed], [1])] ∧
    q (after (.fyPop tId (wR 4 0 0)) (fSt [.committed, .committed] [1, 0])) = [([.committed, .held 0], [0])] ∧
    regAfter (.fyPop tId (wR 4 0 0)) (fSt [.free, .committed] [1]) 4 = some 1 ∧
    (groupAfter (.fyPop tId (wR 4 0 0)) (fSt [.free, .free] [])).map (·.wait) = some (.stall ((wR 4 0 0).word 11 3)) ∧
    q (after (.fyFree tId (wR 0 8 0)) (fSt [.free, .held 0] [])) = [([.free, .free], [])] ∧
    (groupAfter (.fyClose tId (wR 0 0 0)) (fSt [.free, .free] [])).map (·.closed) = some [0] := by decide
/-- The worked value of END (R32) from a queue its only producer has closed. -/
theorem test_ferry_end :
    let s : State := { fSt [.free, .free] [] with kernels := [(0, { tKernel with ferries := [(0, { slots := [.free, .free], closedBy := [0] })] })] }
    regAfter (.fyPop tId (wR 4 0 0)) s 4 = some 0xFFFFFFFF ∧ regAfter (.fyPop tId (wR 4 0 0)) s 5 = some 0xFFFFFFFF := by decide
/-- An IN end: a group of its landing stalled in FYPOP before any OUT end has joined. -/
def inFerry : Ferry := { tFerry with producer := 0xFE, netgroup := 0, tag := 0x33 }
def inKernel (m : Bool) : Kernel :=
  { tKernel with man := { tMan with ferries := [inFerry], netgroups := [5] }, ferries := [(0, { slots := [.free, .free], matched := m })] }
def inS (m : Bool) : State := { cS with kernels := [(0, inKernel m)], groups := [(0, { cG with wait := .stall ((wR 4 0 0).word 11 3) })] }
theorem test_in_end_timeout :
    (inS false).kernelGroups 0 = [(0, { cG with wait := .stall ((wR 4 0 0).word 11 3) })] ∧ (inKernel false).man.ferries[0]? = some inFerry ∧ inFerry.isIn = true ∧
    field ((wR 4 0 0).word 11 3).toNat 60 4 = 11 ∧ field ((wR 4 0 0).word 11 3).toNat 52 8 = 3 ∧ field ((wR 4 0 0).word 11 3).toNat 0 8 = 0 ∧
    (after (.inEndTimeout 0 0) (inS false)).kernels.map (fun e => e.2.reason) = [0x606] ∧ (after (.inEndTimeout 0 0) (inS true)).kernels.map (fun e => e.2.reason) = [0] ∧
    (after (.inEndTimeout 0 0) cS).kernels.map (fun e => e.2.reason) = [0] := by decide

/-! ### Matrix engine: A 32 × 8, B 8 × 64 and D 32 × 64 in fp64 -/

def hOf (unit fmt rows cols : Nat) : Nat := unit + fmt * 2 ^ 11 + (rows - 1) * 2 ^ 15 + (cols - 1) * 2 ^ 23
def pairAt (r v : Nat) : Sparse W32 := [(r, BitVec.ofNat 32 v), (r + 1, BitVec.ofNat 32 (v / 2 ^ 32))]
def xG : Group := tGroup 1 (pairAt 2 (hOf 0 0 32 8) ++ pairAt 4 (hOf 16 0 8 64) ++ pairAt 6 (hOf 64 0 32 64))
def xS : State := tState xG
def xOpen : State := xS.setCluster 0 { tCluster with tiles := [(0, { openBy := some (0, .fp64), kind := .fp64 })] }
def wMma : Fields := { rd := 0, rs1 := 2, low := 0x040010 }
def wDrain : Fields := { rd := 0, rs1 := 0, low := 0x060000 }
theorem test_matrix_issue_hypotheses :
    passes xS tId 9 1 wMma (mxSig wMma true false true) xG tKernel = true ∧ wMma.aux % 16 < xG.accumCount ∧ wMma.aux.testBit 5 = false ∧
    xS.mmaChecks 0 0 0 0 0 (xG.pair 0 2) (xG.pair 0 4) 0 true = none ∧ hScaleKind (xG.pair 0 2) = 0 ∧
    passes xS tId 9 3 wDrain (mxSig wDrain false false true) xG tKernel = true ∧ hTop (xG.pair 0 6) = 0 ∧ hFormat (xG.pair 0 6) = 0 ∧ rectBad (xG.pair 0 6) 0 32 = false ∧
    xS.tileOpen 0 0 = none ∧ scratchFault (xG.pair 0 6) (hExtent (xG.pair 0 6) .plain) (xS.cluster 0).spadSize = none ∧
    passes xOpen tId 9 2 wDrain (mxSig wDrain false false true) xG tKernel = true ∧ xOpen.tileOpen 0 0 = some (0, .fp64) ∧ field wDrain.aux 4 3 = 0 ∧
    xOpen.kernel? 0 = some tKernel := by decide
theorem test_matrix_issue :
    let u := after (.mxMma tId wMma) xS
    (u.cluster 0).mxq.length = 1 ∧ (u.tile 0 0).openBy = some (0, .fp64) ∧ (u.group? 0).map (·.pc) = some 0x1108 ∧
    ((after (.mxDrain tId wDrain) xOpen).tile 0 0).openBy = none ∧ ((after (.mxLdacc tId wDrain) xS).tile 0 0).openBy = some (0, .fp64) ∧
    (after (.mxMma tId wMma) (u.setCluster 0 { u.cluster 0 with mxq := List.replicate 4 ((u.cluster 0).mxq.headD { group := 0, no := 0, op := .ldacc 0 0 0, word := 0, pc := 0 }) })).groups = u.groups := by decide
/-- One chunk of four fp64 products: (1, 1, 1, 1) · (1, 0, 0, 1) added to 1 is 3 (R98). -/
theorem test_matrix_chunk :
    let one := toLE 8 0x3FF0000000000000
    let c : Cluster := { tCluster with spad := writeBytes (writeBytes (writeBytes [] 0 (one ++ one ++ one ++ one)) 4096 one) (4096 + 3 * 512) one }
    c.chunk false 0 (hOf 0 0 32 8) (hOf 16 0 8 64) 0 0 0 0x3FF0000000000000 = (0x4008000000000000, 0) ∧ mxM 0 = 32 ∧ chunkSize 0 = 4 := by decide +kernel
/-- Integer chunks saturate at the ends of i32 with OVERFLOW. -/
theorem test_matrix_integer_chunk :
    let c : Cluster := { tCluster with spad := writeBytes (writeBytes [] 0 [100]) 4096 [100] }
    c.chunk false 10 (hOf 0 10 64 64) (hOf 16 10 64 64) 0 0 0 5 = (10005, 0) ∧ c.chunk false 10 (hOf 0 10 64 64) (hOf 16 10 64 64) 0 0 0 (2 ^ 31 - 9) = (2 ^ 31 - 1, fOverflow) := by decide
def ldEntry : MxEntry := { group := 0, no := 0, op := .ldacc (BitVec.ofNat 64 (hOf 0 0 32 64)) 0 0, word := 0, pc := 0 }
def drEntry : MxEntry := { group := 0, no := 0, op := .drain (BitVec.ofNat 64 (hOf 64 0 32 64)) 0 0 none 0, word := 0, pc := 0 }
def mmEntry : MxEntry := { group := 0, no := 0, op := .mma 0 (BitVec.ofNat 64 (hOf 0 0 32 8)) (BitVec.ofNat 64 (hOf 16 0 8 64)) 0 true true 0, word := 0, pc := 0 }
theorem test_matrix_engine_hypotheses :
    let s := xS.setCluster 0 { tCluster with mxq := [mmEntry] }
    (s.cluster 0).mxq = [mmEntry] ∧ (s.tile 0 0).draining = false ∧ s.fenced 0 0 true false = false ∧ s.fenced 0 0 true true = false ∧ (s.cluster 0).slip.length < 8 ∧
    (xS.cluster 0).mxq = [] ∧ (xS.cluster 0).slip = [] ∧ after (.matrixEngineStart 0) xS = xS.settleEnds 0 := by decide
theorem test_matrix_engine_drain :
    let s := xS.setCluster 0 { tCluster with mxq := [drEntry], tiles := [(0, { kind := .fp32, vals := [(0, 0x3F800000)] })] }
    let u := after (.matrixEngineStart 0) s
    (u.cluster 0).slip.map (fun x => (x.tile, x.pass)) = [(0, 0)] ∧ (u.tile 0 0).draining = true ∧ (u.cluster 0).mxq = [] ∧
    ((after (.slipPass 0) u).cluster 0).slip.map (·.pass) = [1] := by decide +kernel
theorem test_matrix_last_pass :
    let x : SlipEntry := { group := 0, no := 0, tile := 0, dest := BitVec.ofNat 64 (hOf 64 1 64 64), off := 0, slot := 0, chain := none, pass := 31 }
    let s := xS.setCluster 0 { tCluster with slip := [x], tiles := [(0, { kind := .fp32, draining := true })] }
    (s.tile 0 0).kind ≠ .fp64 ∧ ((after (.slipPass 0) s).cluster 0).slip = [] ∧ ((after (.slipPass 0) s).tile 0 0).draining = false := by decide +kernel

/-! ### Vector engine: VL 2, V1 = (1, 2), V2 = (3, −1) in fp32 -/

def vG : Group := { tGroup 1 [(1, 64), (2, 2), (4, 0x3F800000), (6, 200)] with
  vl := 2, vregs := [(1, 0x400000003F800000), (2, 0xBF80000040400000)], vmask := [(1, 1), (2, 2)] }
def vS : State := tState vG
def wV (ty : BitVec 4) (rd rs1 : BitVec 8) (low : BitVec 24) : Fields := { type := ty, rd := rd, rs1 := rs1, low := low }
def vPass (op : Nat) (w : Fields) (x : VxSpec) : Bool := passes vS tId 10 op w (x.sig w) vG tKernel && x.fmts w.ty
theorem test_vector_issue_hypotheses :
    let all : Nat → Bool := fun _ => true
    let fp32 : Nat → Bool := fun t => t = 1
    (vPass 0x02 (wV 1 3 1 0) { rd := .v, rs1 := .r, aux := auxMask } && vPass 0x03 (wV 1 3 1 0) { rd := .v, rs1 := .r, aux := auxMask } && vPass 0x04 (wV 1 3 4 0) { rd := .v, rs1 := .r, aux := auxMask } &&
      ([0x10, 0x11, 0x12, 0x14, 0x15].all fun op => vPass op (wV 1 3 1 0x020000) (vxVec 2 arithFmt)) && vPass 0x13 (wV 1 3 1 0x020200) (vxVec 3 arithFmt) &&
      ([0x16, 0x17].all fun op => vPass op (wV 1 3 1 0) (vxVec 1 arithFmt)) && ([0x18, 0x19, 0x1A, 0x23].all fun op => vPass op (wV 1 3 1 0x020000) (vxVec 2 all)) &&
      vPass 0x1B (wV 1 3 1 0) (vxVec 1 all) && vPass 0x1C (wV 1 3 1 3) { rd := .v, rs1 := .v, fmts := fun _ => true } && ([0x20, 0x21, 0x22].all fun op => vPass op (wV 1 3 1 0x020000) vxCmpSpec) &&
      ([0x24, 0x25, 0x26].all fun op => vPass op (wV 0 3 1 0x020000) (vxMaskSpec true)) && vPass 0x27 (wV 0 3 1 0) (vxMaskSpec false) &&
      vPass 0x28 (wV 3 3 1 0x020000) (vxVec 2 fun t => t ≤ 4) && vPass 0x29 (wV 3 3 1 0x020000) { rd := .v, rs1 := .r, rs2 := .r, aux := auxZero, fmts := fun t => t = 3 || t = 4 } &&
      ((List.range 4).all fun op => vPass 0x30 (wV 1 3 1 (BitVec.ofNat 24 op)) { rd := .v, rs1 := .v, aux := fun a => a % 8 = op, fmts := redAllows op }) &&
      ([4, 5, 6].all fun op => vPass 0x30 (wV 10 3 1 (BitVec.ofNat 24 op)) { rd := .v, rs1 := .v, aux := fun a => a % 8 = op, fmts := redAllows op }) &&
      ([0x38, 0x39, 0x3A, 0x3B].all fun op => vPass op (wV 1 3 1 0) (vxVec 1 fp32)) && vPass 0x40 (wV 1 3 1 0x020000) { rd := .r, rs1 := .v, rs2 := .r, aux := auxZero } &&
      vPass 0x41 (wV 0 3 0 0) { rd := .r, aux := fun a => a ≤ 1, fmts := fmtZero } && vPass 0x48 (wV 0 0 1 1) { rs1 := .r, aux := fun a => decide (1 ≤ a) && decide (a ≤ 7) } &&
      vPass 0x49 (wV 0 0 1 6) { rs1 := .r, aux := fun a => decide (a < 32) && decide (a / 4 ≥ 1) } && vPass 0x01 (wV 0 3 6 0) { rd := .r, rs1 := .r, aux := auxZero } &&
      ((vxSpan (wV 1 3 1 0) vS 0 vG).all fun x => !x.1)) = true := by decide +kernel
/-- An instruction and the engine's execution of it. -/
def vRun (i : Instr) (s : State) : Option Group := (after (.vectorEngineStart 0) (after i s)).group? 0
theorem test_vector_issue :
    ((after (.vxAdd tId (wV 1 3 1 0x020000)) vS).cluster 0).vxq.map (fun e => (e.vl, wOp e.word)) = [(2, 0x10)] ∧ (groupAfter (.vxGets tId (wV 0 3 0 0)) vS).map (·.wait) = some .engine ∧
    (groupAfter (.vxSetvl tId (wV 0 3 6 0)) vS).map (fun g => (g.vl, g.reg 0 3)) = some (200, 200) ∧ sgetD ((after (.vxChbase tId (wV 0 0 1 6)) vS).slot 0 1).bases 2 0 = 64 ∧
    ((after (.vxChld tId (wV 0 0 1 1)) vS).slot 0 1).loading = 1 := by decide
/-- 1 + 3 = 4 and 2 + (−1) = 1; the mask VM1 leaves element 1 alone. -/
theorem test_vector_arithmetic :
    let e := fun (g : Option Group) (i : Nat) => g.map fun g => vget 1 (g.vreg 3) i
    let a := vRun (.vxAdd tId (wV 1 3 1 0x020000)) vS
    let b := vRun (.vxAdd tId (wV 1 3 1 0x020020)) vS
    e a 0 = some 0x40800000 ∧ e a 1 = some 0x3F800000 ∧ e a 2 = some 0 ∧ e b 0 = some 0x40800000 ∧ e b 1 = some 0 ∧
    e (vRun (.vxMul tId (wV 1 3 1 0x020000)) vS) 1 = some 0xC0000000 ∧ e (vRun (.vxNeg tId (wV 1 3 1 0)) vS) 0 = some 0xBF800000 ∧ e (vRun (.vxBcast tId (wV 1 3 4 0)) vS) 1 = some 0x3F800000 ∧
    e (vRun (.vxSel tId (wV 1 3 1 0x020020)) vS) 1 = some 0xBF800000 ∧ e (vRun (.vxExp2 tId (wV 1 3 1 0)) vS) 0 = some 0x40000000 ∧
    (vRun (.vxAdd tId (wV 1 3 1 0x020000)) vS).map (fun g => g.vreg 2) = some (vG.vreg 2) := by decide +kernel
theorem test_vector_masks :
    (vRun (.vxCmplt tId (wV 1 3 1 0x020000)) vS).map (fun g => g.mask 3) = some 1 ∧ (vRun (.vxMor tId (wV 0 3 1 0x020000)) vS).map (fun g => g.mask 3) = some 3 ∧
    (vRun (.vxMand tId (wV 0 3 1 0x020000)) vS).map (fun g => g.mask 3) = some 0 ∧ vG.mask 0 = 2 ^ 1024 - 1 ∧ (vRun (.vxMor tId (wV 0 0 1 0x020000)) vS).map (fun g => g.mask 0 == 2 ^ 1024 - 1) = some true := by
  decide +kernel
theorem test_vector_store_and_extract :
    let u := after (.vectorEngineStart 0) (after (.vxSt tId (wV 1 1 1 0)) vS)
    readBytes (u.cluster 0).spad 64 8 = [0, 0, 0x80, 0x3F, 0, 0, 0, 0x40] ∧ (u.cluster 0).vxq = [] ∧
    (vRun (.vxExtr tId (wV 1 3 1 0x030000)) vS).map (fun g => (g.reg 0 3, g.wait)) = some (0x3F800000, .ready) ∧
    (vRun (.vxRedAdd tId (wV 1 3 2 0)) vS).map (fun g => vget 1 (g.vreg 3) 0) = some 0x40000000 := by decide +kernel
theorem test_vector_engine_hypotheses :
    let u := after (.vxAdd tId (wV 1 3 1 0x020000)) vS
    (u.cluster 0).vxq.length = 1 ∧ u.fenced 0 0 true false = false ∧ (vS.cluster 0).vxq = [] ∧ (u.group? 0).isSome = true ∧ ((vS.cluster 0).slotInUse 1) = false ∧
    after (.vectorEngineStart 0) vS = vS.settleEnds 0 := by decide +kernel

/-! ### Fences, tallies, transfers -/

def sG : Group := tGroup 1 [(1, 2), (4, 10), (6, 0xF0001), (8, 5), (10, 0x10000), (13, 256), (14, 64)]
def sS : State := { tState sG with tallies := [(0, { vals := [(10, 7)], runs := [(8, 4, 0)] })] }
def wSy (scope : BitVec 6) (rd rs1 : BitVec 8) (low : BitVec 24) : Fields := { mod := 2 * scope, rd := rd, rs1 := rs1, low := low }
theorem test_fence_hypotheses :
    ([1, 2, 3, 4].all fun op => [0, 1, 4].all fun (sc : BitVec 6) => passes sS tId 12 op (wSy sc 0 0 0) (sySig (wSy sc 0 0 0) .zero .zero .zero) sG tKernel) = true ∧ (sS.cluster 0).wb = [] ∧
    sS.group? 0 = some sG ∧ (sS.earlierWork 0 0 || sS.netWritesBefore 0 0) = false ∧ tKernel.remoteFail = none := by decide
theorem test_fences :
    (groupAfter (.syFence tId (wSy 3 0 0 0)) sS).map (·.fences) = some [{ no := 0, scope := 3, writesBefore := true, readsAfter := true }] ∧
    (groupAfter (.syRel tId (wSy 3 0 0 0)) sS).map (·.fences) = some [{ no := 0, scope := 3, writesBefore := true, readsAfter := false }] ∧
    ((after (.syAcq tId (wSy 1 0 0 0)) (sS.setCluster 0 { tCluster with l1 := [hitLine] })).cluster 0).l1 = [] ∧
    ((after (.syAcq tId (wSy 0 0 0 0)) (sS.setCluster 0 { tCluster with l1 := [hitLine] })).cluster 0).l1 = [hitLine] ∧ (groupAfter (.syFencec tId (wSy 1 0 0 0)) sS).map (·.pc) = some 0x1108 ∧
    (after (.syFencec tId (wSy 4 0 0 0)) { sS with kernels := [(0, { tKernel with remoteFail := some (5, 6) })] }).kernels.map (fun e => e.2.reason) = [0x606] := by decide +kernel
/-- SYFENCEC stalls while a transfer of the group is in progress. -/
theorem test_fence_stalls :
    let x : Xfer := { group := 0, no := 0, kernel := 0, word := 0, pc := 0, addr := 0, stride := 0, count := 0, handle := 0, off := 0 }
    let s : State := { sS.setCluster 0 { tCluster with xfers := [x] } with groups := [(0, { sG with issued := 1 })] }
    s.earlierWork 0 1 = true ∧ (groupAfter (.syFencec tId (wSy 1 0 0 0)) s).map (·.wait) = some (.stall ((wSy 1 0 0 0).word 12 4)) := by decide
theorem test_tally_hypotheses :
    (passes sS tId 12 0x11 (wSy 0 2 1 0) (sySig (wSy 0 2 1 0) .p .r .zero) sG tKernel && passes sS tId 12 0x10 (wSy 1 0 1 0x040000) (sySig (wSy 1 0 1 0x040000) .zero .r .p) sG tKernel &&
      passes sS tId 12 0x12 (wSy 0 0 6 0x080000) (sySig (wSy 0 0 6 0x080000) .zero .r .p) sG tKernel) = true ∧ sG.reg 0 1 < tKernel.man.tallies ∧ sget? 0 tKernel.tallyBase = some 8 ∧
    tKernel.tallyOf 0xF0001 0 = some (0, 9) ∧ tKernel.man.tallies ≤ sG.reg 0 4 ∧ setting sS 0xA071 1 = 0 := by decide
theorem test_tallies :
    regAfter (.syTrd tId (wSy 0 2 1 0)) sS 2 = some 7 ∧ (groupAfter (.syTally tId (wSy 1 0 1 0x040000)) sS).map (·.wait) = some (.stall ((wSy 1 0 1 0x040000).word 12 0x10)) ∧
    (groupAfter (.syTally tId (wSy 1 0 1 0x080000)) sS).map (·.pc) = some 0x1108 ∧ ((after (.syTadd tId (wSy 0 0 6 0x080000)) sS).tally 0).vals = [(9, 5), (10, 7)] ∧
    (after (.syTrd tId (wSy 0 2 4 0)) sS).kernels.map (fun e => e.2.reason) = [0x604] ∧ after (.tallyWaitTimeout tId) sS = sS := by decide
theorem test_tally_timeout :
    let w := wSy 1 0 1 0x040000
    let s : State := { sS with groups := [(0, { sG with wait := .stall (w.word 12 0x10) })], dict := { sS.dict with vals := [(0xA071 * 256 + 1, 1)] } }
    setting s 0xA071 1 = 1 ∧ field (w.word 12 0x10).toNat 52 12 = 0xC10 ∧ field (w.word 12 0x10).toNat 24 8 = 1 ∧ field (w.word 12 0x10).toNat 16 8 = 4 ∧
    (after (.tallyWaitTimeout tId) s).kernels.map (fun e => e.2.reason) = [0x605] ∧ (after (.tallyWaitTimeout tId) s).counter 0xA072 5 = 1 := by decide
def wTx (scope : BitVec 6) (ty : BitVec 4) (rd rs1 : BitVec 8) (low : BitVec 24) : Fields := { type := ty, mod := 2 * scope, rd := rd, rs1 := rs1, low := low }
/-- Address 10000h in the pair r10, count 256 in r13, offset 64 in r14; a tile of 2 × 16 bytes in the pair r2. -/
def xferG : Group := tGroup 1 ([(10, 0x10000), (13, 256), (14, 64), (4, 32)] ++ pairAt 2 (hOf 1 10 2 16))
def txS : State := tState xferG
theorem test_transfer_hypotheses :
    (passes txS tId 13 1 (wTx 0 0 0 10 0x040200) { legal := true, rs1 := .p, rs2 := .p, rs3 := .p } xferG tKernel &&
      passes txS tId 13 3 (wTx 0 0 0 10 0x0D0E00) { legal := true, rs1 := .p, rs2 := .r, rs3 := .r } xferG tKernel &&
      passes txS tId 13 0x10 (wTx 1 0 0 10 0x0D0E00) { legal := true, rd := .zero, rs1 := .p, rs2 := .r, rs3 := .r } xferG tKernel &&
      passes txS tId 13 0x11 (wTx 1 5 0 10 0x0D0E00) { legal := true, rd := .zero, rs1 := .p, rs2 := .r, rs3 := .r } xferG tKernel &&
      passes txS tId 13 0x12 (wTx 0 0 0 10 0x0D0000) { legal := true, rs1 := .p, rs2 := .r } xferG tKernel) = true ∧ tKernel.feature 4 = true ∧ (txS.cluster 0).wb = [] ∧
    (xferG.xfer 0 ((wTx 0 0 0 10 0x040200).word 13 1) (wTx 0 0 0 10 0x040200)).tileChecks (txS.cluster 0).spadSize = none ∧
    (xferG.xfer 0 ((wTx 0 0 0 10 0x0D0E00).word 13 3) (wTx 0 0 0 10 0x0D0E00)).linearChecks (txS.cluster 0).spadSize 4 = none ∧
    badReference 0xF0001 = false ∧ badReference 0x40000 = true ∧ ((List.range 6).all fun op => adderAllows op 5) = true := by decide
theorem test_transfer_issue :
    ([Instr.txLd tId (wTx 0 0 0 10 0x040200), .txSt tId (wTx 0 0 0 10 0x040200), .txLdl tId (wTx 0 0 0 10 0x0D0E00), .txStl tId (wTx 0 0 0 10 0x0D0E00), .txPut tId (wTx 1 0 0 10 0x0D0E00),
      .txRedAdd tId (wTx 1 5 0 10 0x0D0E00), .txRedXor tId (wTx 1 5 0 10 0x0D0EA0), .txDead tId (wTx 0 0 0 10 0x0D0000)].all
      fun i => ((after i txS).cluster 0).xfers.length == 1 && pcAfter i txS == some 0x1108) = true ∧
    ((after (.txLdl tId (wTx 0 0 0 10 0x0D0E00)) txS).cluster 0).xfers.map (fun x => (x.addr, x.count, x.off)) = [(0x10000, 256, 64)] := by decide
/-- The two line parts of a TXLDL of 256 bytes arrive in scratchpad, and the transfer leaves the unit. -/
theorem test_transfer_line_parts :
    let s0 := { txS with mem := { txS.mem with cells := [(0x10000, 9), (0x100FF, 8)] } }
    let s := after (.txLdl tId (wTx 0 0 0 10 0x0D0E00)) s0
    let u := after (.transferLinePart 0 0) s
    let v := after (.transferLinePart 0 0) u
    ((s.cluster 0).xfers.map fun x => (x.parts.length, x.pos)) = [(2, 0)] ∧ s.earlierWork 0 0 = false ∧ s.fenced 0 0 true false = false ∧
    readByte (u.cluster 0).spad 64 = 9 ∧ (u.cluster 0).xfers.map (·.pos) = [1] ∧ readByte (v.cluster 0).spad 319 = 8 ∧ (v.cluster 0).xfers = [] ∧
    after (.transferLinePart 0 15) s = s := by decide +kernel
theorem test_transfer_scratchpad_copy :
    let s := (after (.txLdl tId { wTx 0 0 0 10 0x0D0E00 with mod := 1 }) (tState { xferG with regs := sset 10 1024 xferG.regs })).modCluster 0 fun c => { c with spad := [(1024, 5)] }
    ((s.cluster 0).xfers.map fun x => (txSpace x.word, txWrites x.word)) = [(true, false)] ∧ readByte ((after (.transferLinePart 0 0) s).cluster 0).spad 64 = 5 := by decide +kernel
theorem test_line_parts : lineParts 4 100 200 = [(100, 28), (128, 128), (256, 44)] ∧ Memory.wf (writeByte [] 5 1) = true ∧ writeByte [(5, 1)] 5 0 = [] := by decide

/-! ### Launch queues, launches, completions, sessions: queue 0 of partition 0, its ring in host memory -/

def q0 : QueueId := { part := 0, queue := 0 }
def fn0 : Fn := { port := 0, vf := 0 }
def upPort : HostPort := { link := 2, rate := 5, lanes := 16, released := true }
def qHost (y : Queue) : HostSide := { queues := [(0, y)], ports := [(0, upPort)] }
def qY : Queue := { qbase := 0xC00000000000, enable := true, ctx := 0, log2size := 4, qseq := 5, qhead := 15, target := 3 }
def qS (y : Queue) : State := { tState (tGroup 1 []) with host := qHost y }
/-- A record with an OPCODE, PHASE and SEQ. -/
def qRec (op phase seq : Nat) : HostRecord := .record (BitVec.ofNat 512 (op <<< 272 ||| phase <<< 256 ||| seq <<< 288))
theorem test_queue_hypotheses :
    (qS qY).visible .node (.doorbell 0) = true ∧ (qS qY).visible (.function { port := 1, vf := 3 }) (.doorbell 0) = false ∧ (qS qY).visible .node (.queue 0 8) = true ∧
    (qS qY).fetches 0 = true ∧ (qS {}).fetches 0 = false ∧ (qS qY).ringRead 0 (qRec 2 1 5) = (qS qY, .record (2 <<< 272 ||| 1 <<< 256 ||| 5 <<< 288)) ∧
    (qS qY).ringRead 0 .failed = (qS qY, .failed) ∧ window (qY.qbase.toNat + 64 * qY.qhead) = .host 0 960 ∧ (qS qY).partPort 0 = 0 ∧ (qS qY).linkUp 0 = true := by decide +kernel
/-- A NOP wraps the ring and flips the phase; the eighth re-read waits; a doorbell beyond the ring does nothing. -/
theorem test_queue_commands :
    let q := fun (i : Instr) (y : Queue) => (after i (qS y)).queue 0
    q (.commandNop q0 (qRec 2 1 5)) qY = { qY with qhead := 0, phase := false, qseq := 6, qdone := 5 } ∧ q (.undefinedRecord q0 (qRec 9 1 5)) qY = { qY with qhead := 0, phase := false, qseq := 6, qdone := 5 } ∧
    (after (.undefinedRecord q0 (qRec 9 1 5)) (qS qY)).counter 0x6050 7 = 1 ∧ q (.recordReread q0 (qRec 2 0 5)) { qY with rereads := 7 } = { qY with rereads := 8, waiting := true } ∧
    (q (.recordReread q0 (qRec 2 0 5)) { qY with rereads := 6 }).waiting = false ∧ q (.commandNop q0 .failed) qY = { qY with enable := false, fetchErr := true } ∧
    q (.doorbell q0 .node 15) qY = { qY with target := 3 } ∧ q (.doorbell q0 .node 4) qY = { qY with target := 4 } ∧ q (.doorbell q0 .node 16) qY = qY ∧
    q (.qcfgRestart q0 .node 0xC0010010) { qY with enable := false } = { qY with qhead := 0, target := 0, ctx := 1, log2size := 16 } := by decide +kernel
/-- An image of 168 bytes, all of it code: a manifest of one landing of one group at byte 64. -/
def imgMan : Bytes := toLE 64 (1 + 1 <<< 16 + 1 <<< 64) ++ toLE 32 (1 + 0xFF <<< 16 + 1 <<< 24 + 16 <<< 32 + 8 <<< 40 + 2 <<< 48) ++ toLE 8 5
def imgBody : Bytes := toLE 48 (168 <<< 32 + 64 <<< 128 + 104 <<< 160) ++ imgMan
def imgOf (body : Bytes) : Bytes := toLE 16 (0x474D494B + 1 <<< 32 + 64 <<< 48 + 168 <<< 64 + crc32c body <<< 96) ++ body
/-- A launch of the image at 2000h with a completion record at 4000h; CSCOPE 1, node memory. -/
def lRec (image compl extra : Nat) : HostRecord :=
  .record (BitVec.ofNat 512 (image + 0x77 <<< 64 + compl <<< 128 + 0xFFFF <<< 192 + 9 <<< 224 + 1 <<< 256 + 1 <<< 264 + 1 <<< 272 + 5 <<< 288 + extra))
def lS : State := { tState (tGroup 1 []) with
  host := qHost qY, clusters := [(0, { utlb := [tLeaf] })], groups := [], kernels := [], mem := { cells := writeBytes [] 0x2000 (imgOf imgBody) } }
theorem test_launch_hypotheses :
    (match lRec 0x2000 0x4000 0 with
     | .record r => decide (lS.fetches 0 = true ∧ lS.ringRead 0 (lRec 0x2000 0x4000 0) = (lS, .record r.toNat) ∧ field r.toNat 272 8 = 1 ∧ field r.toNat 288 32 = 5 ∧
         r.toNat.testBit 256 = true ∧ (descriptorOf (r.toNat % 2 ^ 256)).completion = 0x4000 ∧ lS.headerReserved 0 r.toNat = false) &&
       (match lS.translateAs 0 0 0 (fun _ => true) 0x4000 1 (launchWaiter 0, none) with
        | (u, .ok pa _ _) => u.completionPlace 0 pa 1 false
        | _ => false)
     | .failed => false) = true ∧
    (match lS.readImage 0 0 0x2000 [] with
     | (v, .bytes img) => img == imgOf imgBody && (match v.planLaunch 0 (descriptorOf (0x2000 + 0xFFFF <<< 192)) img with
        | .ok pl => pl.clusters == [[0]]
        | .error _ => false) && (match v.planLaunch 0 (descriptorOf (0x2000 + 0xFFFF <<< 192 + 2 <<< 208)) img with
        | .ok _ => false
        | .error e => e == 3)
     | _ => false) = true ∧ (lS.readImage 0 0 0x2001 []).2 = .bad := by decide +kernel
/-- Accepted; refused with 01h (image), 03h (manifest), 02h (reserved header); lost for a completion record off its boundary. -/
theorem test_launch :
    let t := fun (h : HostRecord) => after (.launch q0 h []) lS
    let k := fun (s : State) => (s.counter 0xA011 1, s.counter 0xA011 2, s.counter 0xA011 3)
    k (t (lRec 0x2000 0x4000 0)) = (1, 0, 0) ∧ (t (lRec 0x2000 0x4000 0)).groups.map (fun e => (e.1, e.2.pc, e.2.regCount, e.2.active)) = [(0, 0x2000, 16, 0xFFFFFFFF)] ∧
    k (t (lRec 0x2001 0x4000 0)) = (0, 1, 1) ∧ k (t (lRec 0x2000 0x4000 (2 <<< 208))) = (0, 1, 3) ∧ k (t (lRec 0x2000 0x4000 (1 <<< 320))) = (0, 1, 2) ∧
    ((t (lRec 0x2000 0x4001 0)).queue 0).cplLost = true ∧ ((t (lRec 0x2000 0x80000000 0)).queue 0).cplLost = true ∧ (t (lRec 0x2000 0x4000 0)).kernels.length = 1 := by decide +kernel
/-- A kernel whose groups have all exited, its record at 4000h of node memory (CSCOPE 1), or a PEER kernel
with a flush read. -/
def endK : Kernel := { tKernel with cscope := 1, irq := true, flags := 5, tallyBase := [], ferries := [], man := { tMan with ferries := [] } }
def peerK : Kernel := { endK with cscope := 2, irq := false, completionPa := 0xC00000004000, flushAddr := 0xC00000008000 }
def eS (k : Kernel) : State := { tState (tGroup 1 []) with groups := [], kernels := [(0, k)], host := qHost {}, tallies := [(0, { runs := [(8, 4, 0)] })] }
theorem test_completion_hypotheses :
    (eS endK).kernel? 0 = some endK ∧ (eS endK).kernelEnded 0 endK = true ∧ (eS endK).drainKernel endK = some (eS endK) ∧ (eS endK).kernelOpsOut 0 = false ∧
    (endK.allClusters.foldl (fun s c => s.settleEnds c) (eS endK)) = eS endK ∧ ((eS endK).settleBubbles ((eS endK).closing 0 endK)).2.silent = false ∧
    endK.flushes = false ∧ peerK.flushes = true ∧ (eS peerK).flushSendable peerK = true ∧ endK.silent = false ∧ endK.remoteFail = none ∧
    (tS []).kernelEnded 0 tKernel = false ∧ after (.kernelCompletion 0) (tS []) = tS [] := by decide
/-- DONE is bit 63 of bytes 56 to 63, over the SEQ; the status word holds the sticky flags (R52, R328). -/
theorem test_completion :
    let t := after (.kernelCompletion 0) (eS endK)
    t.kernels = [] ∧ (t.cluster 0).kernel = none ∧ readBytes t.mem.cells 0x4038 8 = [7, 0, 0, 0, 0, 0, 0, 0x80] ∧ readByte t.mem.cells 0x4004 = 5 ∧
    (t.queue 0).qdone = 7 ∧ (t.tallies.all fun e => e.2.runs.isEmpty) = true := by decide +kernel
theorem test_peer_completion :
    let t := after (.kernelCompletion 0) (eS peerK)
    t.kernels.map (fun e => e.2.phase) = [.flushing] ∧ t.host.reads.map (fun r => (r.addr, r.len, r.user)) = [(0x8000, 4, .flush 0)] ∧ (t.takeFlush 0).isSome = true ∧
    (after (.peerFlushReadDone 0 true) t).kernels = [] ∧ (after (.peerFlushReadDone 0 true) t).out.head? = some (.hostWrite 0 0 0x4038 [7, 0, 0, 0, 0, 0, 0, 0x80] false) ∧
    (after (.peerFlushReadDone 0 false) t).out.length = 4 ∧ (after (.hostWindowReadCompletion 0 0 (.ok [0, 0, 0, 0])) t).kernels = [] ∧
    after (.peerFlushReadDone 0 true) (eS peerK) = eS peerK := by decide
def sesS (st : Nat) (id arg : W64) (on : Bool) (ks : Bool) : State :=
  { eS endK with kernels := if ks then [(0, endK)] else [], host := { qHost { qY with enable := on } with fns := [(0, { sessionState := st, sessionId := id, sessionArg := arg })] } }
theorem test_sessions :
    let f := fun (i : Instr) (s : State) => ((after i s).fn 0 0).sessionResult * 10 + ((after i s).fn 0 0).sessionState
    (sesS 0 0 0 false false).visible (.function fn0) (.fnCtl fn0 8) = true ∧ (sesS 0 0 0 false true).fnKernels fn0 = [0] ∧
    (sesS 0 0 0 false false).fn 0 0 = { sessionState := 0 } ∧
    f (.sessionCtlOpen fn0) (sesS 0 0 0 false false) = 1 ∧ (after (.sessionCtlOpen fn0) (sesS 0 0 0 false false)).queue 0 = { qY with enable := false, qbase := 0, qseq := 0, qhead := 0 } ∧
    f (.sessionCtlOpen fn0) (sesS 0 0 0 false true) = 10 ∧ f (.sessionCtlOpen fn0) (sesS 1 4 0 false false) = 31 ∧
    f (.sessionCtlOpenForce fn0) (sesS 2 4 0 false true) = 1 ∧ (after (.sessionCtlOpenForce fn0) (sesS 2 4 0 false true)).kernels.map (fun e => (e.2.silent, e.2.phase)) = [(true, .aborted)] ∧
    f (.sessionCtlReattach fn0) (sesS 2 4 4 false false) = 1 ∧ f (.sessionCtlReattach fn0) (sesS 2 4 5 false false) = 22 ∧ f (.sessionCtlReattach fn0) (sesS 0 4 4 false false) = 20 ∧
    (after (.sessionCtlReattach fn0) (sesS 2 4 4 false false)).counter 0x6050 2 = 1 ∧
    f (.sessionCtlClose fn0) (sesS 1 4 4 false false) = 0 ∧ f (.sessionCtlClose fn0) (sesS 1 4 4 true false) = 11 := by decide +kernel

/-! ### PCIe: function 0 with BAR4 of 2^36 bytes at node address 0; port 1 may be a root port -/

def pS : State := { tS [] with host := qHost {}, mem := { cells := writeBytes [] 0x2000 [1, 2, 3, 4, 5, 6, 7, 8] } }
def rootS : State := { pS with dict := { vals := [(0x6001 * 256 + 1, 1)], force := [(0x6001 * 256 + 1, 1)] } }
theorem test_pcie_hypotheses :
    pS.bar4Target fn0 0x2000 8 = some 0x2000 ∧ pS.bar4Target fn0 (2 ^ 36 - 1) 1 = some (2 ^ 36 - 1) ∧ pS.bar4Target fn0 (2 ^ 36 - 1) 2 = none ∧ pS.bar4Target { port := 0, vf := 1 } 0 8 = none ∧
    (pS.hubReadRange 10 0x2000 8).isSome = true ∧ (pS.hubWriteRange 10 0x2000 [9]).isSome = true ∧ (pS.adderAtomic 10 0x2000 0 4 1 0).isSome = true ∧ pS.keyAddr 0x2000 = some 0x2000 ∧
    pS.fnPresent fn0 = true ∧ pS.fnLive fn0 = true ∧ pS.fnPresent { port := 0, vf := 1 } = false ∧ pS.cfgWord fn0 0 = some (0x46201F62, 0) ∧ (pS.cfgWord fn0 1).isSome = true ∧ pS.rootRole 0 = false ∧
    rootS.rootRole 0 = true ∧ rootS.linkUp 0 = true ∧ rootS.rangeHeld 0 0x2000 8 = true ∧ rootS.partPort 0 = 0 ∧ (rootS.hubReadRange 10 0x2000 8).isSome = true := by decide
theorem test_pcie_requests :
    let out := fun (i : Instr) (s : State) => (after i s).out.head?
    out (.bar4Read fn0 0x2000 8) pS = some (.pcieCompletion fn0 [1, 2, 3, 4, 5, 6, 7, 8] false) ∧ out (.bar4Read fn0 0xFFFFFFFFF 2) pS = some (.pcieUnsupported fn0) ∧
    readByte (after (.bar4Write fn0 0x2001 [9]) pS).mem.cells 0x2001 = 9 ∧ after (.bar4Write fn0 0xFFFFFFFFF [9, 9]) pS = pS ∧
    out (.atomicopFetchadd fn0 0x2000 .b32 0x100) pS = some (.pcieCompletion fn0 [1, 2, 3, 4] false) ∧ readBytes (after (.atomicopFetchadd fn0 0x2000 .b32 0x100) pS).mem.cells 0x2000 5 = [1, 3, 3, 4, 5] ∧
    out (.atomicopSwap fn0 0x2000 .b128 7) pS = some (.pcieUnsupported fn0) ∧ readBytes (after (.atomicopSwap fn0 0x2000 .b64 7) pS).mem.cells 0x2000 8 = [7, 0, 0, 0, 0, 0, 0, 0] ∧
    readByte (after (.atomicopCas fn0 0x2000 .b32 7 0x04030201) pS).mem.cells 0x2000 = 7 ∧ readByte (after (.atomicopCas fn0 0x2000 .b32 7 0x04030202) pS).mem.cells 0x2000 = 1 := by decide +kernel
theorem test_configuration_and_root_port :
    let out := fun (i : Instr) (s : State) => (after i s).out.head?
    out (.configurationRequest fn0 0 .read) pS = some (.cfgCompletion fn0 0x46201F62) ∧ ((after (.configurationRequest fn0 4 (.write 0xFFFFFFFF 3)) pS).fn 0 0).word 1 = 0x546 ∧
    out (.configurationRequest { port := 0, vf := 1 } 0 .read) pS = some (.pcieUnsupported { port := 0, vf := 1 }) ∧
    out (.rootPortInboundRequest 0 (.memRead 0x2000 2)) rootS = some (.rootCompletion 0 [1, 2] false) ∧ readByte (after (.rootPortInboundRequest 0 (.memWrite 0x2000 [9])) rootS).mem.cells 0x2000 = 9 ∧
    out (.rootPortInboundRequest 0 (.memRead 0x2000 0)) rootS = some (.rootUnsupported 0) ∧ out (.rootPortInboundRequest 0 .other) rootS = some (.rootUnsupported 0) ∧
    sgetD (after (.rootPortInboundRequest 0 (.memWrite 0x100CA0010000 [255, 0, 0, 0])) rootS).host.irqPending 1023 false = true ∧ after (.rootPortInboundRequest 0 .other) pS = pS := by decide +kernel
/-- A read of four bytes by a group's transfer is outstanding at port 0. -/
def hrS : State := { pS with
  host := { pS.host with reads := [{ port := 0, vf := 0, tag := 3, addr := 0x40, len := 4, user := .core 2 }], queues := [(0, qY)], fns := [(0, { sessionState := 1, b4base := 5 })] }
  clusters := [(0, { tCluster with utlb := [tLeaf, { tLeaf with host := some (0x5000, true, true) }] })] }
def downS : State := { hrS with host := { hrS.host with reads := [], ports := [(0, { upPort with link := 1 })] } }
theorem test_host_reads :
    let h := fun (i : Instr) => ((after i hrS).hart 2, (after i hrS).host.reads.length)
    (hrS.readOf 0 3).isSome = true ∧ hrS.readOf 0 4 = none ∧ (h (.hostWindowReadCompletion 0 3 (.ok [1, 2, 3, 4]))).1.lastLoad = 0x04030201 ∧
    (h (.hostWindowReadCompletion 0 3 (.ok [1, 2, 3, 4]))).2 = 0 ∧ (h (.completionTimeout 0 3)).2 = 0 ∧ (h (.hostWindowReadCompletion 0 3 .completerAbort)).2 = 0 ∧
    after (.completionTimeout 0 4) hrS = hrS ∧ (h (.hostWindowReadCompletion 0 3 .unsupportedRequest)).2 = 0 := by decide +kernel
theorem test_links_and_host_resets :
    let t := after (.hostReset 0 true) { downS with host := { downS.host with ports := [(0, upPort)] } }
    (t.port 0).link = 0 ∧ t.queue 0 = { qY with enable := false, stopped := true } ∧ (t.fn 0 0).sessionState = 2 ∧ (t.fn 0 0).b4base = 0 ∧ (t.cluster 0).utlb = [tLeaf] ∧
    t.counter 0x6050 1 = 1 ∧ t.kernels = downS.kernels ∧ after (.hostReset 0 true) downS = downS ∧ ((after (.hostReset 0 false) downS).port 0).link = 1 ∧
    ((after (.pcieLinkUp 0 6 8) downS).port 0) = { link := 2, rate := 6, lanes := 8, released := true } ∧ after (.pcieLinkUp 0 6 8) hrS = hrS ∧
    (after (.flr fn0) downS).queue 0 = { qY with enable := false, stopped := true } ∧ downS.fnPresent fn0 = true ∧ downS.recovering = false ∧ after (.flr { port := 0, vf := 8 }) downS = downS ∧
    ((after (.rootPortRetrain 0 true) { rootS with host := { rootS.host with ports := [(0, { upPort with link := 0 })] } }).port 0).link = 2 ∧ after (.rootPortRetrain 0 true) rootS = rootS := by decide +kernel

/-! ### Host translations: partition 0's context 0 waits with page 5 for a group -/

def atsX (pri : Bool) : HostXlate :=
  { port := 0, vf := 0, tag := 4, part := 0, ctx := 0, va := 0x5000, write := true, pri := pri, waiters := [{ group := 0, xfer := none, va := 0x5008, access := 1 }] }
def atsS (x : HostXlate) (alloc : W32) : State :=
  { tState { tGroup 1 [] with wait := .stall 0 } with host := { qHost {} with ats := [x], fns := [(0, { cfg := [(capPri / 4 + 3, alloc)] })] } }
theorem test_host_translation_hypotheses :
    (atsS (atsX false) 1).xlateOf fn0 4 false = some (atsX false) ∧ (atsS (atsX true) 1).xlateOf fn0 4 true = some (atsX true) ∧ (atsS (atsX true) 1).xlateOf fn0 5 true = none ∧
    ((atsS (atsX false) 1).fn 0 0).priAllocation = 1 ∧ ((atsS (atsX false) 0).fn 0 0).priAllocation = 0 ∧ ((atsS (atsX false) 1).fn 0 0).priStopped = false ∧
    ((atsS (atsX true) 1).group? 0).map (·.wait) = some (.stall 0) ∧ (atsS (atsX true) 1).ownParts fn0 = [0] ∧
    (((atsS (atsX true) 1).clusters.map Prod.fst).foldl (fun (acc : Option State) c => acc.bind fun s => s.drainAll c) (some (atsS (atsX true) 1))).isSome = true := by decide
theorem test_host_translations :
    let t := fun (i : Instr) (x : HostXlate) (n : W32) => after i (atsS x n)
    let done : AtsCompletion := { log2size := 13, addr := 0x6000, read := true, write := true }
    ((t (.atsTranslationCompletion fn0 4 done) (atsX false) 1).dx 0).tlb.map (fun e => (e.vpn, e.log2pages, e.host)) = [(4, 1, some (0x6000, true, true))] ∧
    (t (.atsTranslationCompletion fn0 4 done) (atsX false) 1).host.ats = [] ∧ (t (.atsTranslationCompletion fn0 4 { done with write := false }) (atsX false) 1).host.ats.map (fun x => (x.pri, x.queued)) = [(true, false)] ∧
    (t (.atsTranslationCompletion fn0 4 { done with write := false }) (atsX false) 0).host.ats.map (fun x => (x.pri, x.queued)) = [(true, true)] ∧
    (t (.prgResponseSuccess fn0 4) (atsX true) 1).out.head? = some (.atsRequest 0 0 4 0x5000 true 0) ∧ (t (.prgResponseInvalidRequest fn0 4) (atsX true) 1).kernels.map (fun e => e.2.reason) = [0x508] ∧
    ((t (.prgResponseFailure fn0 4) (atsX true) 1).fn 0 0).priStopped = true ∧ (t (.priResponseTimeout fn0 4) (atsX true) 1).host.ats = [] := by decide
theorem test_ats_invalidation :
    let s : State := { hrS with dieXlate := [(0, { tlb := [{ tLeaf with host := some (0, true, true) }, { tLeaf with vpn := 2 ^ 18, host := some (0, true, true) }, tLeaf] })] }
    let t := after (.atsInvalidationRequest fn0 3 0x2000 12) s
    (t.cluster 0).utlb = [tLeaf] ∧ ((t.dx 0).tlb.map (fun e => (e.vpn, e.host.isSome))) = [(2 ^ 18, true), (0, false)] ∧ t.out.head? = some (.atsInvalidationCompletion fn0 3) := by decide +kernel

/-! ### Interrupts, harts, acting registers -/

def irqS : State := { pS with host := { pS.host with routes := [(768, 0xC000000000050000), (769, 0x8000000000000002)], irqPending := [(769, true)], fns := [(0, { cfg := [(1, 4), (capMsix / 4, 0x80000000)], msix := [(5, 0)] })] } }
theorem test_interrupts :
    let t := fun (i : Instr) => after i irqS
    (t (.intsend 0)).out.head? = some (.msix 0 0 5) ∧ sgetD (t (.intsend 0)).host.irqPending 768 false = false ∧ sgetD (t (.intsend 255)).host.irqPending 1023 false = true ∧ t (.intsend 256) = irqS ∧
    irqS.assertsHart 2 769 = true ∧ ((List.range 769).all fun m => !irqS.assertsHart 2 m) = true ∧ (t (.claim 2)).out.head? = some (.registerRead 769) ∧ (t (.claim 2)).host.irqPending = [] ∧
    (t (.claim 3)).out.head? = some (.registerRead 0xFFFFFFFF) := by decide +kernel
theorem test_hart_start :
    let s : State := { pS with host := { pS.host with harts := [(5, { running := true })] } }
    (s.hart 0).running = false ∧ s.hartPart 0 = 0 ∧ (after (.hartStart 0 191 0x80) s).hart 191 = { (s.hart 191) with running := true, pc := 0x80, a0 := 191 } ∧ after (.hartStart 0 5 0x80) s = s ∧ after (.hartStart 1 6 0x80) s = s := by decide +kernel
def invS (n : Nat) : State :=
  { tState { tGroup 1 [] with wait := .faulted 0 9 } with
    stalled := [{ part := 0, die := 0, seq := 9, code := 0x503, group := 0, xfer := none }]
    xlate := [(0, { ctxId := [(0, 0x8000000000000000)], invAddr := 0x5000, invQueue := List.replicate n (2, 0, 0, 0), fqLost := [(7, 0x1122334455667788)] })]
    dieXlate := [(0, { tlb := [tLeaf, { tLeaf with vpn := 2 ^ 18 }], walks := [{ part := 0, asid := 0, level := 1, prefixVpn := 0, table := 0 }] })] }
theorem test_invalidations :
    let t := fun (i : Instr) (n : Nat) => (after i (invS n)).xl 0
    (t (.invCtlRange 0 8 0x1000000000000001) 0).invQueue = [(1, 0, 5, 1)] ∧ (t (.invCtlRange 0 8 0x1000000000000000) 0).invDrop = true ∧ (t (.invCtlContext 0 8 0x2000000000000000) 63).invQueue.length = 64 ∧
    (t (.invCtlPartition 0 8 0x3000000000000000) 64).invDrop = true ∧ after (.invCtlRange 0 4 0x1000000000000001) (invS 0) = invS 0 ∧ after (.invalidationComplete 0) (invS 0) = invS 0 ∧
    (t (.invalidationComplete 0) 2).invDone = 1 ∧ ((after (.invalidationComplete 0) (invS 1)).dx 0).tlb = [] ∧ ((after (.invalidationComplete 0) (invS 1)).dx 0).walks = [] ∧
    ((after (.invalidationComplete 0) (after (.invCtlRange 0 8 0x1000000000000001) (invS 0))).dx 0).tlb.map (·.vpn) = [2 ^ 18] := by decide
theorem test_resume_and_clearing_reads :
    let t := fun (i : Instr) => after i (invS 0)
    (groupAfter (.resumeRetry 0 8 9) (invS 0)).map (·.wait) = some .ready ∧ (t (.resumeFail 0 8 0x8000000000000009)).kernels.map (fun e => e.2.reason) = [0x503] ∧
    (t (.resumeRetry 0 8 8)).counter 0xA081 6 = 1 ∧ t (.resumeRetry 0 4 9) = invS 0 ∧ (t (.fqLostRead 0 7 4 4)).out.head? = some (.registerRead 0x11223344) ∧ ((t (.fqLostRead 0 7 4 4)).xl 0).fqLost = [] ∧
    (after (.tallyAdd 0 (8 * 9) 8 3) (eS endK)).tallyValue 0 9 = 3 ∧ (after (.tallyAdd 0 (8 * 12) 8 3) (eS endK)).counter 0xA072 4 = 1 ∧ after (.tallyAdd 0 (8 * 9) 4 3) (eS endK) = eS endK := by decide
/-- FQ_BASE keeps its low 12 bits at zero; a write of half of an acting register, and one of no register, change nothing. -/
theorem test_register_write :
    let b := 0x100C80000000
    ((invS 0).access .node b 4).isSome = true ∧ ((after (.registerWrite .node (BitVec.ofNat 48 b) 4 0x12345678) (invS 0)).xl 0).fqBase = 0x12345000 ∧
    ((invS 0).access .node (b + 1) 4) = none ∧ after (.registerWrite .node (BitVec.ofNat 48 (b + 1)) 4 1) (invS 0) = invS 0 := by decide

/-! ### Coherence: line 0 has its home at agent 0 -/

/-- Memory with bytes 1 and 2, a directory entry and the copies of agent 2. -/
def hS (d : List DirEntry) (c : List Copy) (t : List Txn) : State :=
  { mem := { cells := writeBytes [] 0 [1, 2] }, agents := [(0, { dir := d }), (2, { copies := c })], txns := t }
def hM : DirEntry := { line := 0, st := .M, resp := some 2, sharers := 4 }
/-- Agent 2's modified copy: byte 0 is 9 in sector 0, dirty. -/
def cM : Copy := { line := 0, st := .M, valid := 15, dirty := 1, data := 9 }
def cE : Copy := { cM with st := .E, dirty := 0 }
def tX (q : CohReq) (a : Nat) : Txn := { line := 0, req := q, agent := a, mask := 0, snoops := [], responses := [] }
theorem test_coherence_hypotheses :
    let s := hS [hM] [cM] []
    s.cohLine 0 = some 0 ∧ s.home 0 = 0 ∧ sendsReq 1 .rds = true ∧ sendsReq 7 .dead = true ∧ s.reaches 0 0 = true ∧ s.reaches (agentDie 4) 0 = true ∧ s.dirVictim 0 0 = none ∧ s.txn? 0 = none ∧
    (hS [] [] [tX .rds 1]).txn? 0 = some (tX .rds 1) ∧ s.cohLine 0x020000000000 = none ∧ (s.agent 0).cached? 0 = none ∧ (hS [] [] []).dirVictim 0 0 = none ∧
    s.bufferFree 0 0 1 = true ∧ s.dirFull 0 0 = false ∧ (s.reserveWay (tX .rds 1) {}).isSome = true ∧
    snoopsFor { tX .rds 1 with mask := 15 } ((s.agent 0).entry? 0) false = [(2, 1)] ∧ (s.agent 2).copies.find? (fun x => x.line = 0 && (x.st = .M || x.st = .O)) = some cM ∧
    snoopsFor (tX .rdu 4) (some { hM with sharers := 0x1E, resp := some 3 }) true = [(3, 2), (1, 3), (2, 3)] ∧ grantFor (tX .rds 4) (some { hM with st := .S, resp := none }) .I = .F := by decide +kernel
/-- A read of an uncached line is granted E with the sectors asked for; one of a modified line is snooped;
a busy line answers RETRY; a request of memory that does not exist does nothing. -/
theorem test_coherence_requests :
    let r := fun (i : Instr) (s : State) => ((after i s).txn? 0).getD (tX .backInval 0)
    let t := r (.cohRds 1 0 3) (hS [] [] [])
    let v := r (.cohRdu 1 0 15) (hS [hM] [cM] [])
    t.grant = .E ∧ t.dataSect = 3 ∧ t.snoops = [] ∧ t.cmpSent = true ∧ ((after (.cohRds 1 0 3) (hS [] [] [])).txn? 0).map (·.data) = some 0x201 ∧
    (after (.cohRds 1 0 3) (hS [] [] [])).out = [.cohMessage 2 2 0 1 0 0 0 0 3 0, .cohMessage 3 1 0 1 0 3] ∧
    v.snoops = [(2, 2)] ∧ v.cmpSent = false ∧ (after (.cohRdu 1 0 15) (hS [hM] [cM] [])).out = [.cohMessage 1 2 0 2 0 15] ∧
    (after (.cohUpg 1 0) (hS [] [] [tX .rds 4])).out = [.cohMessage 2 4 0 1 0] ∧ ((after (.cohUpg 1 0) (hS [] [] [tX .rds 4])).agent 0).retries.length = 1 ∧
    after (.cohRdn 1 0x020000000000 15) (hS [] [] []) = hS [] [] [] ∧ ((after (.cohRdn 10 0 1) (hS [] [] [])).txn? 0).map (fun t => (t.grant, t.dataSect)) = some (.I, 1) ∧
    readByte (after (.cohWrn 10 0 2 0x700 none) (hS [] [] [])).mem.cells 1 = 7 ∧ (r (.cohDead 1 0) (hS [hM] [cM] [])).snoops = [(2, 4)] := by decide +kernel
theorem test_write_back_and_eviction :
    let w := after (.cohWbk 2 0) (hS [hM] [cM] [])
    let e := after (.cohEvc 2 0) (hS [hM] [cE] [])
    (w.agent 2).wbBuf = [cM] ∧ (w.agent 2).copies = [] ∧ w.out = [] ∧ (w.txn? 0).map (fun t => (t.req, t.cmpSent)) = some (.wbk, false) ∧ (e.agent 0).dir = [] ∧ (e.agent 2).copies = [] ∧
    e.out = [.cohMessage 2 2 0 2 0] ∧ readByte (after (.cohWbd 2 0) w).mem.cells 0 = 9 ∧ (after (.cohWbd 2 0) w).out = [.cohMessage 2 2 0 2 0] := by decide +kernel
/-- The companion asks without a right: CMPE, counted. -/
theorem test_companion_rights :
    let s : State := { hS [] [] [] with dieState := [(8, 1)] }
    sendsReq 12 .rds = true ∧ s.companionMay .rds 0 0 = false ∧ after (.cohRds 12 0 15) s = (s.count 0x7021 3 1).send (.cohMessage 2 5 0 12 0 0 0 0 0 3) := by decide
/-- A whole read of a modified line: SNPS, SRSP, CMP, DATA, CMPACK. -/
theorem test_coherence_replies :
    let s := hS [hM] [cM] [{ tX .rds 1 with mask := 15, snoops := [(2, 1)] }]
    let a := after (.cohSnps 2 0) s
    let b := after (.cohSrsp 2 0) a
    let c := after (.cohData 0) (after (.cohCmp 0) b)
    let e := after (.cohCmpack 0) c
    (a.agent 2).copies.map (·.st) = [.O] ∧ (a.txn? 0) = some { tX .rds 1 with mask := 15, responses := [(2, .O, 15, 0)], dataSect := 15, data := 9 } ∧
    (b.txn? 0).map (fun t => (t.cmpSent, t.grant)) = some (true, .S) ∧ (c.txn? 0).map (fun t => (t.cmpGot, t.received)) = some (true, 15) ∧ e.txns = [] ∧ ((e.agent 0).entry? 0).map (fun d => (d.resp, d.sharers)) = some (some 2, 6) ∧
    after (.cohSnpu 2 0) s = s ∧ after (.cohSnps 2 0) (hS [] [] []) = hS [] [] [] ∧ after (.cohCmpack 0) s = s := by decide +kernel
theorem test_snoop_forms :
    let s := fun (n : Nat) => hS [hM] [cM] [{ tX .rdu 1 with mask := 1, snoops := [(2, n)] }]
    let st := fun (i : Instr) (n : Nat) => (((after i (s n)).agent 2).cached? 0).isSome
    st (.cohSnpu 2 0) 2 = false ∧ st (.cohSnpi 2 0) 3 = false ∧ st (.cohSnpd 2 0) 4 = false ∧ st (.cohSnpc 2 0) 5 = true ∧
    (after (.cohSnpu 2 0) (s 2)).txn? 0 = some { tX .rdu 1 with mask := 1, responses := [(2, .I, 1, 1)], dataSect := 1, dirtySect := 1, data := 9 } ∧
    (after (.cohSnps 4 0) (hS [hM] [cM] [{ tX .rds 1 with snoops := [(4, 1)] }])).txn? 0 = some { tX .rds 1 with responses := [(4, .I, 0, 0)] } := by decide +kernel
theorem test_coherence_errors :
    let t : Txn := { tX .addop 10 with cmpSent := true, error := some 5 }
    (after (.cohCmpe 0 5) (hS [] [] [t])).out = [.cohMessage 2 3 10 0 0] ∧ ((after (.cohCmpe 0 5) (hS [] [] [t])).txn? 0).map (·.cmpGot) = some true ∧ after (.cohCmpe 0 4) (hS [] [] [t]) = hS [] [] [t] ∧
    (after (.cohRetry 1 0) (after (.cohUpg 1 0) (hS [] [] [tX .rds 4]))).agent 0 = { dir := [], retries := [(tX .upg 1, 2)] } ∧ after (.cohRetry 1 0) (hS [] [] []) = hS [] [] [] := by decide +kernel
theorem test_adder_operations :
    let u := after (.cohAddop 10 0 (BitVec.ofNat 29 (15 * 2 ^ 25 + 4 * 2 ^ 21 + 7 * 2 ^ 13)) 0 0) (hS [] [] [])
    (u.txn? 0).map (·.error) = some (some 5) ∧ u.out = [.cohMessage 2 5 0 10 0 0 0 0 0 5] ∧
    readByte (after (.cohAddop 10 0 (BitVec.ofNat 29 (4 * 2 ^ 21 + 7 * 2 ^ 13)) 5 0) (hS [] [] [])).mem.cells 0 = 6 ∧ adderSize 4 = 8 ∧ atomicOk 0 15 4 = false ∧ atomicOk 0 0 4 = true := by decide +kernel
/-- Agent 2's die is lost: its line is reclaimed whole, poisoned. -/
theorem test_agent_death :
    let s : State := { hS [hM] [cM] [] with dieState := [(1, 3)] }
    let a := after (.agentDeath 0 2) s
    let b := after (.directoryScan 0) a
    s.reaches 0 1 = false ∧ (a.agent 0).deadTo = [2] ∧ (a.agent 0).reclaim = [(2, 0)] ∧ (b.agent 0).dir = [] ∧ b.marked 96 = true ∧ b.marked 128 = false ∧ ((List.range 4).all fun i => s.lossAt (32 * i) = .none) = true ∧
    (after (.directoryScan 0) b).mem.events.length = b.mem.events.length + 1 ∧ after (.agentDeath 0 0) s = s ∧ after (.directoryScan 0) s = s ∧ after (.agentDeath 0 6) s = s ∧
    ((after (.directoryScan 0) { s with agents := [(0, { dir := [{ hM with st := .F, sharers := 6 }], reclaim := [(2, 0)] })] }).agent 0).dir.map (fun d => (d.st, d.resp, d.sharers)) = [(.S, none, 2)] := by decide +kernel

/-! ### A link: GL0 up, both ends with credits -/

def lEnd : LinkEnd := { credits := [32, 32, 32, 32, 32, 32, 32, 32], locked := true, credited := true }
def lState (x : LinkState) (e : LinkEnd) : State := { links := [(0, { state := x, trained := true, fwd := e, rev := lEnd })] }
def dir0 : LinkDir := { link := 0, rev := false }
/-- A flit with no message: KIND, SEQ, ACK and a CRC. -/
def flit (kind seq ack crc : Nat) : BitVec 2048 := BitVec.ofNat 2048 (kind <<< 38 ||| seq <<< 52 ||| ack <<< 40 ||| crc <<< 1984)
def okFlit : BitVec 2048 := flit 0 0 0xFFF 9026890505544149184
/-- A flit with its CRC put in. -/
def sealed (f : BitVec 2048) : BitVec 2048 := f ||| BitVec.ofNat 2048 (crc64 (flitBytes f 248) <<< 1984)
/-- A control flit: ACK and control word. -/
def ctlFlit (ack word : Nat) : BitVec 2048 := sealed (flit 2 0 ack 0 ||| BitVec.ofNat 2048 (word <<< 64))
theorem test_flits_hypotheses :
    let s := lState .up lEnd
    flitGood okFlit = true ∧ flitGood (flit 1 0 0 1802784946122483761) = true ∧ flitGood (flit 0 0 0xFFF 0) = false ∧
    (scanFlit none [] lEnd.credits okFlit).ok = true ∧ (scanFlit none [] lEnd.credits okFlit).short = false ∧ (s.sendFlit dir0 okFlit []).isSome = true ∧
    (s.link 0).active = true ∧ ((lState .down lEnd).link 0).active = false ∧ (lState .up { lEnd with nextSeq := 1 }).sendFlit dir0 okFlit [] = none ∧ replayDepth 0 > 0 ∧ s.linkEnd dir0 = lEnd ∧
    s.linkEnd (dirBack dir0) = lEnd ∧ ((lState .retraining lEnd).link 0).code = 4 ∧ (s.link 0).code ≠ 4 ∧ laneBytes 0 5 = [5, 133] ∧
    flitGood (ctlFlit 6 (8 <<< 8 + 1)) = true ∧ controlWord (ctlFlit 6 (8 <<< 8 + 1)) % 256 = 1 := by decide +kernel
/-- A flit of one REQ message whose channel has no credit is not sent (R276). -/
theorem test_credits :
    let f := sealed (flit 0 0 0xFFF 0 ||| BitVec.ofNat 2048 (1 <<< 12 + 1 <<< (64 + 72)))
    (scanFlit none [0] lEnd.credits f).short = false ∧ (scanFlit none [0] [0] f).short = true ∧ (lState .up { lEnd with credits := [0] }).sendFlit dir0 f [0] = none ∧
    ((scanFlit none [0] lEnd.credits f).credits).headD 0 = 31 := by decide +kernel
theorem test_flits :
    let e := fun (i : Instr) (x : LinkEnd) => (after i (lState .up x)).linkEnd dir0
    let bad : BitVec 2048 := BitVec.ofNat 2048 (1 <<< 1984)
    (e (.dataFlit dir0 ⟨okFlit, 0⟩ []) lEnd).expSeq = 1 ∧ (e (.dataFlit dir0 ⟨okFlit, 0⟩ []) lEnd).sinceAck = 1 ∧ (e (.dataFlit dir0 ⟨okFlit, 0⟩ []) lEnd).nextSeq = 1 ∧
    (e (.dataFlit dir0 ⟨okFlit, bad⟩ []) lEnd).nakSent = true ∧ (after (.dataFlit dir0 ⟨okFlit, bad⟩ []) (lState .up lEnd)).out = [.controlFlit 0 true 0xFFF 1] ∧
    ((after (.dataFlit dir0 ⟨okFlit, 0⟩ []) (lState .up { lEnd with nextSeq := 5, expSeq := 1, replay := [(0, okFlit)] })).counter 0x7004 1) = 1 ∧
    ((after (.nullFlit dir0 (flit 1 0 0 1802784946122483761)) { links := [(0, { state := .up, fwd := lEnd, rev := { lEnd with replay := [(0, 0), (1, 0)], replayCount := 3 } })] }).linkEnd (dirBack dir0)).replay = [(1, 0)] ∧
    (e (.nullFlit dir0 (flit 1 0 0 0)) lEnd).nakSent = true ∧ after (.dataFlit dir0 ⟨0, 0⟩ []) (lState .down lEnd) = lState .down lEnd := by decide +kernel
theorem test_replay_and_retrain :
    let s := fun (x : LinkEnd) => lState .up x
    let w := { lEnd with replay := [(7, (0 : BitVec 2048)), (8, 0)] }
    let nak := fun (n : Nat) => ctlFlit 6 (n <<< 8 + 1)
    (after (.linkNak dir0 ⟨(nak 8), 0⟩) (s w)).out = [.replayed 0 false 1] ∧ ((after (.linkNak dir0 ⟨(nak 8), 0⟩) (s w)).linkEnd dir0).replay = [(8, 0)] ∧ (after (.replayTimeout ⟨dir0, 0⟩) (s w)).out = [.replayed 0 false 2] ∧
    ((after (.linkNak dir0 ⟨(nak 7), 0⟩) (s { w with replayCount := 15 })).link 0).state = .retraining ∧ ((after (.linkNak dir0 ⟨(nak 7), 1⟩) (s { w with replayCount := 15 })).link 0).state = .up ∧ after (.replayTimeout ⟨dir0, 0⟩) (s lEnd) = s lEnd ∧
    (after (.linkAckTimer dir0) (s { lEnd with sinceAck := 1 })).out = [.nullFlit 0 true 4095] ∧ ((after (.nakAckTimeout dir0) (s { lEnd with nakSent := true })).link 0).state = .retraining ∧ after (.nakAckTimeout dir0) (s lEnd) = s lEnd ∧
    ((after (.linkRetrain ⟨dir0, ctlFlit 0xFFF 5⟩) (s lEnd)).link 0).fwd.locked = false ∧ ((after (.retrainLimitExpiry 0) (lState .retraining w)).link 0).state = .down ∧ after (.retrainLimitExpiry 0) (s w) = s w := by decide +kernel
theorem test_training :
    let st := fun (i : Instr) (x : LinkState) => ((after i (lState x { lEnd with locked := false, credited := false })).link 0).state
    let cap : CapWords := { cap0 := 0x3D000000, cap1 := 5, windows := [] }
    st (.linkDetect 0 true) .detect = .lock ∧ st (.linkDetect 0 false) .detect = .detect ∧ st (.linkLock dir0 [(3, 17)]) .lock = .deskew ∧
    (st (.linkLock dir0 ((List.range (linkSpares 0 + 1)).map fun i => (BitVec.ofNat 8 i, 17))) .lock) = .down ∧ st (.linkDeskew 0 true) .deskew = .credit ∧
    capIntersect 0x3D000000 0x3D000000 = some 0x3D000000 ∧ ((after (.linkCaps 0 cap cap) (lState .caps lEnd)).link 0).caps = some (0x3D000000, 5) ∧ capIntersect 0x103D000000000000 0x3D000000 = none ∧
    ((after (.linkCaps 0 { cap with cap0 := 0x1000000000000000 } cap) (lState .caps lEnd)).die 1) = 3 ∧
    st (.creditInit dir0 (Vector.replicate 8 4095)) .credit = .up ∧ st (.creditInit dir0 (Vector.replicate 8 0)) .credit = .credit ∧ st (.trainingStateTimeout 0) .lock = .detect ∧ st (.trainingStateTimeout 0) .up = .up ∧
    ((after (.trainingStateTimeout 0) { links := [(0, { state := .lock, attempts := 6 })] }).link 0).attempts = 7 ∧ ((after (.trainingStateTimeout 0) { links := [(0, { state := .lock, attempts := 7 })] }).link 0).state = .down := by decide
theorem test_companion_capabilities :
    let s : State := { links := [(18, { state := .caps })] }
    let cap : CapWords := { cap0 := 0x3D000000, cap1 := 0, windows := [0x400] }
    (capIntersect 0x3D000000 (s.companionMask 0x3D000000)).isSome = true ∧ ((after (.linkCaps 18 cap { cap with windows := [] }) s).link 18).state = .credit := by decide
/-- A LANECHECK flit: 5Ah and A5h in turn, but for the bits flipped in byte 35, which lane 3 of 32 carries. -/
def laneFlit (bad : Nat) : BitVec 2048 :=
  sealed (flit 2 0 0xFFF 0 ||| BitVec.ofNat 2048 (4 <<< 64 + (((2 ^ 1792 - 1) / (2 ^ 16 - 1) * 0xA55A) <<< 192 ^^^ bad <<< (8 * 35))))
theorem test_lane_check :
    let d : LinkDir := { link := 6, rev := false }
    let t := fun (x : LinkEnd) => after (.laneCheck d (laneFlit 0x0F)) { links := [(6, { state := .up, trained := true, fwd := x, rev := lEnd })] }
    laneErrors 6 (laneFlit 0x0F) 3 = 4 ∧ laneErrors 6 (laneFlit 0x0F) 4 = 0 ∧ ((t lEnd).linkEnd d).laneErrors = [(3, 4)] ∧
    ((t { lEnd with laneErrors := [(3, 1020)] }).linkEnd d).failedLanes = [3] ∧ ((t { lEnd with laneErrors := [(3, 1020)] }).link 6).state = .retraining ∧
    ((t { lEnd with laneErrors := [(3, 1019)] }).link 6).state = .up := by decide +kernel
/-- An expired request, the ford, register and scratchpad messages. -/
theorem test_package_messages :
    let s := lState .up lEnd
    let rq : PkgRequest := { src := 1, ncr := false, txid := 5, fromDie := 0, toDie := 1 }
    let m : Message := { header := 0, slots := [] }
    let fd : State := { links := [(0, { state := .up, fwd := { lEnd with forded := true }, rev := lEnd }), (1, { state := .up, fwd := { lEnd with forded := true } }), (2, { state := .up, fwd := lEnd }), (3, { state := .up, fwd := lEnd, rev := lEnd })] }
    (after (.requestTimeout ⟨false, 1⟩ 5) { s with pkgRequests := [rq] }).pkgRequests = [{ rq with expired := true }] ∧ after (.requestTimeout ⟨false, 1⟩ 6) { s with pkgRequests := [rq] } = { s with pkgRequests := [rq] } ∧
    (after (.ncp 1 5 7) { s with pkgRequests := [{ rq with ncr := true }] }).out = [.registerRead 7] ∧ (after (.ncp 1 5 7) { s with pkgRequests := [{ rq with ncr := true, expired := true }] }).counter 0x7005 2 = 1 ∧
    ((after (.fordEngage dir0) { s with dict := { vals := [(0x7010 * 256 + 2, 1)] } }).linkEnd dir0).forded = true ∧ ((after (.fordDisengage dir0) fd).linkEnd dir0).forded = false ∧
    fd.fordVia 0 2 = some 1 ∧ (after (.linkFrd dir0 2 m) fd).out = [.message 2 2 (msgHeader 0) []] ∧ (after (.linkFrd dir0 2 m) fd).counter 0x7010 3 = 1 ∧
    setting { s with dict := { vals := [(0x7010 * 256 + 2, 0)] } } 0x7010 2 = 0 ∧ (s.arriveMessage dir0 (2, { m with header := BitVec.ofNat 128 (2 <<< 56) })).out.map (fun o => o matches .message 2 1 _ _) = [true] ∧
    (s.arriveMessage dir0 (2, m)).forwards.map (·.vc) = [2] ∧
    (after (.ncrRegisterWrite 6 0x100CA0000000 8 0xC000000000050000) s).host.routes = [(0, 0xC000000000050000)] ∧ (after (.ncrRegisterRead 6 0x100CA0000000 8) s).out = [.registerRead 0] ∧
    s.registerAllowed 8 0x100CA0000000 58 = false ∧ (after (.ncrRegisterRead 8 0x100CA0000000 8) s).counter 0x7021 3 = 1 ∧ sgetD (after (.ncrInterrupt 3 1023) s).host.irqPending 1023 false = true ∧
    ((after (.ncrScratchpadWrite 511 0x7FFE0 (List.replicate 32 9) none) s).cluster 511).spad.length = 32 := by decide +kernel

/-! ### Crossing transport: port 0 up; group 1 open under sailing 5, bound to the kernel; key 2 on 2000h to 2FFFh -/

def nGrp (state : Nat) : BitVec 512 := BitVec.ofNat 512 (state + 5 <<< 384 + 2000 <<< 416 + 1 <<< 367 + 0x9000 <<< 448)
def nKey (rights : Nat) : BitVec 256 := BitVec.ofNat 256 (1 <<< 255 + rights <<< 249 + 5 <<< 192 + 0x1000 <<< 128 + 0x2000)
def nNet : Net := { groups := [(1, nGrp 1)], keys := [(2, nKey 7)], subports := [(0, { state := .up, lanes := [0] })] }
def nS (n : Net) (k : Kernel) : State :=
  { tS [] with net := n, mem := { cells := writeBytes (writeBytes [] 0x2000 [1, 2, 3, 4, 5, 6, 7, 8]) 0x90C0 [1] }, kernels := [(0, { k with boundGroups := [1] })], tallies := [(0, { runs := [(8, 4, 0)] })] }
/-- A packet of member 3 of group 1 with PSN 0. -/
def nPkt (kind op flags key addr tally arg : Nat) (payload : Bytes) (len : Nat) : NctIn :=
  { wellFormed := true, sub := 0, hopLimit := 64, dscp := BitVec.ofNat 6 (dictDefault 0x5010 (if kind ≤ 1 then 4 else 5)), ecn := 2, flowLabel := 0, src := 0, udpPort := 0xC000
    udpDst := BitVec.ofNat 16 (dictDefault 0x5010 3), header := BitVec.ofNat 384 (nctHeader kind op flags 5 0 1 3 key addr len tally arg), payload := payload }
def nPut (flags : Nat) : NctIn := nPkt 0 1 flags 2 8 1 0 [0xAA, 0xBB] 2
def nFlow : Nat := flowKey 0 1 3
theorem test_admission_hypotheses :
    let s := nS nNet tKernel
    s.arrivesAt 0 (nPut 0) = true ∧ s.arrivesAt 1 (nPut 0) = false ∧ s.frameOk (nPut 0) = true ∧ s.frameOk { nPut 0 with hopLimit := 0 } = false ∧ nctWellFormed (nPut 0).header.toNat [0xAA, 0xBB] = true ∧ nctWellFormed (nPut 0).header.toNat [0xAA] = false ∧ nctOp (nPut 0).header.toNat = 1 ∧
    s.sailingAccepts (nPut 0).header.toNat = true ∧ (nctFlags (nPut 0x80).header.toNat).testBit 4 = false ∧ (s.flow nFlow).cum + 1 = 0 ∧ s.flowRoom nFlow false = true ∧ flowKey (0 / 6) 1 3 = nFlow ∧
    s.packetTally (nPut 0).header.toNat false = .none ∧ s.packetTally (nPut 0x80).header.toNat false = .tally 0 9 ∧ (match s.keyTarget (nPut 0).header.toNat 250 with
      | .ok a => a == 0x2008
      | .error _ => false) = true ∧ (match s.keyTarget (nPkt 0 1 0 2 0xFFF 0 0 [1, 2] 2).header.toNat 250 with
      | .ok _ => false
      | .error c => c == 2) = true ∧ (s.hubWriteRange 10 0x2008 [0xAA, 0xBB]).isSome = true := by decide +kernel
/-- Taken once; again as a duplicate; 4,097 ahead as malformed; of an unknown sailing; a bad frame; a port that is down. -/
theorem test_admission :
    let t := fun (p : NctIn) (s : State) => after (.nctPut 0 p) s
    let s := nS nNet tKernel
    let f := fun (cum : BitVec 32) => nS { nNet with flows := [(nFlow, { cum := cum })] } tKernel
    readBytes (t (nPut 0) s).mem.cells 0x2008 2 = [0xAA, 0xBB] ∧ ((t (nPut 0) s).flow nFlow).cum = 0 ∧ (t (nPut 0) (t (nPut 0) s)).counter 0x5020 4 = 1 ∧
    (t (nPut 0) (f 0xFFFFEFFF)).counter 0x5020 7 = 1 ∧ ((t (nPut 0) (f 0xFFFFF000)).flow nFlow).recorded = [0] ∧ ((t (nPut 0) s).tallyValue 0 9) = 0 ∧ (t (nPut 0x80) s).tallyValue 0 9 = 2 ∧
    (t { nPut 0 with wellFormed := false } s).counter 0x5020 7 = 1 ∧ (t (nPut 0) (nS { nNet with groups := [(1, nGrp 2)] } tKernel)).counter 0x5020 6 = 1 ∧ after (.nctPut 1 (nPut 0)) s = s ∧
    (after (.nctGet 0 (nPut 0)) s) = s.count 0x5020 2 1 := by decide +kernel
/-- Without its right, and outside its region, a packet is answered with ERROR and changes no memory. -/
theorem test_packet_checks :
    let s := fun (r : Nat) => nS { nNet with keys := [(2, nKey r)] } tKernel
    let e := fun (t : State) => ((t.flow nFlow).unacked.map fun p => (nctOp p.header.toNat, nctArg p.header.toNat % 256))
    e (after (.nctPut 0 (nPut 0)) (s 5)) = [(0x11, 3)] ∧ (after (.nctPut 0 (nPut 0)) (s 5)).mem = (s 7).mem ∧ e (after (.nctPut 0 (nPkt 0 1 0 2 0xFFF 0 0 [1, 2] 2)) (s 7)) = [(0x11, 2)] ∧
    e (after (.nctPut 0 (nPkt 0 1 0x80 2 8 4 0 [1] 1)) (s 7)) = [(0x11, 7)] ∧ e (after (.nctAtomic 0 (nPkt 0 4 0 2 0 0 0 [1] 1)) (s 7)) = [(0x11, 6)] := by decide +kernel
theorem test_packet_reads_and_atomics :
    let s := nS nNet tKernel
    let e := fun (t : State) => ((t.flow nFlow).unacked.map fun p => (nctOp p.header.toNat, p.payload))
    e (after (.nctGet 0 (nPkt 0 2 0 2 0 0 7 [] 4)) s) = [(3, [1, 2, 3, 4])] ∧ e (after (.nctAtomic 0 (nPkt 0 4 0 2 0 0 (4 * 2 ^ 56 + 2 ^ 55) [1, 0, 0, 0, 0, 0, 0, 0] 8)) s) = [(5, [1, 2, 3, 4, 5, 6, 7, 8])] ∧
    readByte (after (.nctAtomic 0 (nPkt 0 4 0 2 0 0 (4 * 2 ^ 56) [1, 0, 0, 0, 0, 0, 0, 0] 8)) s).mem.cells 0x2000 = 2 ∧
    readByte (after (.nctReducePut 0 (nPkt 0 6 0 2 0 0 (4 * 2 ^ 56) [1, 0, 0, 0, 0, 0, 0, 0] 8)) s).mem.cells 0x2000 = 2 ∧ (after (.nctTadd 0 (nPkt 0 7 0 2 0 1 5 [] 0)) s).tallyValue 0 9 = 5 ∧
    e (after (.nctReducePut 0 (nPkt 0 6 0 2 0 0 (4 * 2 ^ 56) [1] 1)) s) = [(0x11, [])] := by decide +kernel
/-- A long ferry's IN end (tag 33h of group 1) with one slot of two free. -/
def inK : Kernel := { inKernel true with man := { (inKernel true).man with netgroups := [1] }, ferries := [(0, { slots := [.held 0, .free], matched := true })] }
def inN : Net := { nNet with inEnds := [{ kernel := 0, ferry := 0, group := 1, tag := 0x33 }] }
theorem test_long_ferry_packets :
    let s := nS inN inK
    let q := fun (t : State) => (t.kernels.map fun e => e.2.fq 0 0).headD { slots := [] }
    let tile := nPkt 0 8 0x40 0x33 0x1F 0 0 [7, 7] 2
    (match s.inTarget 1 0x33 with
      | .live e kn f => decide (e = { kernel := 0, ferry := 0, group := 1, tag := 0x33 } ∧ kn = { inK with boundGroups := [1] } ∧ f = inFerry)
      | _ => false) = true ∧ (match (nS nNet tKernel).inTarget 1 0x33 with
      | .unknown => true
      | _ => false) = true ∧ inK.queueCount inFerry = 1 ∧
    (q (after (.nctTile 0 tile) s)).slots = [.held 0, .committed] ∧ (q (after (.nctTile 0 tile) s)).tiles = 1 ∧ (q (after (.nctTile 0 tile) s)).fifo = [1] ∧ readByte ((after (.nctTile 0 tile) s).cluster 0).spad 256 = 7 ∧
    (q (after (.nctConnect 0 (nPkt 0 10 0 0x33 0 0 (1 <<< 32 + 2) [] 0)) s)).peer = 3 ∧ (q (after (.nctEnd 0 (nPkt 0 11 0 0x33 0 0 (4 <<< 32) [] 0)) s)).endCount = some 4 ∧
    (q (after (.nctAbandon 0 (nPkt 0 12 0 0x33 0 0 0 [] 0)) s)).gone = true ∧ after (.nctTile 0 tile) (nS nNet tKernel) = (nS nNet tKernel).count 0x5020 2 1 ∧
    (after (.nctConnect 0 (nPkt 0 10 0 0x33 0 0 (1 <<< 32 + 3) [] 0)) s).net.inEnds.map (·.failed) = [true] := by decide +kernel
def outFerry : Ferry := { tFerry with consumer := 0xFE, netgroup := 0, tag := 3 }
def outK : Kernel := { tKernel with man := { tMan with ferries := [outFerry], netgroups := [1] }, ferries := [(0, { slots := [.free, .free], credits := some 1 })] }
/-- Responses and errors end the operations they name. -/
theorem test_responses :
    let op : NetOp := { id := 7, flow := nFlow, user := .load 0 0x80 none, awaiting := 0, reply := true, psns := [9] }
    let s := nS { nNet with ops := [op] } tKernel
    let c := after (.nctCredit 0 (nPkt 0 9 0 3 0 0 2 [] 0)) (nS nNet outK)
    let un : TxPacket := { psn := 0, header := 0, payload := [], port := 0, sent := true, op := none }
    outFerry.isOut = true ∧ (nS nNet outK).outEnd 1 3 = some (0, 0) ∧ c.kernels.map (fun e => (e.2.fq 0 0).credits) = [some 3] ∧ s.replyOp nFlow 7 = some op ∧
    (after (.nctGetresp 0 (nPkt 1 3 0 0 0 0 7 [1, 2] 2)) s).net.ops = [] ∧ (after (.nctGetresp 0 (nPkt 1 3 0 0 0 0 8 [1, 2] 2)) s).net.ops = [op] ∧
    (after (.nctError 0 (nPkt 1 0x11 0 0 0 0 (9 <<< 32 + 5) [] 0)) s).net.ops = [] ∧
    ((after (.nctAck 0 (nPkt 2 0x10 0 0 0 0 0 [] 0)) (nS { nNet with flows := [(nFlow, { unacked := [un] })] } tKernel)).flow nFlow).unacked = [] := by decide +kernel
theorem test_atomic_response :
    let op : NetOp := { id := 7, flow := nFlow, user := .atomic 0 0, awaiting := 0, reply := true, psns := [9] }
    let g : Group := { tGroup 1 [] with wait := .atomics 0 [{ lane := 0, addr := 0, pa := 0, loc := 0, lanes := [0] }, { lane := 1, addr := 0, pa := 0, loc := 0, lanes := [1] }] }
    let s : State := { nS { nNet with ops := [op] } tKernel with groups := [(0, g)] }
    s.replyOp nFlow 7 = some op ∧ (groupAfter (.nctAtomicresp 0 (nPkt 1 5 0 0 0 0 7 [5, 0, 0, 0] 4)) s).map (·.wait) =
      some (.atomics 0 [{ lane := 0, addr := 0, pa := 0, loc := 0, lanes := [0], result := some 5 }, { lane := 1, addr := 0, pa := 0, loc := 0, lanes := [1] }]) := by decide +kernel
def fid : FlowId := { hub := 0, group := 1, member := 3 }
def sp0 : SubPort := { port := 0, sub := 0 }
theorem test_flow_timers :
    let un : TxPacket := { psn := 4, header := 0, payload := [], port := 0, sent := true, op := some 7 }
    let s := nS { nNet with flows := [(nFlow, { unacked := [un], timerUs := 5000, sinceAck := 1 })], ops := [{ id := 7, flow := nFlow, user := .core 2, awaiting := 1, psns := [4] }] } tKernel
    let f := fun (i : Instr) => (after i s).flow nFlow
    flowOf fid = nFlow ∧ (f (.nctAckTimer fid)).sinceAck = 0 ∧ (f (.retransmissionTimeout fid)).timerUs = 8000 ∧ (f (.retransmissionTimeout fid)).window = 2 ∧ (f (.operationTimeout fid 4)).killed = true ∧
    (after (.operationTimeout fid 4) s).net.ops = [] ∧ after (.operationTimeout fid 5) s = s ∧ (f (.flowStateExpiry fid)).cum = 0xFFFFFFFF ∧ after (.flowStateExpiry { fid with hub := 1 }) s = s := by decide +kernel
theorem test_ports :
    let s := fun (x : SubPortState) => nS { nNet with subports := [(0, x)] } tKernel
    let up : SubPortState := { state := .up, lanes := [0], address := 9, neighbour := some ([1], [2]) }
    let x := fun (i : Instr) (y : SubPortState) => (after i (s y)).subport 0
    (x (.portLinkLoss sp0) up) = { up with state := .down, lost := true } ∧ (x (.portLinkUp sp0) {}).state = .held ∧ (x (.portHoldExpiry sp0) { up with state := .held }).state = .up ∧ (x (.portHoldExpiry sp0) { up with state := .held, narrowed := true }).state = .narrowed ∧
    (x (.routerAdvertisement sp0 5) up).nextHop = some 5 ∧ (x (.lldpFrame sp0 [1] [3]) up).neighbour = some ([1], [3]) ∧ (after (.lldpFrame sp0 [1] [3]) (s up)).counter 0x5003 1 = 1 ∧
    (after (.neighborSolicitation sp0 9 8) (s up)).out = [.neighbourAdvertisement 0 0 9] ∧ (after (.echoRequest sp0 9 8 [4]) (s up)).out = [.echoReply 0 0 9 8 [4]] ∧ after (.echoRequest sp0 9 8 [4]) (s {}) = s {} ∧
    (after (.pauseFrame sp0) (s up)).counter 0x5020 0xC = 1 ∧ (after (.lldpTransmit sp0) (s up)).out.length = 1 ∧ (x (.networkLaneRetire 1 0) { up with lanes := [] }).lanes = [2, 3] ∧ ((x (.networkLaneRetire 1 0) { up with lanes := [] }).state) = .training ∧
    ((after .networkReferenceLoss (s up)).subport 0).lost = true ∧ ((after .networkReferenceReturn (after .networkReferenceLoss (s up))).subport 0).state = .training ∧ after .networkReferenceReturn (s up) = s up := by decide +kernel
theorem test_groups_and_keys :
    let s := fun (e : BitVec 512) => { nS { nNet with groups := [(1, e)] } { tKernel with boundGroups := [] } with dict := { vals := [(0x5040 * 256 + 1, 5)] } }
    let g := fun (i : Instr) (e : BitVec 512) => let x := (after i (s e)).groupEntry 1; (grpState x, x.testBit 11)
    (s (nGrp 0)).inShare none 4096 1 = true ∧ (s (nGrp 0)).imaging 0 = false ∧ setting (s (nGrp 0)) 0x5040 1 = 5 ∧
    g (.groupStateOpen .node 1) (nGrp 0) = (1, false) ∧ g (.groupStateOpen .node 1) (nGrp 1) = (1, true) ∧ g (.groupStateClosing .node 1) (nGrp 1) = (2, false) ∧ g (.groupStateClosing .node 1) (nGrp 1 ||| 0x1000) = (1, true) ∧
    g (.groupStateClosed .node 1) (nGrp 2) = (0, false) ∧ g (.groupStateClosing .node 1) (nGrp 0) = (0, true) ∧ g (.groupStateOpen .node 1) (nGrp 0 ||| (5 <<< 288)) = (0, true) ∧
    grpLastSail ((after (.groupClosingDone 1) (s (nGrp 2))).groupEntry 1) = 5 ∧ after (.groupClosingDone 1) (s (nGrp 1)) = s (nGrp 1) ∧
    keyValid ((after (.keyEntryValid .node 3 0x8000000000000005) { s 0 with net := { keys := [(3, BitVec.ofNat 256 (0x1000 <<< 128 + 0x2000))] } }).keyEntry 3) = true ∧
    (after (.keyEntryValid .node 3 0x8000000000000006) { s 0 with net := { keys := [(3, BitVec.ofNat 256 (0x1000 <<< 128 + 0x2000))] } }).counter 0x5020 0xA = 1 ∧
    grpState ((after (.peerCappedExpiry 1) (s (nGrp 1 ||| 0x4000))).groupEntry 1) = 1 ∧ ((after (.peerCappedExpiry 1) (s (nGrp 1 ||| 0x4000))).groupEntry 1).testBit 14 = false := by decide +kernel

/-! ### Schedules: slot 0 of hub 0, a schedule of one step at 3000h -/

def stepRec (op : Nat) (n : Nat) : Nat := op + 1 <<< 239 + 5 <<< 256 + 1 <<< 288 + n <<< 320 + 2 <<< 352 + 8 <<< 384 + 0x2000 <<< 448
def schS (r : Nat) (x : SchedSlot) (tally : W64) : State :=
  let s := nS { nNet with sched := [(0, x)] } tKernel
  { s with mem := { s.mem with cells := writeBytes s.mem.cells 0x3000 (toLE 64 (1 + 1 <<< 32 + 1 <<< 48 + 2 <<< 64) ++ toLE 64 r) }, tallies := [(0, { runs := [(8, 4, 0)], vals := [(9, tally)] })] }
def runX : SchedSlot := { addr := 0x3000, base := 0x3000, state := 1, group := 1, steps := 1, done := 2 }
theorem test_schedule_hypotheses :
    let s := schS (stepRec 1 2) runX 5
    let h := fromLE (s.peekBytes 0x3000 64).1
    (s.peekBytes 0x3000 64).2 = false ∧ h / 2 ^ 96 = 0 ∧ field h 12 20 = 0 ∧ field h 48 16 = 1 ∧ field h 32 16 = 1 ∧ field h 0 12 = 1 ∧ grpState (s.groupEntry 1) = 1 ∧ s.rangeHeld 0 0x3000 128 = true ∧
    s.schedStep runX 0 = (stepRec 1 2, false) ∧ s.stepOk 1 (stepRec 1 2) = true ∧ (s.boundKernel 1).map Prod.fst = some 0 ∧ tKernel.tallyOf 1 4 = some (0, 9) ∧ (s.peekBytes 0x2000 2) = ([1, 2], false) := by decide +kernel
theorem test_seq_go :
    let t := fun (w : BitVec 4) (x : SchedSlot) => (after (.seqGo 0 0 w) (schS (stepRec 1 2) x 5)).slotReg 0
    t 8 { runX with state := 0, base := 0, group := 0, steps := 0, done := 0 } = runX ∧ t 4 { runX with state := 0, base := 0 } = { runX with state := 0, base := 0 } ∧
    (after (.seqGo 0 0 8) (schS (stepRec 1 2) runX 5)).counter 0x5050 3 = 1 ∧
    ((after (.seqGo 0 0 8) { schS (stepRec 1 2) { runX with state := 0 } 5 with kernels := [] }).slotReg 0).state = 3 := by decide +kernel
theorem test_schedule_steps :
    let t := fun (i : Instr) (r : Nat) => after i (schS r runX 5)
    let u := fun (i : Instr) (r : Nat) => ((t i r).flow (flowKey 0 1 1)).unacked.map fun p => (nctOp p.header.toNat, p.payload)
    u (.schedulePut 0 0) (stepRec 1 2) = [(1, [1, 2])] ∧ u (.scheduleReduce 0 0) (stepRec 2 8) = [(6, [1, 2, 3, 4, 5, 6, 7, 8])] ∧ u (.scheduleTadd 0 0) (stepRec 3 0) = [(7, [])] ∧
    ((t (.schedulePut 0 0) (stepRec 1 2)).slotReg 0).inFlight = [(0, 0)] ∧ t (.scheduleNop 0 0) (stepRec 1 2) = schS (stepRec 1 2) runX 5 ∧
    ((t (.scheduleNop 0 0) (stepRec 0 0)).slotReg 0).state = 2 ∧ (t (.scheduleNop 0 0) (stepRec 0 0)).tallyValue 0 10 = 1 ∧ (t (.scheduleNop 0 0) (stepRec 0 0)).counter 0x5050 1 = 1 := by decide +kernel
/-- A WAIT for a tally of at least 2000h. -/
theorem test_schedule_wait :
    ((after (.scheduleWait 0 0) (schS (stepRec 4 0) runX 0x2000)).slotReg 0).state = 2 ∧ after (.scheduleWait 0 0) (schS (stepRec 4 0) runX 0x1FFF) = schS (stepRec 4 0) runX 0x1FFF ∧
    (after (.schedulePut 0 0) (schS (stepRec 1 0) runX 0)).net.ops = [] := by decide +kernel

/-! ### Memory repair -/

def rS (x : Stack) : State := { mem := { hbmStacks := [(15, x)] } }
theorem test_repair_port :
    let x := fun (i : Instr) (y : Stack) => (after i (rS y)).stack 15
    x (.pcStatus 15) { wdrin := 7 } = { wir := 1, busy := true, running := 1, operand := 7, wdrin := 7 } ∧ x (.rowRepair 15) { busy := true } = { busy := true, wir := 3 } ∧ x (.wrapperBypass 15) {} = { busy := true } ∧
    (x (.repairInfo 15) {}).running = 2 ∧ (x (.bankRepair 15) {}).running = 4 ∧ x (.wrapperTimeout 15) { busy := true } = { result := 5 } ∧ x (.wrapperTimeout 15) {} = {} ∧
    x (.wrapperInstructionDone 15) { busy := true, running := 0 } = { running := 0, result := 4 } ∧ x (.wrapperInstructionDone 15) { busy := true, running := 3 } = { running := 3, result := 3 } ∧
    (x (.wrapperInstructionDone 15) { busy := true, running := 1 }).wdrout = 0x0101010101010101 := by decide
/-- Two symbols are corrected in ECC mode 0; in mode 1 one is, and three are lost. -/
theorem test_scrub :
    let s : State := { mem := { cells := writeBytes [] 0x60 [7] } }
    s.keyAddr 0x60 = some 0x60 ∧ setting s 0x4020 1 ≠ 0 ∧ s.lossAt 0x60 = .none ∧ s.marked 0x60 = false ∧ after (.patrolScrub 0x60 (.symbols 0 0)) s = s ∧
    (after (.patrolScrub 0x60 (.symbols 2 0)) s).marked 0x60 = false ∧ (after (.patrolScrub 0x60 (.symbols 2 0)) s).mem.events.length = 1 ∧ (after (.patrolScrub 0x7F (.symbols 3 0)) { s with mem := { s.mem with eccMode := 1 } }).marked 0x60 = true ∧ (after (.patrolScrub 0x7F (.symbols 1 0)) { s with mem := { s.mem with eccMode := 1 } }).marked 0x60 = false ∧ after (.patrolScrub 0x020000000000 (.symbols 3 0)) s = s ∧
    (s.sectorLost 0x60 0).marked 0x60 = true ∧ ((after (.patrolScrub 0x080000000000 (.symbols 2 0)) s).counter 0x4014 2) = 0 ∧ ((after (.patrolScrub 0x080000000000 (.symbols 2 0)) { s with mem := { s.mem with eccMode := 1 } }).counter 0x4014 2) = 1 ∧
    (after (.patrolScrub 0x60 (.symbols 5 0)) { s with mem := { s.mem with poison := [(3, true)] } }).counter 0x4013 1 = 1 := by decide +kernel
theorem test_fill_and_failures :
    let x := fun (i : Instr) (y : Stack) => (after i (rS y)).stack 15
    (x (.fillGranule 15 (.sectors 0)) { fill := some (961, 7, 4882811) }).fill = some (961, 7, 4882812) ∧ (x (.fillGranule 15 (.sectors 0)) { fill := some (961, 7, 4882812) }).fill = none ∧ after (.fillGranule 15 .slotFault) (rS {}) = rS {} ∧
    (after (.tier2PackageFailure 23) (rS {})).mem.failedPkgs = [23] ∧ (after (.tier2PackageFailure 23) { mem := { failedPkgs := [23] } }).mem.failedPkgs = [23] ∧
    ((after (.pseudoChannelHardFailure 1023) (rS {})).pc 1023).retired = true ∧ ((after (.pseudoChannelHardFailure 1023) (rS { fill := some (1023, 7, 5) })).pc 1023).failedHard = true ∧
    (x (.stackZeroed 15) { offline := true, zeroing := true }).offline = false ∧ after (.stackZeroed 15) (rS {}) = rS {} ∧
    (after (.stackZeroed 0) { mem := { hbmStacks := [(0, { offline := true, zeroing := true })], cells := writeBytes [] 0 [1] } }).mem.cells = [] := by decide

/-! ### Power, temperatures, pins -/

def pwS (w : Power) : State := { power := w }
theorem test_power_commands :
    let s := pwS {}
    let h := fun (i : Instr) (w : Power) => (after i (pwS w)).half 0
    ((after (.telemetryRecord 8 { power := 5, junction := 300, dram := [] }) s).dpow 8).telemetry.isSome = true ∧ ((after (.telemetryMissing 8) s).dpow 8).missing = true ∧
    (h (.limiterPeriod 0 390 0) {}).bubble = 0 ∧ ((after (.dieFallback 5) s).dpow 5).watchdog = true ∧ after (.dieFallback 6) s = s ∧ ((after (.powerManagerCommand 0 true) (pwS { dies := [(0, { watchdog := true })] })).half 1).capAllowed = 1 ∧
    after (.powerManagerCommand 0 true) s = s ∧ (after .managerTakeover s).power.manager = 1 ∧ after .managerTakeover (pwS { manager := 1 }) = pwS { manager := 1 } := by decide +kernel
/-- Over the cap a core ceiling falls by 100 MHz from what is in force, its cap's share opaque (R351; log 36). -/
theorem test_core_ceiling :
    ({ pwS {} with power := { alert := true } } : State).ceilingOf 4 = 800 ∧ coreReq 950 = 900 ∧ coreReq 5000 % 100 = 0 ∧ least 5 3 = 3 := by decide
/-- A half of 395 W over a cap of 390 W at point 9: 5 W of 80 W dynamic is one bubble in 16. -/
theorem test_limiter :
    let s : State := { tState (tGroup 1 []) with power := {} }
    (s.halfGroups 0).length = 1 ∧ s.pointOf 0 = 3 ∧ ((after (.limiterPeriod 0 395 80) s).half 0).bubble = 1 ∧ ((after (.limiterPeriod 0 396 80) s).half 0).bubble = 2 ∧
    ((after (.limiterPeriod 0 390 80) s).half 0).bubble = 0 ∧ ((after (.limiterPeriod 0 395 0) s).half 0).bubble = 16 * 300 / 900 := by decide
theorem test_alert :
    let s := pwS {}
    let a := after .pwrAlertAssert s
    a.power.alert = true ∧ a.counter 0x3040 1 = 1 ∧ a.pointOf 0 = 1 ∧ after .pwrAlertRelease s = s ∧ (after .pwrAlertRelease a).power.hold = true ∧ after .alertHoldExpiry s = s ∧
    ((after .alertHoldExpiry (after .pwrAlertRelease a)).half 7).ramp = some 2 ∧ after (.capDisengage 0) s = s ∧ sgetD (after (.capDisengage 0) (pwS { capEngaged := [(0, true)] })).power.capEngaged 0 false = false := by decide
theorem test_temperatures :
    let t := fun (p : ThermalPart) (c : Int) (x : Thermal) (k : Nat) => (after (.thermalSample p c) (pwS { thermal := [(k, x)] }))
    let f := fun (p : ThermalPart) (c : Int) (x : Thermal) (k : Nat) => let y := (t p c x k).thermal k; (y.throttle, y.limit, y.cool)
    f (.die 8) 950 {} 8 = (true, false, 0) ∧ f (.die 8) 949 {} 8 = (false, false, 0) ∧ f (.die 8) 920 { throttle := true } 8 = (true, false, 0) ∧ f (.die 8) 919 { throttle := true } 8 = (false, false, 0) ∧
    f (.dram 15) 850 {} 47 = (true, false, 0) ∧ f (.dram 15) 819 { throttle := true } 47 = (false, false, 0) ∧ f (.baseDie 0) 1050 {} 16 = (true, true, 0) ∧ (t (.die 0) 1050 {} 0).counter 0x3040 4 = 1 ∧
    f (.die 0) 1000 { limit := true, cool := 3 } 0 = (true, true, 0) ∧ f (.die 0) 999 { limit := true, cool := 18 } 0 = (true, true, 19) ∧ f (.die 0) 999 { limit := true, cool := 19 } 0 = (true, false, 20) ∧
    (t (.die 0) 1150 {} 0).pins.tripLatched = true ∧ (t (.dram 0) 1050 {} 32).counter 0x3041 1 = 2 ∧ (t (.die 0) 1149 {} 0).pins.tripLatched = false := by decide
theorem test_pins :
    let p := fun (i : Instr) (q : Pins) => (after i { pins := q, mem := { cells := writeBytes [] 0 [1] } })
    let off : Pins := { pgood := false, nodeReset := true }
    (p .pwrEnAssert { off with pwrEn := false }).pins = { off with railsRising := true } ∧ (p .pwrEnAssert { off with tripLatched := true }).pins.railsRising = false ∧ (p (.pwrEnDeassert true) { off with tripLatched := true }).pins.tripLatched = false ∧
    (p (.pwrEnDeassert false) {}).pins.pgood = false ∧ (p (.pwrEnDeassert false) {}).mem.cells = [] ∧ (p .railsInTolerance { off with railsRising := true }).boot.stage = 1 ∧ (p .railsInTolerance { off with railsRising := true, modResetN := false }).pins.nodeReset = true ∧
    (p .modResetAssert {}).boot.stage = 0 ∧ (p .modResetAssert {}).mem.cells = writeBytes [] 0 [1] ∧ (p .modResetRelease { nodeReset := true, modResetN := false }).boot.stage = 1 ∧ (p .modResetRelease off).pins = off ∧
    (p .undervoltageShutdown {}).counter 0x3041 1 = 3 ∧ (p .overvoltageShutdown off).pins = { off with inputInRange := false } ∧ (p .inputRestart { off with inputInRange := false }).pins = { off with railsRising := true } ∧
    (p .oscillatorLoss {}).boot.stage = 0 ∧ (p .oscillatorReturn { nodeReset := true, oscillator := false }).boot.stage = 1 ∧ (p .oscillatorReturn {}).pins = {} := by decide
theorem test_flush_handshake :
    let s : State := { clusters := [(511, { tCluster with kernel := none, spad := writeBytes [] 0 [1], l1 := [{ line := 0, data := {} }] })] }
    let b : Boundary := .cluster 511
    let r := after (.resetRequest b) s
    s.mayReset b = true ∧ (tS []).mayReset (.cluster 0) = false ∧ r.flushes = [b] ∧ after (.resetRequest b) r = r ∧ (after (.flushAcknowledgement b) r).flushes = [] ∧ ((after (.flushAcknowledgement b) r).cluster 511).l1 = [] ∧
    ((after (.flushAcknowledgement b) r).cluster 511).spad = writeBytes [] 0 [1] ∧ (after (.flushTimeout b) r).counter 0x8032 1 = 1 ∧ (after (.flushTimeout b) r).flushes = [] ∧ after (.flushTimeout b) s = s ∧ after (.flushAcknowledgement b) s = s ∧
    after (.resetRequest (.cluster 0)) (tS []) = tS [] := by decide +kernel
/-- IDCODE 1462_3DC7h is shifted out least significant bit first. -/
theorem test_access_port :
    let s : State := { trstHeld := false, pins := { modResetN := false, nodeReset := true } }
    let ir := fun (i : Instr) => (sgetD (after i s).taps 0 {}).ir
    (after (.tapIdcode 0) s).out = [.tdo 0 ((List.range 32).map fun i => (0x14623DC7 : Nat).testBit i)] ∧ ir (.tapBypass 0) = 0xFF ∧ ir (.tapExtest 0 []) = 3 ∧ ir (.tapExtestPulse 0 []) = 4 ∧ ir (.tapExtestTrain 0 []) = 5 ∧ ir (.tapClamp 0) = 6 ∧ ir (.tapHighz 0) = 7 ∧
    ir (.tapSamplePreload 0 []) = 2 ∧ (sgetD (after (.tapSamplePreload 1 (List.replicate 812 true)) s).taps 1 {}).boundary.length = 812 ∧ (sgetD (after (.tapSamplePreload 1 (List.replicate 860 true)) s).taps 1 {}).boundary = [] ∧
    (sgetD (after (.tapExtest 0 []) { s with pins := {} }).taps 0 {}).ir = 0xFF ∧ after (.tapClamp 0) { s with trstHeld := true } = { s with trstHeld := true } ∧
    (sgetD (after .modResetRelease { s with taps := [(0, { ir := 3 })] }).taps 0 {}).ir = 1 ∧ (sgetD (after .trstAssert { s with taps := [(0, { ir := 0xFF })] }).taps 0 {}).ir = 1 ∧ (after .trstRelease State.reset).trstHeld = false := by decide +kernel

/-! ### Boot, recovery and update -/

def bS (b : Boot) : State := { boot := b, mem := { cells := writeBytes [] 0 [1] } }
theorem test_boot_stages :
    let st := fun (i : Instr) (n : Nat) => (after i (bS { stage := n })).boot.stage
    st .bootRom 1 = 2 ∧ st (.bootIdentity true) 2 = 3 ∧ st (.bootIdentity false) 2 = 0xFF ∧ st .bootImage 2 = 2 ∧ (after .bootImage { bS { stage := 3, recoveryRequested := true } with dict := { stored := some [(0x9040 * 256 + 2, 1)] } }).boot.stage = 0x80 ∧
    st .bootHandover 4 = 5 ∧ (after .bootHandover (bS { stage := 4, counter1 := 1 })).boot.stage = 0xFF ∧ (bS { stage := 4, counter1 := 1 }).security = none ∧ st (.bootPackageLinks ⟨0, []⟩ none) 5 = 6 ∧
    st (.bootProcessorDies 0) 7 = 8 ∧ (after (.bootProcessorDies 2) (bS { stage := 7 })).die 1 = 3 ∧ st .bootHostPorts 8 = 9 ∧ (sgetD (after .bootHostPorts (bS { stage := 8 })).host.ports 1 {}).link = 1 ∧ st (.bootNetwork 0) 9 = 0x0A ∧
    after .bootRom { bS { stage := 1 } with pins := { nodeReset := true } } = { bS { stage := 1 } with pins := { nodeReset := true } } := by decide +kernel
theorem test_boot_memory :
    let t := fun (p : Bool) => after (.bootMemory 0x8000 1) (bS { stage := 6, powerOn := p })
    (t true).mem.cells = [] ∧ (t false).mem.cells = writeBytes [] 0 [1] ∧ ((t true).stack 15).failed = true ∧ (t true).mem.failedPkgs = [0] ∧ (t true).boot.degraded = 2 ∧ (t true).boot.clearing = true ∧
    (after (.memoryClearingDone 70) (bS { stage := 0x0A, clearing := true })).counter 0x9070 2 = 70 ∧ after (.memoryClearingDone 70) (bS { stage := 0x0A }) = bS { stage := 0x0A } := by decide
/-- Chunk and address of a recovery request. -/
def asksFor : Out → Nat × Nat
  | .recoveryRead n mac _ => (n, mac)
  | _ => (0, 0)
/-- The last request of R416's example carries SUB 60h, OFFSET 3C00h and LENGTH 0400h. Images that fail: no magic (10h); a read-back of another digest is not seen here, since SHA3 is opaque. -/
theorem test_recovery :
    let s := fun (b : Boot) => bS { b with stage := 0x80 }
    let c := fun (i : Instr) (b : Boot) => (after i (s b)).boot
    (c (.recGo 4) {}).recStatus = 0x10 ∧ (after (.recGo 4) (s {})).counter 0x9090 1 = 1 ∧ after (.recGo 8) (s {}) = s {} ∧ after (.recGo 4) (s { recStatus := 2 }) = s { recStatus := 2 } ∧
    (c (.recoveryChunkResponse 0 [1]) { recNetwork := true }).recStatus = 0x10 ∧ after (.recoveryChunkResponse 1 [1]) (s { recNetwork := true }) = s { recNetwork := true } ∧
    (after (.recoveryChunkResponse 0 (List.replicate 64 1)) (s { recNetwork := true })).out.map asksFor = [(1, 0xFFFFFFFFFFFF)] ∧ (after .recoveryRetry (s { recNetwork := true, recFailures := 14 })).out.map asksFor = [(0, 0xFFFFFFFFFFFF)] ∧
    chunkRequest 7 6159 = [0x10, 1, 0, 0, 0, 7, 0x9F, 0, 0x60, 0, 0x3C, 0, 4, 0, 0, 0] ∧
    (c .recoveryRetry { recNetwork := true, recFailures := 15 }).recNetwork = false ∧ after (.recoveryImageWritten []) (s {}) = s {} := by decide
theorem test_read_back_hypothesis (img : Bytes) : imgDigest img = imgDigest ((bS { image := some img }).boot.image.getD Config.flashImage) := rfl
theorem test_update_and_os_image :
    let s := bS { stage := 0x0A, updating := some 0 }
    (after (.updateDone []) s).boot.updateStatus = 0x10 ∧ (after (.updateDone []) s).boot.updating = none ∧ after (.updateDone []) (bS {}) = bS {} ∧
    (let o : State := { bS { stage := 0x0A } with dict := { vals := [(0x6040 * 256 + 1, 1)] } }
     setting o 0x6040 1 = 1 ∧ (after (.osImageLoaded 0 []) o).mem.events.length = 1 ∧ after (.osImageLoaded 0 []) (bS { stage := 0x0A }) = bS { stage := 0x0A }) := by decide
/-- An OS image that needs no signature: magic 4F53_494Dh, version 1, loaded at 20_0000h. -/
def osImg : Bytes := toLE 32 (0x4F53494D + 1 <<< 32 + 0x200000 <<< 64 + 64 <<< 128 + 0x10 <<< 192) ++ List.replicate 32 0
theorem test_os_hypotheses :
    let o : State := { bS { stage := 0x0A } with dict := { vals := [(0x6040 * 256 + 1, 1), (0x9032 * 256 + 1, 0)] } }
    o.osHeaderOk 0 osImg = true ∧ osSize osImg = 64 ∧ o.osSigned osImg = true ∧ osEntry osImg = 0x10 ∧ (o.hubWriteRange 10 (osLoad osImg) (osImg.take 64)).isSome = true ∧ (o.hart 0).running = false := by decide

/-! ### The dictionary -/

def dS (d : Dict) : State := { dict := d, boot := { stage := 0x0A, powerOn := false } }
/-- Statuses: 4 role, 6 range, 7 refused, 3 access class, 9 busy, 0 done. -/
theorem test_object_statuses :
    let o := fun (i : Instr) (d : Dict) => (after i (dS d)).out
    o (.stackOfflineRequest .observer 0) {} = [.dictStatus 4] ∧ o (.stackOfflineRequest .operator 3) {} = [.dictStatus 0] ∧ o (.stackOfflineRequest .operator 0x10) {} = [.dictStatus 6] ∧
    o (.storeCommand .owner 0x65766173) {} = [.dictStatus 0] ∧ o (.storeCommand .owner 0x65766173) { saving := some [] } = [.dictStatus 9] ∧ o (.storeCommand .owner 1) {} = [.dictStatus 6] ∧
    after (.storeCommand .owner 0x65766173) (bS { stage := 4 }) = bS { stage := 4 } ∧ ((after (.stackOfflineRequest .operator 3) (dS {})).stack 3).offline = true ∧ (after (.storeCommand .owner 0x65766173) (dS {})).dict.saving = some [] ∧
    (after (.restoreCommand .owner 0x64616F6C) (dS { stored := some [] })).dict.stored = none := by decide
theorem test_object_writes :
    let t := fun (i : Instr) => after i (dS {})
    (t (.slackWater .owner 7 9)).flip 7 = { pending := some 9 } ∧ setting (t (.partitionSailing .owner 0 9)) 0x5040 1 = 9 ∧ setting (t (.groupImageAddress .owner 0 0x1000)) 0x5060 1 = 0x1000 ∧
    sgetD (t (.groupImageAddress .owner 0 0x1000)).mem.groupImage 0 0 = 1 ∧ sgetD (t (.groupImageAddress .owner 0 0x1001)).mem.groupImage 0 0 = 3 ∧
    (t (.directoryProbeAddress .owner (.core 0) 0x80)).dict.probing = true ∧ (t (.recoveryRequest .owner 1)).boot.recoveryRequested = true ∧ (t (.updateFromAddress .owner 0x80)).boot.updating = some 0x80 ∧
    (t (.updateFromNetwork .owner 1)).boot.updateNetwork = true ∧ (t (.bootNow .owner 0 1)).out = [.dictStatus 0] := by decide
theorem test_drains_and_slots :
    let tw : Twin := { mode := 0, draining := true, valid := true }
    let s : State := { dS {} with mem := { twins := [(255, tw)], slots := [(7, { pc := 9, filled := true })], pcs := [(9, { retired := true })], hbmStacks := [(0, { offline := true })] } }
    ((after (.drainDone .owner 255) s).twin 255).draining = false ∧ ((after (.drainDoneFailed .owner 255) s).twin 255).drainFail = true ∧ (after (.spareSlotFree .owner 7) s).mem.slots = [] ∧ ((after (.spareSlotFree .owner 7) s).pc 9).retired = false ∧
    (after (.commitFloor .owner 1) { dS {} with boot := { stage := 0x0A, running := some (1, 7, 0) } }).boot.counter0 = 7 := by decide
theorem test_ownership :
    let own : State := { dS {} with boot := { stage := 0x0A, counter1 := 1, records := [{ generation := 1, ownerHash := 5, ownerKey := none, operatorKey := none }] } }
    let free : State := { dS {} with boot := { stage := 0x0A, records := [{ generation := 0, ownerHash := 0, ownerKey := some 1, operatorKey := none }] } }
    ((after (.ownerKeyHashEnrol .owner 5) free).boot.counter1, (after (.ownerKeyHashEnrol .owner 5) free).ownerHash) = (1, 5) ∧ (after (.ownerKeyHashEnrol .owner 5) (dS {})).out = [.dictStatus 7] ∧ own.owned = true ∧ (after (.releaseOwnership .owner 0x736C6572) own).owned = false ∧
    (after (.ownerRoleKey .owner 7) own).roleKey true = some 7 ∧ (after (.operatorRoleKey .owner 7) own).roleKey false = some 7 ∧ (after (.operatorRoleKey .owner 7) own).owned = true ∧
    own.mayWrite .operator 0x9010 1 = false ∧ (dS {}).mayWrite .operator 0x9010 1 = true := by decide +kernel
theorem test_object_events :
    let tw : Twin := { valid := true, cur := false }
    let fl := fun (t : Twin) (d : Nat) => ({ dS {} with dict := { vals := [(0x4072 * 256 + 1, d)] }, mem := { twins := [(0, t)], flips := [(0, { pending := some 3 })] } } : State)
    let dr := fun (n : Nat) => ({ dS {} with mem := { twins := [(0, { tw with mode := 1, draining := true, stage := n })] } } : State)
    (after (.storeSaveDone true) (dS { saving := some [(1, 1)] })).dict.stored = some [(1, 1)] ∧ (after (.storeSaveDone false) (dS { saving := some [] })).counter 0x2001 1 = 2 ∧ after (.storeSaveDone true) (dS {}) = dS {} ∧
    (after (.sessionIdleTimeout 4) (dS { sessions := [{ id := 4, channel := .core 0, owner := true, nonce := 0, counter := 0 }] })).dict.sessions = [] ∧ (after (.resourceHoldExpiry 2) (dS { indexHolder := [(2, .core 0)] })).dict.indexHolder = [] ∧
    after .nonCoherentTagStateRelease (dS {}) = dS {} ∧ (after .nonCoherentTagStateRelease { dS {} with counters := [(0x2010 * 256 + 1, 1)] }).counter 0x2010 1 = 0 ∧
    (after .directoryProbeDone (dS { probing := true })).dict.probing = false ∧ after .directoryProbeDone (dS {}) = dS {} ∧
    ((after (.twinFlip 0) (fl tw 0)).twin 0).cur = true ∧ ((after (.twinFlip 0) (fl { tw with mode := 0 } 1)).twin 0).draining = true ∧ after (.twinFlip 1) (fl tw 0) = fl tw 0 ∧
    ((after (.hubDrainEnd 0 true 5) (dr 2)).twin 0).draining = false ∧ ((after (.hubDrainEnd 0 false 5) (dr 1)).twin 0).drainFail = true ∧ after (.hubDrainEnd 1 true 5) (dr 2) = dr 2 ∧ after (.groupImageDone 0) (dS {}) = dS {} := by decide
/-- A header: version 1, a request, SERVICE, TID 7, INDEX, SUB, OFFSET 0, LENGTH. -/
def frame (service index sub length : Nat) : Bytes := toBE 16 (1 <<< 124 + service <<< 112 + 7 <<< 80 + index <<< 64 + sub <<< 56 + length <<< 16)
def t1 : Channel := .t1s false 5
theorem test_frames :
    let o := fun (b : Bytes) => let r := (dS {}).service t1 b none; (r.2.1, r.2.2.length)
    o (frame 1 0x1020 4 1) = (0, 1) ∧ o (frame 1 0xFFFE 1 1) = (1, 0) ∧ o (frame 1 0x1020 0xFE 1) = (2, 0) ∧ o (frame 2 0x4040 1 1 ++ [0]) = (4, 0) ∧ o (frame 0 0x1020 4 0) = (0x0C, 0) ∧
    (o (frame 3 0x1020 4 0)).1 = 0 ∧ o (frame 4 0x1020 4 0) = (0, 3) ∧ o (frame 5 0 0 1 ++ [2]) = (0, 18) ∧ o (frame 6 0 0 0) = (0x0A, 0) ∧ o (frame 5 0 0 1 ++ [4]) = (6, 0) ∧
    (dS {}).respondFrame (frame 1 0x1020 4 1) 0 [1] none = toBE 16 (1 <<< 124 + 1 <<< 120 + 1 <<< 112 + 7 <<< 80 + 0x1020 <<< 64 + 4 <<< 56 + 1 <<< 16) ++ [1] := by decide
theorem test_frame_hypotheses :
    let m : State := dS { mailboxes := [(fnKey 0 0, { busy := true, req := [(0, 0x10), (2, 1)] })] }
    let ses : State := dS { sessions := [{ id := 4, channel := t1, owner := true, nonce := 0, counter := 0 }] }
    mmFrameOk (frame 1 0x1020 4 1) = true ∧ mmFrameOk (frame 1 0x1020 4 1025) = false ∧ mmFrameOk (frame 1 0x1020 4 1 ++ [0]) = false ∧ mmTagged (mmHeader (frame 1 0x1020 4 1)) = false ∧ (m.mailbox (fnKey 0 0)).busy = true ∧
    readBytes (m.mailbox (fnKey 0 0)).req 0 3 = [0x10, 0, 1] ∧ (dS {}).dict.kept.find? (fun k => sameSource k.channel t1 && k.frame = frame 1 0x1020 4 1) = none ∧ ses.authenticate t1 (frame 1 0x1020 4 1) = none ∧ nextSub 0x1020 4 ≠ none ∧
    setting (dS {}) 0x1020 4 ≠ 1 ∧ after (.dictRead (.inBand 1 2) (frame 1 0x1020 4 1)) (dS {}) = dS {} ∧ after (.dictNext t1 (frame 1 0x1020 4 1)) (dS {}) = dS {} ∧ after (.dictRead t1 (frame 1 0x1020 4 1)) (bS { stage := 4 }) = bS { stage := 4 } ∧
    nctWellFormed (nctHeader 3 0x20 0 0 0 0 0 0 0 16 0 0) (frame 1 0x1020 4 1) = true ∧ ((dS {}).count 0x5020 2 1).sailingAccepts (nctHeader 3 0x20 0 0 0 0 0 0 0 16 0 0) = true := by decide

/-! ### SPDM -/

def sp : SpdmTransport := .doe 0
def spS (phase : Nat) : State := { dS {} with boot := { stage := 0x0A, spdm := [{ transport := sp, phase := phase }] } }
theorem test_spdm :
    let o := fun (i : Instr) (n : Nat) => ((after i (spS n)).out.map fun x => match x with
      | .spdm _ f => f.take 4
      | _ => [])
    o (.spdmGetVersion sp [0x10, 0x84, 0, 0]) 0 = [[0x10, 0x04, 0, 0]] ∧ ((after (.spdmGetVersion sp [0x10, 0x84, 0, 0]) (spS 3)).spdmConn sp).phase = 1 ∧ o (.spdmGetCapabilities sp ([0x13, 0xE1, 0, 0] ++ List.replicate 16 0)) 0 = [[0x13, 0x7F, 4, 0]] ∧
    ((after (.spdmGetCapabilities sp ([0x13, 0xE1, 0, 0] ++ List.replicate 16 0)) (spS 1)).spdmConn sp).phase = 2 ∧ o (.spdmGetDigests sp [0x12, 0x81, 0, 0]) 3 = [[0x13, 0x7F, 0x41, 0]] ∧ o (.spdmGetDigests sp [0x13, 0x81, 0, 0]) 2 = [[0x13, 0x7F, 4, 0]] ∧
    o (.spdmGetDigests sp [0x13, 0x81, 0, 0]) 3 = [[0x13, 0x01, 1, 1]] ∧ o (.spdmNegotiateAlgorithms sp ([0x13, 0xE3, 0, 0] ++ List.replicate 28 0)) 2 = [[0x13, 0x7F, 1, 0]] ∧ o (.spdmUnsupported sp [0x13, 0xEE, 0, 0]) 3 = [[0x13, 0x7F, 7, 0xEE]] ∧
    o (.spdmGetCertificate sp [0x13, 0x82, 1, 0, 0, 0, 1, 0]) 3 = [[0x13, 0x7F, 1, 0]] ∧ o (.spdmChallenge sp [0x13, 0x83, 1, 0]) 2 = [[0x13, 0x7F, 4, 0]] ∧ o (.spdmGetMeasurements sp [0x13, 0xE0, 0, 15]) 3 = [[0x13, 0x7F, 1, 0]] ∧
    o (.spdmChunkGet sp [0x13, 0x86, 0, 0, 0, 0]) 3 = [[0x13, 0x7F, 4, 0]] ∧ o (.spdmChunkSend sp ([0x13, 0x85, 0, 9, 0, 0, 0, 0] ++ toLE 4 2 ++ toLE 4 5 ++ [1, 2])) 3 = [[0x13, 5, 0, 9]] ∧ o (.spdmGetVersion sp [0x10, 0x84, 0]) 0 = [] ∧ o (.spdmGetVersion sp [0x10, 0x81, 0, 0]) 0 = [] := by decide
/-- An algorithm offer with ML-DSA-87 and SHA3-512 is taken. -/
theorem test_spdm_negotiation :
    let q : Bytes := [0x13, 0xE3, 1, 0, 0, 0, 1, 0] ++ toLE 4 0 ++ toLE 4 0x20 ++ List.replicate 12 0 ++ [0, 0, 0, 0] ++ [0, 0, 0x87, 0]
    (le q 12 4).testBit 5 = true ∧ (le q 6 1).testBit 0 = true := by decide

/-! ### Processor cores -/

def hartS (x : Hart) : State := { dS {} with host := { qHost {} with harts := [(0, { x with running := true })] }, mem := { cells := writeBytes [] 0x2000 [1, 2, 3, 4, 5, 6, 7, 8] } }
def cAcc (op : CoreOp) (a : PA) (w : BitVec 7) (v : BitVec 512) : CoreAccess := { op := op, addr := a, width := w, value := v, amo := .add }
theorem test_core_accesses :
    let h := fun (a : CoreAccess) (x : Hart) => (after (.coreAccess 0 a) (hartS x)).hart 0
    let m := fun (a : CoreAccess) (x : Hart) => let t := after (.coreAccess 0 a) (hartS x); (after (.cboFlush 0 .flush 0x2000) t).mem.cells
    (h (cAcc .load 0x2000 8 0) {}).lastLoad = 0x0807060504030201 ∧ (h (cAcc .fetch 0x2001 4 0) {}).lastLoad = 0x05040302 ∧ readByte (m (cAcc .store 0x2000 1 9) {}) 0x2000 = 9 ∧ (h (cAcc .lr 0x2000 4 0) {}).reservation = some 0x2000 ∧
    (h (cAcc .sc 0x2004 4 9) { reservation := some 0x2000 }).lastLoad = 0 ∧ readByte (m (cAcc .sc 0x2004 4 9) { reservation := some 0x2000 }) 0x2004 = 9 ∧ (h (cAcc .sc 0x2004 4 9) {}).lastLoad = 1 ∧ readByte (m (cAcc .sc 0x2004 4 9) {}) 0x2004 = 5 ∧
    (h (cAcc .amo 0x2000 4 1) {}).lastLoad = 0x04030201 ∧ readByte (m (cAcc .amo 0x2000 4 1) {}) 0x2000 = 2 ∧ (h (cAcc .amo 0x2002 4 1) {}).accessFault = some 2 ∧ (h (cAcc .load 0x020000000000 8 0) {}).accessFault = some 1 ∧
    (h (cAcc .fetch 0x020000000000 4 0) {}).accessFault = some 3 ∧ after (.coreAccess 1 (cAcc .load 0x2000 8 0)) (hartS {}) = hartS {} := by decide +kernel
theorem test_core_windows :
    let t := fun (a : CoreAccess) => after (.coreAccess 0 a) (hartS {})
    (t (cAcc .store 0x100CA0000000 8 0xC000000000000000)).host.routes = [(0, 0xC000000000000000)] ∧ ((t (cAcc .load 0x100CA0000000 8 0)).hart 0).lastLoad = 0 ∧ (t (cAcc .store 0xC00000000010 4 7)).out = [.hostWrite 0 0 0x10 [7, 0, 0, 0] false] ∧
    (t (cAcc .load 0xC00000000010 4 7)).host.reads.map (·.user) = [.core 0] ∧ (hartS {}).backedFor 0 0x020000000000 = false ∧ (hartS {}).coreAllowed 0 (cAcc .store 0xC00000000010 4 7) = true := by decide +kernel
theorem test_core_fence_and_blocks :
    (after (.coreFence 0 15 15) (hartS {})).counter 0xA072 3 = 1 ∧ after (.coreFence 0 15 3) (hartS {}) = hartS {} ∧ ((after (.stimecmpMatch 0) (hartS {})).hart 0).timerIrq = true ∧ after (.stimecmpMatch 1) (hartS {}) = hartS {} ∧
    ((after (.cboFlush 0 .inval 0x020000000000) (hartS {})).hart 0).accessFault = some 2 ∧ ((after (.coreAccess 0 (cAcc .store 0x2000 1 9)) (hartS {})).agent 8).copies.length = 1 ∧
    ((after (.cboFlush 0 .inval 0x2000) (after (.coreAccess 0 (cAcc .store 0x2000 1 9)) (hartS {}))).agent 8).copies = [] := by decide +kernel

/-! ### The queue, the invariant, well-formedness -/

theorem test_step : step { State.reset with pending := [.bootRom, .trstRelease] } = exec .bootRom { State.reset with pending := [.trstRelease] } ∧ step State.reset = .next State.reset := ⟨rfl, rfl⟩
theorem test_queue_kept : (after .bootRom { State.reset with pending := [.trstRelease] }).pending = [.trstRelease] ∧ Memory.wf State.reset.mem.cells = true ∧ State.reset.pins.railsRising = false ∧ State.reset.pins.pwrEn = true := by decide
theorem test_no_word_spells_a_command : decodeTableWord 64 0 = none ∧ State.reset.withFetchWord 64 5 = State.reset := by decide
/-- One ill-formed command for each check, and its well-formed neighbour. -/
theorem test_well_formed :
    let pkt := fun (n : Nat) => ({ wellFormed := true, sub := 0, hopLimit := 64, dscp := BitVec.ofNat 6 (dictDefault 0x5010 4), ecn := 2, flowLabel := 0, src := 0, udpPort := 0xC000, udpDst := 0, header := 0, payload := List.replicate n 0 } : NctIn)
    let cap := fun (n : Nat) => ({ cap0 := 0, cap1 := 0, windows := List.replicate n 0 } : CapWords)
    Instr.wellFormed (.registerWrite .node 0 3 0) = false ∧ Instr.wellFormed (.registerWrite .node 0 8 0) = true ∧ Instr.wellFormed (.coreAccess 0 (cAcc .load 0 5 0)) = false ∧ Instr.wellFormed (.bar4Read fn0 0 0) = false ∧ Instr.wellFormed (.bar4Read fn0 0 4097) = false ∧
    Instr.wellFormed (.bar4Write fn0 0 []) = false ∧ Instr.wellFormed (.ncrScratchpadWrite 0 0 (List.replicate 129 0) none) = false ∧ Instr.wellFormed (.linkLock dir0 [(1, 0), (1, 2)]) = false ∧ Instr.wellFormed (.coreAccess 0 (cAcc .load 0 64 0)) = true ∧ Instr.wellFormed (.linkLock dir0 [(1, 0), (2, 2)]) = true ∧
    Instr.wellFormed (.linkCaps 0 (cap 9) (cap 0)) = false ∧ Instr.wellFormed (.linkCaps 0 (cap 8) (cap 8)) = true ∧ Instr.wellFormed (.nctPut 0 (pkt 4097)) = false ∧ Instr.wellFormed (.dictRead t1 (List.replicate 1065 0)) = false ∧
    Instr.wellFormed (.recoveryChunkResponse 0 (List.replicate 1025 0)) = false ∧ Instr.wellFormed (.tapExtest 0 (List.replicate 812 true)) = false ∧ Instr.wellFormed (.tapExtest 1 (List.replicate 812 true)) = true := by decide +kernel

/-! ### Words of instructions, written out from R60's fields: CLASS, OP, TYPE, FORM, MOD, RD, RS1, then RS2 and RS3 or IMM24 -/

theorem test_words :
    let w := fun (n : Nat) => decodeWord tId (BitVec.ofNat 64 n)
    w 0x0010400302000005 = .intAdd tId { form := 1, rd := 3, rs1 := 2, low := 5 } ∧ w 0x1012000302040000 = .imdMul tId { type := 2, rd := 3, rs1 := 2, low := 0x040000 } ∧
    w 0x2040000302040600 = .f32Fma tId { rd := 3, rs1 := 2, low := 0x040600 } ∧ w 0x30A0000402000000 = .f64Sqrt tId { rd := 4, rs1 := 2 } ∧ w 0x4034000302040000 = .cmpLt tId { type := 4, rd := 3, rs1 := 2, low := 0x040000 } ∧
    w 0x6050410302000010 = .memLd32 tId { form := 1, mod := 1, rd := 3, rs1 := 2, low := 0x10 } ∧ w 0x6755420402000000 = .atomXor tId { type := 5, form := 1, mod := 2, rd := 4, rs1 := 2 } 3 false ∧
    w 0x7010400000FFFFFE = .ctlBr tId { form := 1, low := 0xFFFFFE } ∧ w 0x8010400400000100 = .spcRdsr tId { form := 1, rd := 4, low := 0x100 } ∧ w 0x9020000000060000 = .mxDrain tId { low := 0x060000 } ∧
    w 0xA300000302000002 = .vxRedMax tId { rd := 3, rs1 := 2, low := 2 } ∧ w 0xB010000400000000 = .fyResv tId { rd := 4 } ∧ w 0xC100020001040000 = .syTally tId { mod := 2, rs1 := 1, low := 0x040000 } ∧
    w 0xD11502000A0D0EA0 = .txRedXor tId { type := 5, mod := 2, rs1 := 10, low := 0x0D0EA0 } := by decide +kernel
/-- A reserved OP or CLASS is no command's: its word takes ILLEGAL_INSTRUCTION. -/
theorem test_reserved_words :
    let w := fun (n : Nat) => decodeWord tId (BitVec.ofNat 64 n)
    w 0xB060000400000000 = .ctlNop tId { rd := 4, other := some 0xB06 } ∧ w 0xE010000000000000 = .ctlNop tId { other := some 0xE01 } ∧ rowOf 0xB 6 {} = none ∧
    (after (w 0xB060000000000000) cS).kernels.map (fun e => e.2.reason) = [0x102] ∧ (after (w 0x0000000000000000) cS).kernels.map (fun e => e.2.reason) = [0x102] := by decide +kernel
/-- A word of another command under a command's name changes nothing. -/
theorem test_foreign_word : after (.ctlNop tId { other := some 0x001 }) cS = cS ∧ foreignWord { other := some 0x001 } = true ∧ foreignWord { other := some 0xB06 } = false := by decide +kernel

/-! ### Premises of the memory, fence, queue and link statements -/

theorem test_prefetch_hypotheses :
    let p : PfWait := { group := 0, kernel := 0, landing := 0, no := 0, hint := 0, va := 0x10000 }
    let late : State := (after (.txLdl tId (wTx 0 0 0 10 0x0D0E00)) txS).modGroup 0 fun g => { g with fences := [{ no := 1, scope := 1, writesBefore := false, readsAfter := true }] }
    mS.kernel? 0 = some tKernel ∧ mS.fenced 0 0 true false = false ∧ (match (mS.translate 0 tKernel 0x10000 0 (prefetchWaiter 0, none)).2 with | .ok pa b false => pa == 0x10000 && b == 0 | _ => false) = true ∧
    (match (mS.translate 0 tKernel 0x80000000 0 (prefetchWaiter 0, none)).2 with | .fault _ => true | _ => false) = true ∧ isRegs 0x10000 = false ∧
    ((mS.tryPrefetch 0 p).cluster 0).pf.map (fun e => (e.line, e.owner)) = [(0x10000, some (0, 0))] ∧
    late.fenced 0 2 true false = true ∧ ((late.tryPrefetch 0 { p with no := 2 }).cluster 0).pfWait.length = 1 := by decide +kernel
/-- SYACQ after a transfer in progress leaves the L1 until the transfer's read is performed (R209). -/
theorem test_fence_acquires_later :
    let busy : State := (after (.txLdl tId (wTx 0 0 0 10 0x0D0E00)) txS).setCluster 0 { ((after (.txLdl tId (wTx 0 0 0 10 0x0D0E00)) txS).cluster 0) with l1 := [hitLine] }
    let a := after (.syAcq tId (wSy 1 0 0 0)) busy
    let z := after (.transferLinePart 0 0) (after (.transferLinePart 0 0) a)
    let f : Fence := { no := 0, scope := 1, writesBefore := false, readsAfter := true, acquires := true }
    busy.earlierWork 0 1 = true ∧ (a.group? 0).map (fun g => g.fences.map (·.acquires)) = some [true] ∧ (a.cluster 0).l1 = [hitLine] ∧ (z.cluster 0).l1 = [] ∧
    ({ sS with groups := [(0, { sG with fences := [f] })] } : State).clusterGroups 0 = [(0, { sG with fences := [f] })] := by decide +kernel
/-- Two queues of one partition with a record each: the turn goes by index after the last one taken, and stays
with a launch under way. -/
theorem test_turns :
    let two : State := { qS qY with host := { (qS qY).host with queues := [(0, qY), (3, qY)] } }
    let u := after (.commandNop q0 (qRec 2 1 5)) two
    (two.fetches 0 && two.fetches 3 && two.turn 0) = true ∧ two.turn 3 = false ∧ after (.commandNop { part := 0, queue := 3 } (qRec 2 1 5)) two = two ∧ u.turn 3 = true ∧
    (two.launchHeld 3).turn 3 = true ∧ (two.launchHeld 3).turn 0 = false ∧ (two.launchHeld 5).turn 0 = true := by decide +kernel
/-- An ATS invalidation waits for the translated read in flight. -/
theorem test_ats_invalidation_waits :
    let s : State := { pS with host := { pS.host with reads := [{ port := 0, vf := 0, tag := 3, addr := 0x40, len := 4, user := .core 2, translated := true }] } }
    let t := after (.atsInvalidationRequest fn0 3 0x2000 12) s
    t.host.atsInvals.map (fun x => (x.itag, x.reads)) = [(3, [3])] ∧ t.out = [] ∧ (after (.hostWindowReadCompletion 0 3 (.ok [1, 2, 3, 4])) t).host.atsInvals = [] ∧
    (.atsInvalidationCompletion fn0 3) ∈ (after (.hostWindowReadCompletion 0 3 (.ok [1, 2, 3, 4])) t).out := by decide +kernel
/-- A function in D3hot answers no memory request; reset leaves every MSI-X vector masked. -/
theorem test_function_states :
    let s : State := { pS with host := { pS.host with fns := [(0, { cfg := [(17, 3)] })] } }
    s.fnPresent fn0 = true ∧ s.fnLive fn0 = false ∧ (after (.bar4Read fn0 0x2000 8) s).out.head? = some (.pcieUnsupported fn0) := by decide +kernel
/-- The machine-mode hart takes a source with MMODE, the supervisor one without (R336). -/
theorem test_hart_modes :
    let s : State := { irqS with host := { irqS.host with routes := [(769, 0xA000000000000002)] } }
    s.externalIrq true 2 = true ∧ s.externalIrq false 2 = false ∧ irqS.externalIrq false 2 = true ∧ irqS.externalIrq true 2 = false := by decide +kernel
/-- First training from reset, at boot stage 05h; at boot a link with one failed lane comes up on its spare. -/
theorem test_first_training :
    let s := bS { stage := 5 }
    let d : LinkDir := { link := 10, rev := false }
    let u := after (.bootPackageLinks ⟨0, [(d, 4)]⟩ none) s
    (s.link 10).state = .reset ∧ ((after (.linkDetect 10 true) s).link 10).state = .lock ∧ ((after (.linkDetect 0 true) s).link 0).state = .reset ∧ (u.link 10).state = .upSpares ∧
    (u.linkEnd d).failedLanes = [4] ∧ (u.link 11).state = .up ∧ u.boot.stage = 6 := by decide +kernel
/-- A message of agent 0 for agent 9 of die 5 waits at die 2 for link 8; with that link down it goes no further (R13). -/
theorem test_forwarding :
    let s := fun (x : LinkState) => ({ links := [(1, { state := .up, fwd := lEnd, rev := lEnd }), (8, { state := x, fwd := lEnd, rev := lEnd })] } : State)
    let m : Message := { header := BitVec.ofNat 128 (9 <<< 56), slots := [] }
    let t := fun (x : LinkState) => ((s x).arriveMessage { link := 1, rev := false } (0, m)).forwards.map fun f => (f.link, f.rev)
    t .up = [(8, true)] ∧ t .down = [] ∧ ((s .up).arriveMessage { link := 1, rev := false } (0, { m with header := BitVec.ofNat 128 (4 <<< 56) })).forwards = [] ∧
    (s .down).windowReached 2 (.regs 0) = true ∧ (s .down).linkDown 8 = true := by decide +kernel

/-! ### Management answers, drains, the repair port, cores -/

/-- The answer to an in-band request is an NCT packet of KIND 3h and OP 20h with DSCP 5010h/05, and is counted. -/
theorem test_in_band_answer :
    let t := (dS {}).sendAnswer (some 5) (.inBand 7 0xC001) [1, 2]
    let ok := fun (x : Out) => match x with
      | .nct k f => decide (k = 5 ∧ f.dst = 7 ∧ f.udpDst = 0xC001 ∧ f.payload = [1, 2] ∧ f.dscp = dictDefault 0x5010 5) && (nctKind f.header.toNat == 3 && nctOp f.header.toNat == 0x20 && nctLen f.header.toNat == 2)
      | _ => false
    t.out.map ok = [true] ∧ t.counter 0x5020 1 = 1 := by decide +kernel
theorem test_management_hypotheses :
    let pkt : NctIn := { wellFormed := true, sub := 0, hopLimit := 64, dscp := BitVec.ofNat 6 (dictDefault 0x5010 5), ecn := 0, flowLabel := 0, src := 9, udpPort := 0xC000, udpDst := BitVec.ofNat 16 (dictDefault 0x5010 3), header := nctHeader 3 0x20 0 0 0 0 0 0 0 16 0 0, payload := frame 1 0x1020 4 1 }
    let s := fun (x : PortState) => ({ dS {} with net := { subports := [(0, { state := x, lanes := [0] })] } } : State)
    (s .up).arrivesAt 0 pkt = true ∧ (s .held).arrivesAt 0 pkt = true ∧ (s .up).frameOk pkt = true ∧ (s .up).frameOk { pkt with hopLimit := 0 } = false := by decide +kernel
/-- The drain's stream flag stays over a read of what went to the host (R193). -/
theorem test_drain_hypotheses :
    let s : State := { pS with mem := { pS.mem with twins := [(0, { mode := 1, draining := true, valid := true, stage := 1 })] } }
    window 0xC00000000040 = .host 0 64 ∧ (s.twin 0).broken = false ∧ s.portOpen 0 = true ∧ (s.drainCover 0 0xC00000000040).drainOpsOut 0 = true ∧ s.drainOpsOut 0 = false := by decide +kernel
/-- A leaf with PBMT 01b or 10b: the store goes past the caches, and an access of the mode's width stays cached. -/
theorem test_core_weak_access :
    let a := fun (n : Nat) => ({ cAcc .store 0x2000 1 9 with pbmt := BitVec.ofNat 2 n } : CoreAccess)
    ((after (.coreAccess 0 (a 1)) (hartS {})).agent 8).copies = [] ∧ readByte (after (.coreAccess 0 (a 1)) (hartS {})).mem.cells 0x2000 = 9 ∧ ((after (.coreAccess 0 (a 0)) (hartS {})).agent 8).copies.length = 1 ∧
    coreWeak (a 2) = true ∧ coreWeak { a 2 with op := .amo } = false := by decide +kernel
/-- Registers behind a down link: a load is poison, a store goes nowhere (R14). -/
theorem test_core_reach :
    let s : State := { hartS {} with links := (List.range 19).map fun i => (i, { state := .down }) }
    let t := after (.coreAccess 0 (cAcc .load 0x100CA0000000 8 0)) s
    s.windowReached 4 (window 0x100CA0000000) = false ∧ (t.hart 0).accessFault = some 1 ∧ (after (.coreAccess 0 (cAcc .store 0x100CA0000000 8 5)) s).host.routes = [] := by decide +kernel
/-- A slot released while it fills: the fill ends, and the pseudo-channel returns. -/
theorem test_slot_free_with_fill :
    let s : State := { dS {} with mem := { slots := [(7, { pc := 9, filled := false })], pcs := [(9, { retired := true })], hbmStacks := [(0, { offline := true, fill := some (9, 7, 0) })] } }
    let t := after (.spareSlotFree .owner 7) s
    t.mem.slots = [] ∧ (t.stack 0).fill = none ∧ (t.pc 9).retired = false := by decide +kernel
/-- Two symbols in error are corrected and counted in mode 0, and detected in mode 1: the sector is then poisoned and counted. -/
theorem test_upsets :
    let s := fun (m : Nat) => ({ mem := { eccMode := m } } : State)
    let t := fun (m n : Nat) => after (.patrolScrub 0x1000 (.symbols (Fin.ofNat 37 n) 3)) (s m)
    t 0 0 = s 0 ∧ (t 0 2).marked 0x1000 = false ∧ (t 0 2).counter 0x4012 1 = 1 ∧ (t 1 2).marked 0x1000 = true ∧ (t 1 2).counter 0x4013 1 = 1 := by decide +kernel
/-- The sixteenth command or address parity error of a pseudo-channel retires it (R364). -/
theorem test_parity_errors :
    let s := fun (n : Nat) => ({ dS {} with mem := { pcs := [(0, { parityErrors := n })] } } : State)
    let t := fun (n : Nat) => after (.patrolScrub 0 .parity) (s n)
    ((t 3).pc 0).parityErrors = 4 ∧ ((t 3).pc 0).retired = false ∧ ((t 15).pc 0).retired = true ∧ ((t 15).stack 0).fill.isSome = true := by decide +kernel

/-! ### Errors of on-die arrays (R365) -/

/-- A state with one array in error. -/
def aS (kind : ArrayKind) (place entry : Nat) (fatal : Bool) (s : State) : State :=
  { s with mem := { s.mem with arrays := [{ kind := kind, place := place, entry := entry, fatal := fatal }] } }
/-- ADD reads register 2: a single-bit error is corrected and counted, another one faults with SOURCE 6h; an error elsewhere stays. -/
theorem test_register_errors :
    let w : Fields := { type := 0, form := 0, mod := 0, rd := 4, rs1 := 2, low := 0x030000 }
    let t := fun (r : Nat) (f : Bool) => after (.intAdd tId w) (aS .registers 0 r f (tS [(2, 5), (3, 6)]))
    ((t 2 false).group? 0).map (fun g => g.reg 0 4) = some 11 ∧ (t 2 false).counter 0x8010 1 = 1 ∧ (t 2 false).mem.arrays = [] ∧
    ((t 2 true).kernel? 0).map (·.reason) = some 0x702 ∧ ((t 7 true).group? 0).map (fun g => g.reg 0 4) = some 11 ∧ (t 7 true).mem.arrays.length = 1 := by decide +kernel
/-- A load from scratchpad meets the byte in error; an L1 line in error is dropped. -/
theorem test_memory_array_errors :
    let s := (tS [(2, 8)]).setCluster 0 { tCluster with l1 := [{ line := 256, data := { data := 0, poison := 0 } }] }
    let w : Fields := { type := 0, form := 1, mod := 1, rd := 4, rs1 := 2, low := 0 }
    ((after (.memLd32 tId w) (aS .scratchpad 0 11 true s)).kernel? 0).map (·.reason) = some 0x702 ∧ ((after (.memLd32 tId w) (aS .scratchpad 0 12 true s)).kernel? 0).map (·.phase) = some .running ∧
    ((aS .l1 0 256 false s).l1Lookup 0 { line := 256, uncached := false, translated := false }).1.clusters.length = 1 ∧
    (((aS .l1 0 256 false s).l1Lookup 0 { line := 256, uncached := false, translated := false }).1.cluster 0).l1 = [] ∧
    ((aS .l1 0 384 false s).l1Lookup 0 { line := 256, uncached := false, translated := false }).2.isSome = true := by decide +kernel
/-- A dirty sector of an owner's line in error is poisoned in memory; with the tag lost, the whole line is. -/
theorem test_cache_errors :
    let c : Copy := { line := 256, st := .M, valid := 15, dirty := 4, data := 0, way := 0 }
    let s : State := { agents := [(0, { copies := [c], dir := [] }), (10, { dir := [{ line := 256, st := .E, resp := some 0, sharers := 0 }] })] }
    let t := fun (n : Nat) => (aS .cache 0 n true s).meetCopies 256
    ((t 10).marked (320) = true ∧ ((t 10).agent 0).copies.map (fun x => (x.valid, x.dirty)) = [(11, 0)]) ∧
    ((t 9).marked 288 = false ∧ ((t 9).agent 0).copies.map (fun x => (x.valid, x.dirty)) = [(13, 4)] ∧ (t 9).counter 0x8010 2 = 1 ∧ (t 10).counter 0x8010 3 = 1) ∧
    (let u := (aS .tag 10 256 true s).meetLine 10 256
     (u.agent 0).copies = [] ∧ (u.agent 10).dir = [] ∧ u.marked 256 = true ∧ u.marked 352 = true) := by decide +kernel
/-- The write buffer, a hub's staging SRAM and a replay buffer in error. -/
theorem test_other_array_errors :
    let e : WbEntry := { sector := 8, mask := 1, data := 7, owners := [] }
    let s := (tS []).setCluster 0 { tCluster with wb := [e] }
    let t := fun (f : Bool) => (aS .writeBuffer 0 8 f s).drainOne 0
    (t true).map (fun u => u.marked 256) = some true ∧ (t false).map (fun u => u.marked 256) = some false ∧
    (((aS .staging 0 0 true {}).startDrain 3).twin 3).broken = true ∧ (((aS .staging 0 1 true {}).startDrain 3).twin 3).stage = 1 ∧
    (let l : State := { links := [(1, { state := .up, fwd := lEnd, rev := lEnd })] }
     let r := fun (f : Bool) => ((aS .replay (dirSender { link := 1, rev := false }) 2 f l).replayFrom { link := 1, rev := false } 0 0).link 1
     (r true).state = .retraining ∧ (r false).state = .up) := by decide +kernel
end Sys2Proof.Tests
end

/-! ### Accesses of the register window (R19, R457) -/
namespace Sys2Proof.Proofs
open Sys2Proof.Machine Sys2Proof.Laws

theorem window_regs {off : Nat} (h : off < 0x10000000000) : window (0x100000000000 + off) = .regs off := by
  unfold window
  simp (disch := omega) only [if_neg, if_pos, Nat.add_sub_cancel_left]

/-- Offset `o` of a translation block holds the register the block's layout names (R19, R254). -/
theorem regAt_xl {p o : Nat} {r : RegAt} (hp : p < 8) (ho : o < 0x10000) (h : findReg (.xl p) xlWidth o = some r) :
    regAt (0xC80000000 + 0x10000 * p + o) = some (r.shift (0xC80000000 + 0x10000 * p)) := by
  have hdie : (0xC80000000 + 0x10000 * p + o) / 0x200000000 = 6 := by omega
  have hoff : (0xC80000000 + 0x10000 * p + o) % 0x200000000 = 0x80000000 + (0x10000 * p + o) := by omega
  have hblk : (0x10000 * p + o) / 0x10000 = p := by omega
  have hin : (0x10000 * p + o) % 0x10000 = o := by omega
  unfold regAt
  simp (disch := omega) only [hdie, hoff, if_neg, if_pos, hblk, hin, Nat.add_sub_cancel_left, h]
  simp [RegAt.shift]
  omega

/-- The eight bytes from a multiple of 8 in a die's TALLY_ADD area are one register (R215). -/
theorem regAt_tallyAdd {die off : Nat} (hd : die < 4) (ho : off < 0x20000) :
    regAt (0x200000000 * die + 0x40020000 + off) =
      some { reg := .tallyAdd die (off / 8), base := 0x200000000 * die + 0x40020000 + off / 8 * 8, width := 8 } := by
  have hdie : (0x200000000 * die + 0x40020000 + off) / 0x200000000 = die := by omega
  have hoff : (0x200000000 * die + 0x40020000 + off) % 0x200000000 = 0x40020000 + off := by omega
  unfold regAt
  simp (disch := omega) only [hdie, hoff, if_neg, if_pos, Nat.add_sub_cancel_left, strideAt]
  simp [RegAt.shift]
  omega

/-- What an access reaches is aligned and lies within one register (R457). -/
theorem access_within {s : State} {via : Requester} {addr width : Nat} {r : RegAt} (h : s.access via addr width = some r) :
    addr % width = 0 ∧ addr + width ≤ r.base + r.width := by
  obtain ⟨a, -, ha⟩ := Option.bind_eq_some_iff.mp h
  split at ha
  · next hok =>
    obtain ⟨-, haligned, hfits, -⟩ := hok
    cases ha
    exact ⟨haligned, hfits⟩
  · cases ha

/-- An access through the register window reaches the register there when it is aligned, fits and is visible. -/
theorem access_node {s : State} {off width : Nat} {r : RegAt} (hoff : off < 0x10000000000) (hreg : regAt off = some r) :
    s.access .node (0x100000000000 + off) width =
      if (width = 1 ∨ width = 2 ∨ width = 4 ∨ width = 8) ∧ (0x100000000000 + off) % width = 0 ∧
        0x100000000000 + off + width ≤ r.base + 0x100000000000 + r.width ∧ s.visible .node r.reg then some (r.shift 0x100000000000) else none := by
  simp only [State.access, window_regs hoff, hreg, Option.map_some, Option.bind_some, RegAt.shift]

theorem writeAt_of_no_access {s : State} {via : Requester} {addr width : Nat} (h : s.access via addr width = none) (writer : Option Nat) (v : Nat) :
    s.writeAt via writer addr width v = s := by
  simp only [State.writeAt, h]

/-- A register that acts ignores a write of part of it (R457). -/
theorem writeAt_of_part {s : State} {via : Requester} {addr width : Nat} {r : RegAt} (h : s.access via addr width = some r)
    (hact : r.reg.action = true) (hw : width ≠ r.width) (writer : Option Nat) (v : Nat) : s.writeAt via writer addr width v = s := by
  simp only [State.writeAt, h, hact, hw, ne_eq, not_false_eq_true, and_self, if_true]

/-- Any other write of a register writes the bits it covers. -/
theorem writeAt_of_access {s : State} {via : Requester} {addr width : Nat} {r : RegAt} (h : s.access via addr width = some r)
    (hw : r.reg.action = false ∨ width = r.width) (writer : Option Nat) (v : Nat) :
    s.writeAt via writer addr width v =
      s.writeReg via writer r.reg ((2 ^ (8 * width) - 1) <<< (8 * (addr - r.base))) ((v % 2 ^ (8 * width)) <<< (8 * (addr - r.base))) := by
  have hpart : ¬ (r.reg.action = true ∧ width ≠ r.width) := by
    rintro ⟨hact, hne⟩
    exact hw.elim (fun e => Bool.noConfusion (hact.symm.trans e)) hne
  simp only [State.writeAt, h, hpart, if_false]

/-- An acting register of the window that is eight bytes wide takes a write of its eight bytes, and no other. -/
theorem writeAt_acting {s : State} {off : Nat} {r : RegAt} (hoff : off < 0x10000000000) (hreg : regAt off = some r)
    (hact : r.reg.action = true) (hbase : r.base = off / 8 * 8) (hw : r.width = 8) (hv : s.visible .node r.reg = true)
    (writer : Option Nat) (width v : Nat) :
    s.writeAt .node writer (0x100000000000 + off) width v =
      if width = 8 ∧ off % 8 = 0 then s.writeReg .node writer r.reg (2 ^ 64 - 1) (v % 2 ^ 64) else s := by
  have hacc := access_node (s := s) (width := width) hoff hreg
  by_cases hall : width = 8 ∧ off % 8 = 0
  · obtain ⟨rfl, halign⟩ := hall
    rw [if_pos ⟨by omega, by omega, by omega, hv⟩] at hacc
    have hbegin : 0x100000000000 + off - (r.shift 0x100000000000).base = 0 := by
      simp only [RegAt.shift]
      omega
    rw [writeAt_of_access hacc (.inr hw.symm), hbegin, if_pos ⟨rfl, halign⟩]
    rfl
  · rw [if_neg hall]
    split at hacc
    · next hok =>
      exact writeAt_of_part hacc hact (fun e => hall (by simp only [RegAt.shift, hw] at e; omega)) writer v
    · exact writeAt_of_no_access hacc writer v

/-- An aligned read within a visible register of the window gives its bytes, with what the read itself does. -/
theorem readAt_node {s : State} {off width : Nat} {r : RegAt} (hoff : off < 0x10000000000) (hreg : regAt off = some r)
    (hw : width = 1 ∨ width = 2 ∨ width = 4 ∨ width = 8) (halign : off % width = 0) (hfit : off + width ≤ r.base + r.width)
    (hv : s.visible .node r.reg = true) :
    s.readAt .node (0x100000000000 + off) width = ((s.readReg r.reg).1, field (s.readReg r.reg).2 (8 * (off - r.base)) (8 * width)) := by
  have haddr : (0x100000000000 + off) % width = 0 := by
    rcases hw with rfl | rfl | rfl | rfl <;> omega
  have hacc := access_node (s := s) (width := width) hoff hreg
  rw [if_pos ⟨hw, haddr, by omega, hv⟩] at hacc
  have hpos : 0x100000000000 + off - (r.base + 0x100000000000) = off - r.base := by omega
  simp only [State.readAt, hacc, RegAt.shift, hpos]

end Sys2Proof.Proofs

/-! ### The translation block's acting registers (R254, R255, R264) -/
namespace Sys2Proof.Proofs
open Sys2Proof.Machine Sys2Proof.Laws

theorem sgetD_map {α : Type} {f : α → α} {d : α} (hd : f d = d) (m : Sparse α) (k : Nat) :
    sgetD (m.map fun e => (e.1, f e.2)) k d = f (sgetD m k d) := by
  induction m with
  | nil => exact hd.symm
  | cons e r ih =>
    obtain ⟨i, a⟩ := e
    by_cases h : i = k
    · simp [sgetD, sget?, h]
    · simpa [sgetD, sget?, h] using ih

theorem xlBase_add (p o : Nat) : xlBase p + o = 0x100000000000 + (0xC80000000 + 0x10000 * p + o) := by
  unfold xlBase blockBase
  omega

/-- INV_CTL and RESUME act on a write of their eight bytes alone (R457). -/
theorem writeAt_xl_acting {s : State} {p o : Nat} (hp : p < 8) (hs : p < s.parts) (ho : o = 0x108 ∨ o = 0x200) (width v : Nat) :
    s.writeAt .node none (xlBase p + o) width v =
      if width = 8 then s.writeReg .node none (.xl p o) (2 ^ 64 - 1) (v % 2 ^ 64) else s := by
  have hfind : findReg (.xl p) xlWidth o = some { reg := .xl p o, base := o, width := 8 } := by
    rcases ho with rfl | rfl <;> rfl
  have hreg := regAt_xl hp (by omega) hfind
  have hact : (Reg.xl p o).action = true := by simpa [Reg.action] using ho
  have hv : s.visible .node (.xl p o) = true := by simpa [State.visible] using hs
  rw [xlBase_add, writeAt_acting (by omega) hreg hact (by simp only [RegAt.shift]; omega) rfl hv]
  have halign : (0xC80000000 + 0x10000 * p + o) % 8 = 0 := by omega
  simp only [halign, and_true]
  rfl

/-! #### INV_CTL -/

theorem invWrite_eq {s : State} {p : Fin 8} (hs : p.val < s.parts) (width : BitVec 4) (value : W64) (op : Nat) :
    s.invWrite p.val width value op = if field value.toNat 60 4 = op ∧ width = 8 then s.writeInvCtl p.val value.toNat else s := by
  have hwidth : width.toNat = 8 ↔ width = 8 := by bv_omega
  simp only [State.invWrite, writeAt_xl_acting p.isLt hs (.inl rfl), hwidth, Nat.mod_eq_of_lt value.isLt]
  by_cases hop : field value.toNat 60 4 = op
  · simp only [hop, if_true, true_and]
    rfl
  · simp only [hop, if_false, false_and]

theorem writeInvCtl_discards {s : State} {p v : Nat}
    (h : field v 60 4 = 1 ∧ field v 0 32 = 0 ∨ 64 ≤ (s.xl p).invQueue.length) :
    s.writeInvCtl p v = s.setXl p { s.xl p with invDrop := true } := by
  simp only [State.writeInvCtl]
  rw [if_pos (.inr (.inr h))]

theorem writeInvCtl_queues {s : State} {p v : Nat} (hop : 1 ≤ field v 60 4 ∧ field v 60 4 ≤ 3)
    (hn : ¬ (field v 60 4 = 1 ∧ field v 0 32 = 0)) (hroom : (s.xl p).invQueue.length < 64) :
    s.writeInvCtl p v = s.setXl p { s.xl p with
      invIssued := (s.xl p).invIssued + 1
      invQueue := (s.xl p).invQueue ++ [(field v 60 4, field v 54 6, (s.xl p).invAddr.toNat / 4096 % 2 ^ 45, field v 0 32)] } := by
  simp only [State.writeInvCtl]
  rw [if_neg (by omega)]

/-- A write of INV_CTL that is not the named operation's, or not whole, does nothing; one that names no page or finds
64 waiting sets INV_DROP; any other is queued under the next number (R255). -/
theorem invWrite_effect {s : State} {p : Fin 8} (hs : p.val < s.parts) {width : BitVec 4} {value : W64} {op : Nat} (hop : 1 ≤ op ∧ op ≤ 3)
    {answer : Answer} (h : answer = .next (s.invWrite p.val width value op)) :
    let x := s.xl p.val
    let v := value.toNat
    (field v 60 4 ≠ op ∨ width ≠ 8 → answer = .next s) ∧
    (field v 60 4 = op → width = 8 →
      (op = 1 ∧ field v 0 32 = 0 ∨ 64 ≤ x.invQueue.length → answer = .next (s.setXl p.val { x with invDrop := true })) ∧
      (¬ (op = 1 ∧ field v 0 32 = 0) → x.invQueue.length < 64 → answer = .next (s.setXl p.val { x with
        invIssued := x.invIssued + 1
        invQueue := x.invQueue ++ [(op, field v 54 6, x.invAddr.toNat / 4096 % 2 ^ 45, field v 0 32)] }))) := by
  intro x v
  rw [h, invWrite_eq hs]
  refine ⟨fun h => by rw [if_neg fun hboth => h.elim (· hboth.1) (· hboth.2)], ?_⟩
  rintro rfl hwidth
  rw [if_pos ⟨rfl, hwidth⟩]
  exact ⟨fun h => congrArg _ (writeInvCtl_discards h), fun hn hroom => congrArg _ (writeInvCtl_queues hop hn hroom)⟩

/-! #### INVALIDATION_COMPLETE -/

/-- One ATS request under way made again under the next tag. -/
def reaskOne (s : State) (x : HostXlate) : State :=
  let tag := s.host.nextAts
  let renew := fun (y : HostXlate) => if y.tag = x.tag then { y with tag := tag } else y
  let s := { s with host := { s.host with ats := s.host.ats.map renew, nextAts := tag + 1 } }
  (s.count 0x6030 2 1).send (.atsRequest x.port x.vf tag x.va x.write (s.ctxPasid x.part x.ctx))

theorem reask_eq_foldl (s : State) (q : HostXlate → Bool) :
    s.reask q = (s.host.ats.filter fun x => q x && !x.pri && !x.failed).foldl reaskOne s := rfl

theorem foldl_reaskOne_frame (l : List HostXlate) (s : State) :
    ∃ ats next counters out, l.foldl reaskOne s =
      { s with host := { s.host with ats := ats, nextAts := next }, counters := counters, out := out } := by
  induction l generalizing s with
  | nil => exact ⟨_, _, _, _, rfl⟩
  | cons x r ih =>
    obtain ⟨a, n, c, o, e⟩ := ih (reaskOne s x)
    exact ⟨a, n, c, o, e⟩

/-- Asking again changes the requests, the tags, counters and what is sent, and nothing else. -/
theorem reask_frame (s : State) (q : HostXlate → Bool) :
    ∃ ats next counters out, s.reask q =
      { s with host := { s.host with ats := ats, nextAts := next }, counters := counters, out := out } :=
  foldl_reaskOne_frame _ s

theorem reask_of_none {s : State} {q : HostXlate → Bool} (h : ∀ y ∈ s.host.ats, q y = false) : s.reask q = s := by
  have hnil : (s.host.ats.filter fun x => q x && !x.pri && !x.failed) = [] := List.filter_eq_nil_iff.mpr fun y hy => by simp [h y hy]
  rw [reask_eq_foldl, hnil, List.foldl_nil]

/-- A request keeps its tag only where none of those made again carries it. -/
theorem foldl_reaskOne_tag {n : Nat} (l : List HostXlate) {s : State} (hn : n ≤ s.host.nextAts) {y : HostXlate}
    (hy : y ∈ (l.foldl reaskOne s).host.ats) : n ≤ y.tag ∨ (y ∈ s.host.ats ∧ ∀ x ∈ l, y.tag ≠ x.tag) := by
  induction l generalizing s with
  | nil => exact .inr ⟨hy, by simp⟩
  | cons x r ih =>
    rcases ih (s := reaskOne s x) (Nat.le_succ_of_le hn) hy with h | ⟨hmem, hr⟩
    · exact .inl h
    · obtain ⟨y₀, hy₀, rfl⟩ := List.mem_map.mp hmem
      by_cases htag : y₀.tag = x.tag
      · exact .inl (by simpa [htag] using hn)
      · simp only [htag, if_false] at hr ⊢
        exact .inr ⟨hy₀, by simpa [htag] using hr⟩

/-- After asking again, every request asked for again carries a new tag. -/
theorem reask_tag {s : State} {q : HostXlate → Bool} {y : HostXlate} (hy : y ∈ (s.reask q).host.ats) (hq : q y = true)
    (hpri : y.pri = false) (hfailed : y.failed = false) : s.host.nextAts ≤ y.tag := by
  rw [reask_eq_foldl] at hy
  rcases foldl_reaskOne_tag _ (Nat.le_refl _) hy with h | ⟨hmem, hl⟩
  · exact h
  · exact absurd rfl (hl y (List.mem_filter.mpr ⟨hmem, by simp [hq, hpri, hfailed]⟩))

/-- A leaf and a walk-cache entry are met by an invalidation of their partition: of all, of their address space, or of
a range they overlap (R255). -/
def InvHit (p op asid page n : Nat) (part space lo hi : Nat) : Prop :=
  part = p ∧ (op = 3 ∨ (space = asid ∧ (op = 2 ∨ (lo < page + n ∧ page < hi))))

theorem tlbHitBy_iff (e : TlbEntry) (p op asid page n : Nat) :
    e.hitBy p op asid page n = true ↔ InvHit p op asid page n e.part e.asid e.vpn (e.vpn + 2 ^ e.log2pages) := by
  simp [TlbEntry.hitBy, InvHit]

theorem walkHitBy_iff (e : WalkEntry) (p op asid page n : Nat) :
    e.hitBy p op asid page n = true ↔
      InvHit p op asid page n e.part e.asid (e.prefixVpn * 2 ^ (9 * e.level)) ((e.prefixVpn + 1) * 2 ^ (9 * e.level)) := by
  simp [WalkEntry.hitBy, InvHit]

theorem mem_filter_not_iff {α : Type} {l : List α} {q : α → Bool} {P : α → Prop} (h : ∀ e, q e = true ↔ P e) (e : α) :
    e ∈ l.filter (fun t => !q t) ↔ e ∈ l ∧ ¬ P e := by
  rw [List.mem_filter, Bool.not_eq_true', ← Bool.not_eq_true, h]

section
variable (s : State) (p op ctx page n : Nat)

/-- The host requests an invalidation meets. -/
def invAsks (p op ctx page n : Nat) (x : HostXlate) : Bool :=
  x.part = p && (op = 3 || (x.ctx = ctx && (op = 2 ||
    (decide (x.va.toNat / 4096 % 2 ^ 45 < page + n) && decide (page ≤ x.va.toNat / 4096 % 2 ^ 45)))))

theorem dropTranslations_eq : s.dropTranslations p op ctx page n =
    { s.reask (invAsks p op ctx page n) with
      clusters := (s.reask (invAsks p op ctx page n)).clusters.map fun e =>
        (e.1, { e.2 with utlb := e.2.utlb.filter fun t => !t.hitBy p op (s.ctxAsid p ctx) page n })
      dieXlate := (s.reask (invAsks p op ctx page n)).dieXlate.map fun e => (e.1, { e.2 with
        tlb := e.2.tlb.filter fun t => !t.hitBy p op (s.ctxAsid p ctx) page n
        walks := e.2.walks.filter fun t => !t.hitBy p op (s.ctxAsid p ctx) page n }) } := rfl

theorem dropTranslations_host : (s.dropTranslations p op ctx page n).host = (s.reask (invAsks p op ctx page n)).host := rfl

theorem dropTranslations_out : (s.dropTranslations p op ctx page n).out = (s.reask (invAsks p op ctx page n)).out := rfl

/-- An invalidation changes the tables of translations and what asks for one, and nothing else. -/
theorem dropTranslations_frame : ∃ clusters dieXlate ats next counters out, s.dropTranslations p op ctx page n =
    { s with clusters := clusters, dieXlate := dieXlate, host := { s.host with ats := ats, nextAts := next }, counters := counters, out := out } := by
  obtain ⟨a, m, c, o, e⟩ := reask_frame s (invAsks p op ctx page n)
  rw [dropTranslations_eq, e]
  exact ⟨_, _, a, m, c, o, rfl⟩

theorem cluster_dropTranslations (c : Nat) : (s.dropTranslations p op ctx page n).cluster c =
    { s.cluster c with utlb := (s.cluster c).utlb.filter fun t => !t.hitBy p op (s.ctxAsid p ctx) page n } := by
  obtain ⟨a, m, cs, o, e⟩ := reask_frame s (invAsks p op ctx page n)
  rw [dropTranslations_eq, e]
  exact sgetD_map (f := fun x : Cluster => { x with utlb := x.utlb.filter fun t => !t.hitBy p op (s.ctxAsid p ctx) page n }) rfl _ c

theorem dx_dropTranslations (d : Nat) : (s.dropTranslations p op ctx page n).dx d =
    { s.dx d with
      tlb := (s.dx d).tlb.filter fun t => !t.hitBy p op (s.ctxAsid p ctx) page n
      walks := (s.dx d).walks.filter fun t => !t.hitBy p op (s.ctxAsid p ctx) page n } := by
  obtain ⟨a, m, cs, o, e⟩ := reask_frame s (invAsks p op ctx page n)
  rw [dropTranslations_eq, e]
  exact sgetD_map (f := fun x : DieXlate => { x with
    tlb := x.tlb.filter fun t => !t.hitBy p op (s.ctxAsid p ctx) page n
    walks := x.walks.filter fun t => !t.hitBy p op (s.ctxAsid p ctx) page n }) rfl _ d

end

theorem invalidationComplete_waits {s : State} {p : Fin 8} (h : (s.xl p.val).invQueue = [] ∨ s.readsOpen p.val = true) :
    execInvalidationComplete p s = .next s := by
  unfold execInvalidationComplete
  split
  · rfl
  · next op ctx page n rest hq => simp [h.resolve_left (by simp [hq])]

theorem invalidationComplete_of_drained {s t : State} {p : Fin 8} {op ctx page n : Nat} {rest : List (Nat × Nat × Nat × Nat)}
    (hq : (s.xl p.val).invQueue = (op, ctx, page, n) :: rest) (hr : s.readsOpen p.val = false)
    (hd : ((s.clusters.map Prod.fst).filter fun c => s.clusterPart c = p.val).foldl
      (fun (acc : Option State) c => acc.bind fun s => s.drainAll c) (some s) = some t) :
    execInvalidationComplete p s = .next (((t.dropTranslations p.val op ctx page n).modXl p.val fun x =>
      { x with invQueue := rest, invDone := x.invDone + 1 }).count 0xA081 3 1) := by
  simp only [execInvalidationComplete, hq, hr, hd, Bool.false_eq_true, if_false]

/-- INVALIDATION_COMPLETE with the oldest invalidation, once what was translated before it has been performed: its
entries leave every TLB and walk cache, and requests under way for them are made again (R255, R260). -/
theorem invalidationComplete_effect {s t : State} {p : Fin 8} {op ctx page n : Nat} {rest : List (Nat × Nat × Nat × Nat)}
    (hq : (s.xl p.val).invQueue = (op, ctx, page, n) :: rest) (hr : s.readsOpen p.val = false)
    (hd : ((s.clusters.map Prod.fst).filter fun c => s.clusterPart c = p.val).foldl
      (fun (acc : Option State) c => acc.bind fun s => s.drainAll c) (some s) = some t) :
    let hit := InvHit p.val op (t.ctxAsid p.val ctx) page n
    let again := invAsks p.val op ctx page n
    ∃ u, execInvalidationComplete p s = .next u ∧
      u = { t with xlate := u.xlate, clusters := u.clusters, dieXlate := u.dieXlate, counters := u.counters, out := u.out, host := u.host } ∧
      u.host = { t.host with ats := u.host.ats, nextAts := u.host.nextAts } ∧
      (∀ y ∈ u.host.ats, again y = true → y.pri = false → y.failed = false → t.host.nextAts ≤ y.tag) ∧
      ((∀ y ∈ t.host.ats, again y = false) → u.host = t.host ∧ u.out = t.out) ∧
      u.xl p.val = { t.xl p.val with invQueue := rest, invDone := (t.xl p.val).invDone + 1 } ∧
      (∀ c e, e ∈ (u.cluster c).utlb ↔ e ∈ (t.cluster c).utlb ∧ ¬ hit e.part e.asid e.vpn (e.vpn + 2 ^ e.log2pages)) ∧
      (∀ d e, e ∈ (u.dx d).tlb ↔ e ∈ (t.dx d).tlb ∧ ¬ hit e.part e.asid e.vpn (e.vpn + 2 ^ e.log2pages)) ∧
      (∀ d e, e ∈ (u.dx d).walks ↔ e ∈ (t.dx d).walks ∧
        ¬ hit e.part e.asid (e.prefixVpn * 2 ^ (9 * e.level)) ((e.prefixVpn + 1) * 2 ^ (9 * e.level))) := by
  intro hit again
  refine ⟨_, invalidationComplete_of_drained hq hr hd, ?_⟩
  obtain ⟨cl, dx, ats, next, cnt, out, hframe⟩ := dropTranslations_frame t p.val op ctx page n
  refine ⟨by rw [hframe]; rfl, by rw [hframe]; rfl, fun y hy => reask_tag hy, ?_, ?_, fun c e => ?_, fun d e => ?_, fun d e => ?_⟩
  · intro hnone
    have hsame : t.reask again = t := reask_of_none hnone
    exact ⟨(dropTranslations_host ..).trans (congrArg State.host hsame), (dropTranslations_out ..).trans (congrArg State.out hsame)⟩
  · have hxl : (t.dropTranslations p.val op ctx page n).xl p.val = t.xl p.val := by rw [hframe]; rfl
    rw [← hxl]
    exact xl_setXl ..
  · exact (congrArg (e ∈ Cluster.utlb ·) (cluster_dropTranslations t p.val op ctx page n c)).to_iff.trans
      (mem_filter_not_iff (fun t => tlbHitBy_iff t ..) e)
  · exact (congrArg (e ∈ DieXlate.tlb ·) (dx_dropTranslations t p.val op ctx page n d)).to_iff.trans
      (mem_filter_not_iff (fun t => tlbHitBy_iff t ..) e)
  · exact (congrArg (e ∈ DieXlate.walks ·) (dx_dropTranslations t p.val op ctx page n d)).to_iff.trans
      (mem_filter_not_iff (fun t => walkHitBy_iff t ..) e)

/-! #### RESUME -/

theorem resumeWrite_eq {s : State} {p : Fin 8} (hs : p.val < s.parts) (width : BitVec 4) (value : W64) :
    s.writeAt .node none (xlBase p.val + 0x200) width.toNat value.toNat = if width = 8 then s.writeResume p.val value.toNat else s := by
  have hwidth : width.toNat = 8 ↔ width = 8 := by bv_omega
  simp only [writeAt_xl_acting p.isLt hs (.inr rfl), hwidth, Nat.mod_eq_of_lt value.isLt]
  rfl

theorem resumeRetry_eq {s : State} {p : Fin 8} (hs : p.val < s.parts) (width : BitVec 4) (value : W64) :
    execResumeRetry p width value s = .next (if value.getLsbD 63 = false ∧ width = 8 then s.writeResume p.val value.toNat else s) := by
  unfold execResumeRetry
  rw [resumeWrite_eq hs]
  cases value.getLsbD 63 <;> simp

theorem resumeFail_eq {s : State} {p : Fin 8} (hs : p.val < s.parts) (width : BitVec 4) (value : W64) :
    execResumeFail p width value s = .next (if value.getLsbD 63 = true ∧ width = 8 then s.writeResume p.val value.toNat else s) := by
  unfold execResumeFail
  rw [resumeWrite_eq hs]
  cases value.getLsbD 63 <;> simp

/-- The stalled fault a RESUME value names (R264). -/
def stallNamed (s : State) (p v : Nat) : Option StalledFault :=
  s.stalled.find? fun f => f.part = p && f.die = field v 48 8 && f.seq % 2 ^ 32 = field v 0 32

theorem writeResume_unnamed {s : State} {p v : Nat} (h : stallNamed s p v = none) : s.writeResume p v = s.count 0xA081 6 1 := by
  unfold stallNamed at h
  simp only [State.writeResume, h]

section
variable {s : State} {p v : Nat} {f : StalledFault} {g : Group} (h : stallNamed s p v = some f) (hg : s.group? f.group = some g)
include h hg

theorem writeResume_retries (hv : v.testBit 63 = false) (hx : f.xfer = none) (hw : g.wait = .faulted f.die f.seq) :
    s.writeResume p v = { s with stalled := s.stalled.filter fun y => y ≠ f }.setGroup f.group { g with wait := .ready } := by
  unfold stallNamed at h
  have hg' : State.group? { s with stalled := s.stalled.filter fun y => y ≠ f } f.group = some g := hg
  simp only [State.writeResume, h, hv, Bool.false_eq_true, if_false, hx, Option.isSome_none, State.modGroup, hg', hw, if_true]

theorem writeResume_fails (hv : v.testBit 63 = true) :
    s.writeResume p v = ({ s with stalled := s.stalled.filter fun y => y ≠ f }.setGroup f.group
      { g with halted := true, wait := .ready }).abortKernel g.kernel f.code := by
  unfold stallNamed at h
  have hg' : State.group? { s with stalled := s.stalled.filter fun y => y ≠ f } f.group = some g := hg
  simp only [State.writeResume, h, hv, if_true, hg']

end

/-! #### FQ_LOST, FQ_BASE and FQ_CTL -/

/-- Any byte of FQ_LOST[k] falls into the eight-byte register. -/
theorem findReg_fqLost (p : Nat) {k off : Nat} (hk : k < 8) (ho : off < 8) :
    findReg (.xl p) xlWidth (0x40 + 8 * k + off) = some { reg := .xl p (0x40 + 8 * k), base := 0x40 + 8 * k, width := 8 } := by
  have hstart : xlWidth (0x40 + 8 * k) = some 8 := by
    unfold xlWidth
    simp (disch := omega) only [if_neg, if_pos]
  have hsecond : xlWidth (0x44 + 8 * k) = none := by
    unfold xlWidth
    simp (disch := omega) only [if_neg]
  have hlong : (0x40 + 8 * k + off) / 8 * 8 = 0x40 + 8 * k := by omega
  rcases Nat.lt_or_ge off 4 with h | h
  · have hshort : (0x40 + 8 * k + off) / 4 * 4 = 0x40 + 8 * k := by omega
    simp [findReg, hshort, hstart, ho]
  · have hshort : (0x40 + 8 * k + off) / 4 * 4 = 0x44 + 8 * k := by omega
    simp [findReg, hshort, hlong, hstart, hsecond, ho]

theorem readReg_fqLost (s : State) {p k : Nat} (hk : k < 8) : s.readReg (.xl p (0x40 + 8 * k)) = s.readFqLost p k := by
  have hidx : (0x40 + 8 * k - 0x40) / 8 = k := by omega
  unfold State.readReg
  simp (disch := omega) only [if_neg, if_pos, hidx]

theorem fqLostRead_effect {s : State} {p k : Fin 8} (hs : p.val < s.parts) {off : BitVec 3} {width : BitVec 4}
    (hw : width = 1 ∨ width = 2 ∨ width = 4 ∨ width = 8) (halign : off.toNat % width.toNat = 0) :
    let x := s.xl p.val
    execFqLostRead p k off width s = .next ((s.setXl p.val { x with fqLost := sdel k.val x.fqLost }).send
      (.registerRead (BitVec.ofNat 64 (field (sgetD x.fqLost k.val 0).toNat (8 * off.toNat) (8 * width.toNat))))) := by
  intro x
  have hk := k.isLt
  have hoff := off.isLt
  have hreg := regAt_xl p.isLt (by omega) (findReg_fqLost p.val hk hoff)
  have hv : s.visible .node (.xl p.val (0x40 + 8 * k.val)) = true := by simpa [State.visible] using hs
  have hwidth : width.toNat = 1 ∨ width.toNat = 2 ∨ width.toNat = 4 ∨ width.toNat = 8 := by
    rcases hw with rfl | rfl | rfl | rfl <;> simp
  obtain ⟨hfit, hbyte⟩ : off.toNat + width.toNat ≤ 8 ∧
      (0xC80000000 + 0x10000 * p.val + (0x40 + 8 * k.val + off.toNat)) % width.toNat = 0 := by
    rcases hwidth with h | h | h | h <;> rw [h] at halign ⊢ <;> omega
  have haddr : xlBase p.val + 0x40 + 8 * k.val + off.toNat = xlBase p.val + (0x40 + 8 * k.val + off.toNat) := by omega
  have hpos : 0xC80000000 + 0x10000 * p.val + (0x40 + 8 * k.val + off.toNat) - (0x40 + 8 * k.val + (0xC80000000 + 0x10000 * p.val)) =
      off.toNat := by omega
  unfold execFqLostRead
  rw [haddr, xlBase_add, readAt_node (by omega) hreg hwidth hbyte (by simp only [RegAt.shift]; omega) hv]
  simp only [RegAt.shift, readReg_fqLost s hk, hpos]
  rfl

theorem foldl_fst_of_fixed {α β γ : Type} {f : α × β → γ → α × β} {a : α} (h : ∀ b c, (f (a, b) c).1 = a) (l : List γ) (b : β) :
    (l.foldl f (a, b)).1 = a := by
  induction l generalizing b with
  | nil => rfl
  | cons c r ih =>
    have hstep : f (a, b) c = (a, (f (a, b) c).2) := Prod.ext (h b c) rfl
    rw [List.foldl_cons, hstep]
    exact ih _

/-- While the queue is off or full, or nothing waits, no waiting record goes in (R266). -/
theorem drainWaiting_stopped {s : State} {p : Nat} (h : (s.xl p).enable = false ∨ (s.xl p).full = true ∨ (s.xl p).waitingRecords = []) :
    s.drainWaiting p = s := by
  unfold State.drainWaiting
  by_cases hnone : (s.xl p).waitingRecords = []
  · simp only [hnone, List.foldl_nil]
  · refine foldl_fst_of_fixed (fun b r => ?_) _ true
    have hstop : (!b || !(s.xl p).enable || (s.xl p).full) = true := by
      rcases h with h | h | h
      · simp [h]
      · simp [h]
      · exact absurd h hnone
    simp only [hstop, if_true]

/-- FQ_BASE as written: while the queue is off, the address with bits 11:0 zero (R254). -/
theorem writeReg_fqBase (s : State) (p mask n : Nat) : s.writeReg .node none (.xl p 0) mask n =
    if (s.xl p).enable then s
    else s.setXl p { s.xl p with fqBase := BitVec.ofNat 64 (4096 * (mergeMask (s.xl p).fqBase.toNat mask n / 4096)) } := rfl

/-- The state after a write of FQ_CTL, before waiting records go in (R254, R265). -/
def fqCtlWritten (s : State) (p mask n : Nat) : State :=
  let x := s.xl p
  s.setXl p { x with
    invDrop := x.invDrop && !(n &&& mask).testBit 3
    overflow := x.overflow && !(n &&& mask).testBit 2
    inten := (mergeMask x.fqCtl mask n).testBit 1
    enable := (mergeMask x.fqCtl mask n).testBit 0 && (x.enable || s.rangeHeld p x.fqBase.toNat (64 * x.fqSize.toNat)) }

theorem writeReg_fqCtl (s : State) (p mask n : Nat) :
    s.writeReg .node none (.xl p 0x20) mask n = (fqCtlWritten s p mask n).drainWaiting p := rfl

theorem fqCtlWritten_waiting (s : State) (p mask n : Nat) :
    ((fqCtlWritten s p mask n).xl p).waitingRecords = (s.xl p).waitingRecords := by
  unfold fqCtlWritten
  rw [xl_setXl]

/-! #### TALLY_ADD and writes in general -/

theorem tallyAdd_eq (die : Fin 4) (off : BitVec 17) (width : BitVec 4) (value : W64) (s : State) :
    execTallyAdd die off width value s =
      .next (if width = 8 ∧ off.toNat % 8 = 0 then s.tallyAddReg die.val (off.toNat / 8) value.toNat else s) := by
  have hoff := off.isLt
  have hdie := die.isLt
  have hreg := regAt_tallyAdd hdie hoff
  have haddr : blockBase die.val + 0x40020000 + off.toNat = 0x100000000000 + (0x200000000 * die.val + 0x40020000 + off.toNat) := by
    unfold blockBase
    omega
  have hwidth : width.toNat = 8 ↔ width = 8 := by bv_omega
  have halign : (0x200000000 * die.val + 0x40020000 + off.toNat) % 8 = off.toNat % 8 := by omega
  unfold execTallyAdd
  rw [haddr, writeAt_acting (by omega) hreg rfl (by simp only []; omega) rfl rfl]
  simp only [hwidth, halign, Nat.mod_eq_of_lt value.isLt]
  rfl

/-- A whole write adds to a tally that a kernel holds, and else is counted (R215). -/
theorem tallyAddReg_held {s : State} {d i : Nat} (h : ((s.tally d).holder i).isSome = true) (value : W64) :
    s.tallyAddReg d i value.toNat = s.setTally d { s.tally d with vals := sput (s.tally d).vals i (sgetD (s.tally d).vals i 0 + value) 0 } := by
  simp only [State.tallyAddReg, h, if_true, State.tallyInc, BitVec.ofNat_toNat, BitVec.setWidth_eq]

theorem tallyAddReg_unheld {s : State} {d i : Nat} (h : ((s.tally d).holder i).isSome = false) (n : Nat) :
    s.tallyAddReg d i n = s.count 0xA072 4 1 := by
  simp only [State.tallyAddReg, h, Bool.false_eq_true, if_false]

/-- RESUME that names a stalled access retries it or fails its group (R264). -/
theorem resume_named {s : State} {p : Fin 8} (hs : p.val < s.parts) {width : BitVec 4} {value : W64} {f : StalledFault} {g : Group}
    (hf : stallNamed s p.val value.toNat = some f) (hx : f.xfer = none) (hg : s.group? f.group = some g)
    (hw : g.wait = .faulted f.die f.seq) (hwidth : width = 8) :
    let u := { s with stalled := s.stalled.filter fun y => y ≠ f }
    (value.getLsbD 63 = false → execResumeRetry p width value s = .next (u.setGroup f.group { g with wait := .ready })) ∧
    (value.getLsbD 63 = true → execResumeFail p width value s =
      .next ((u.setGroup f.group { g with halted := true, wait := .ready }).abortKernel g.kernel f.code)) := by
  intro u
  refine ⟨fun hv => ?_, fun hv => ?_⟩
  · rw [resumeRetry_eq hs, if_pos ⟨hv, hwidth⟩, writeResume_retries hf hg hv hx hw]
  · rw [resumeFail_eq hs, if_pos ⟨hv, hwidth⟩, writeResume_fails hf hg hv]

/-- RESUME with the other FAIL, or of part of the register, does nothing; one that names no stall is counted (R264, R457). -/
theorem resume_unnamed {s : State} {p : Fin 8} {width : BitVec 4} {value : W64} {fail : Bool} {answer : Answer}
    (h : answer = .next (if value.getLsbD 63 = fail ∧ width = 8 then s.writeResume p.val value.toNat else s)) :
    (value.getLsbD 63 ≠ fail ∨ width ≠ 8 → answer = .next s) ∧
    (value.getLsbD 63 = fail → width = 8 → stallNamed s p.val value.toNat = none → answer = .next (s.count 0xA081 6 1)) := by
  subst h
  refine ⟨fun h => ?_, fun hv hwidth hnone => ?_⟩
  · rw [if_neg fun hboth => h.elim (· hboth.1) (· hboth.2)]
  · rw [if_pos ⟨hv, hwidth⟩, writeResume_unnamed hnone]

/-- Settles O34: each acting register by its own rule. -/
theorem actingRegisters : Obligations.ActingRegisters := by
  unfold Obligations.ActingRegisters
  intro s t p k die value width off toff via addr x v put invs resumes named lost hs
  refine ⟨?_, invalidationComplete_waits, fun op ctx page n rest => invalidationComplete_effect, ?_,
    fun f g hf hx hg hw hwidth => resume_named hs hf hx hg hw hwidth, fqLostRead_effect hs,
    fun halign hwidth => ?_, fun hwidth => ?_, fun h => ?_, fun r h => ?_, fun mask n => ?_⟩
  · intro i hi
    simp only [invs, List.mem_cons, List.not_mem_nil, or_false] at hi
    rcases hi with rfl | rfl | rfl
    · exact invWrite_effect hs (op := 1) (by decide) rfl
    · exact invWrite_effect hs (op := 2) (by decide) rfl
    · exact invWrite_effect hs (op := 3) (by decide) rfl
  · intro i hi
    simp only [resumes, List.mem_cons, List.not_mem_nil, or_false] at hi
    rcases hi with rfl | rfl
    · exact resume_unnamed (resumeRetry_eq hs width value)
    · exact resume_unnamed (resumeFail_eq hs width value)
  · have hadd : exec (.tallyAdd die toff width value) s = .next (s.tallyAddReg die.val (toff.toNat / 8) value.toNat) :=
      (tallyAdd_eq die toff width value s).trans (by rw [if_pos ⟨hwidth, halign⟩])
    refine ⟨fun h => ?_, fun h => ?_⟩
    · rw [hadd, tallyAddReg_held h]
    · rw [hadd, tallyAddReg_unheld h]
  · exact (tallyAdd_eq die toff width value s).trans (by rw [if_neg (fun h => hwidth h.1)])
  · exact congrArg _ (writeAt_of_no_access h none v)
  · obtain ⟨haligned, hfits⟩ := access_within h
    exact ⟨haligned, hfits, fun hact hw => congrArg _ (writeAt_of_part h hact hw none v), fun hw => congrArg _ (writeAt_of_access h hw none v)⟩
  · refine ⟨writeReg_fqBase s p.val mask n, writeReg_fqCtl s p.val mask n, fun h => drainWaiting_stopped ?_⟩
    exact h.imp_right (Or.imp_right (fqCtlWritten_waiting s p.val mask n).trans)

end Sys2Proof.Proofs

/-! ### Links by direction, and events (R269, R279, R379) -/
namespace Sys2Proof.Proofs
open Sys2Proof.Machine Sys2Proof.Laws

/-! #### One direction of a link -/

@[simp] theorem link_setLink (s : State) (i : Nat) (x : Link) : (s.setLink i x).link i = x := sgetD_sput_same _ i x {}

@[simp] theorem link_setEnd (s : State) (d : LinkDir) (e : LinkEnd) :
    (s.setEnd d e).link d.link.val = (s.link d.link.val).setDir d.rev e := link_setLink s _ _

theorem link_setEnd_back (s : State) (d : LinkDir) (e : LinkEnd) :
    (s.setEnd (dirBack d) e).link d.link.val = (s.link d.link.val).setDir (!d.rev) e := link_setLink s _ _

@[simp] theorem setDir_state (l : Link) (rev : Bool) (e : LinkEnd) : (l.setDir rev e).state = l.state := by
  cases rev <;> rfl

@[simp] theorem setDir_active (l : Link) (rev : Bool) (e : LinkEnd) : (l.setDir rev e).active = l.active := by
  simp only [Link.active, setDir_state]

@[simp] theorem linkEnd_setEnd (s : State) (d : LinkDir) (e : LinkEnd) : (s.setEnd d e).linkEnd d = e := by
  rw [State.linkEnd, link_setEnd]
  cases d.rev <;> rfl

/-- A direction is not changed by what happens to the other. -/
@[simp] theorem linkEnd_setEnd_back (s : State) (d : LinkDir) (e : LinkEnd) : (s.setEnd (dirBack d) e).linkEnd d = s.linkEnd d := by
  rw [State.linkEnd, link_setEnd_back, State.linkEnd]
  cases d.rev <;> rfl

@[simp] theorem linkEnd_back_setEnd (s : State) (d : LinkDir) (e : LinkEnd) : (s.setEnd d e).linkEnd (dirBack d) = s.linkEnd (dirBack d) := by
  have hlink : (dirBack d).link.val = d.link.val := rfl
  have hrev : (dirBack d).rev = !d.rev := rfl
  rw [State.linkEnd, hlink, hrev, link_setEnd, State.linkEnd, hlink, hrev]
  cases d.rev <;> rfl

theorem lanesLost_eq (s : State) (d : LinkDir) : s.lanesLost d.link.val =
    (decide (linkSpares d.link.val < (s.linkEnd d).failedLanes.length) ||
      decide (linkSpares d.link.val < (s.linkEnd (dirBack d)).failedLanes.length)) := by
  have hback : s.linkEnd (dirBack d) = (s.link d.link.val).dir (!d.rev) := rfl
  rw [hback, State.linkEnd, State.lanesLost]
  cases d.rev
  · rfl
  · exact Bool.or_comm _ _

/-! #### A retrain -/

theorem startRetrain_mem (s : State) (i : Nat) (by' : Option LinkDir) : (s.startRetrain i by').mem = s.mem := by
  unfold State.startRetrain
  split
  · rfl
  · cases by' <;> rfl

/-- An active link that retrains says so; both its ends keep what has failed (R279). -/
theorem startRetrain_active {s : State} {d : LinkDir} (h : (s.link d.link.val).active = true) (by' : Option LinkDir) :
    ((s.startRetrain d.link.val by').link d.link.val).state = .retraining ∧
      ((s.startRetrain d.link.val by').linkEnd d).failedLanes = (s.linkEnd d).failedLanes := by
  let l : Link := { s.link d.link.val with
    state := .retraining
    fwd := { (s.link d.link.val).fwd with locked := false, credited := false }
    rev := { (s.link d.link.val).rev with locked := false, credited := false } }
  have hlink : (s.startRetrain d.link.val by').link d.link.val = l := by
    unfold State.startRetrain
    rw [h]
    cases by' <;> exact link_setLink _ d.link.val l
  rw [State.linkEnd, hlink, State.linkEnd]
  cases d.rev <;> exact ⟨rfl, rfl⟩

/-! #### Events -/

theorem ite_kept {σ β : Type} (g : σ → β) {c : Prop} [Decidable c] {x y : σ} {b : β} (hx : g x = b) (hy : g y = b) :
    g (if c then x else y) = b := by
  split
  · exact hx
  · exact hy

theorem foldl_of_kept {σ α β : Type} (g : σ → β) {f : σ → α → σ} (h : ∀ s a, g (f s a) = g s) (l : List α) (s : σ) :
    g (l.foldl f s) = g s := by
  induction l generalizing s with
  | nil => rfl
  | cons a r ih => exact (ih (f s a)).trans (h s a)

@[simp] theorem trace_links (s : State) (die : Nat) (r : BitVec 512) : (s.trace die r).links = s.links := by
  unfold State.trace
  split <;> rfl

@[simp] theorem trace_events (s : State) (die : Nat) (r : BitVec 512) : (s.trace die r).mem.events = s.mem.events := by
  unfold State.trace
  split <;> rfl

@[simp] theorem setInterval_links (s : State) (p : Nat) : (s.setInterval p).links = s.links := by
  unfold State.setInterval
  split <;> rfl

@[simp] theorem setInterval_mem (s : State) (p : Nat) : (s.setInterval p).mem = s.mem := by
  unfold State.setInterval
  split <;> rfl

/-- The record an event makes (R379). -/
def eventRecord (s : State) (e : Event) : BitVec 512 :=
  BitVec.ofNat 512 (e.cls <<< 128 ||| e.part <<< 132 ||| e.die <<< 136 ||| e.code <<< 144
    ||| s.freeWord.toNat <<< 160 ||| (sgetD s.mem.eventSeq e.die 0 % 2 ^ 32) <<< 224 ||| (s.mem.nextLog % 2 ^ 32) <<< 256
    ||| (e.kernelId % 2 ^ 32) <<< 288 ||| (e.location % 2 ^ 32) <<< 320 ||| 1 <<< 352
    ||| (e.data % 2 ^ 64) <<< 384 ||| (e.addr % 2 ^ 64) <<< 448)

theorem newEvent_links (s : State) (e : Event) : (s.newEvent e).links = s.links := by
  have hfold : ∀ (n : Nat) (t : State), ((List.range n).foldl (fun s p => s.setInterval p) t).links = t.links :=
    fun n => foldl_of_kept State.links setInterval_links _
  simp only [State.newEvent, trace_links, count_links]
  exact ite_kept State.links ((hfold _ _).trans (ite_kept State.links rfl rfl)) (ite_kept State.links rfl rfl)

/-- A new record goes to the front of the event log, which holds 8,192 (R379). -/
theorem newEvent_events (s : State) (e : Event) : (s.newEvent e).mem.events = (eventRecord s e :: s.mem.events).take 8192 := by
  have hfold : ∀ (n : Nat) (t : State), ((List.range n).foldl (fun s p => s.setInterval p) t).mem = t.mem :=
    fun n => foldl_of_kept State.mem setInterval_mem _
  have hlog : ∀ {t : State}, t.mem.events = (eventRecord s e :: s.mem.events).take 8192 →
      ((List.range t.parts).foldl (fun s p => s.setInterval p) t).mem.events = (eventRecord s e :: s.mem.events).take 8192 :=
    fun h => (congrArg Mem.events (hfold _ _)).trans h
  simp only [State.newEvent, trace_events, count_mem]
  exact ite_kept (fun t : State => t.mem.events) (hlog (ite_kept (fun t : State => t.mem.events) rfl rfl)) (ite_kept (fun t : State => t.mem.events) rfl rfl)

theorem link_event (s : State) (e : Event) (i : Nat) : (s.event e).link i = s.link i := by
  have hlinks : (s.event e).links = s.links := by
    unfold State.event
    split
    · exact newEvent_links s e
    · split
      · exact newEvent_links _ e
      · rfl
  rw [State.link, hlinks, State.link]

theorem linkEnd_event (s : State) (e : Event) (d : LinkDir) : (s.event e).linkEnd d = s.linkEnd d := by
  rw [State.linkEnd, link_event, State.linkEnd]

/-- Only a corrected event joins an older record. -/
theorem event_of_not_corrected {e : Event} (h : e.cls ≠ 1) (s : State) : s.event e = s.newEvent e := by
  have hnone : s.mem.events.find? e.coalesces = none := by
    rw [List.find?_eq_none]
    intro r _
    simp [Event.coalesces, h]
  simp only [State.event, hnone]

/-- A record's CODE is the event's. -/
theorem eventRecord_code (s : State) {e : Event} (hcls : e.cls < 2 ^ 4) (hpart : e.part < 2 ^ 4) (hdie : e.die < 2 ^ 8) (hcode : e.code < 2 ^ 16) :
    field (eventRecord s e).toNat 144 16 = e.code := by
  refine Nat.eq_of_testBit_eq fun i => ?_
  rcases Nat.lt_or_ge i 16 with hi | hi
  · have h0 : e.cls.testBit (144 + i - 128) = false := Nat.testBit_lt_two_pow (Nat.lt_of_lt_of_le hcls (Nat.pow_le_pow_right (by omega) (by omega)))
    have h1 : e.part.testBit (144 + i - 132) = false := Nat.testBit_lt_two_pow (Nat.lt_of_lt_of_le hpart (Nat.pow_le_pow_right (by omega) (by omega)))
    have h2 : e.die.testBit (144 + i - 136) = false := Nat.testBit_lt_two_pow (Nat.lt_of_lt_of_le hdie (Nat.pow_le_pow_right (by omega) (by omega)))
    have hpos : ∀ k, k ≤ 144 → decide (144 + i ≥ k) = true := fun k hk => decide_eq_true (by omega)
    have habove : ∀ k, 160 ≤ k → decide (144 + i ≥ k) = false := fun k hk => decide_eq_false (by omega)
    have hin : decide (144 + i < 512) = true := decide_eq_true (by omega)
    have hcut : 144 + i - 144 = i := by omega
    simp (disch := decide) only [-Nat.reduceShiftLeft, -Nat.reducePow, field, eventRecord, BitVec.toNat_ofNat, Nat.testBit_mod_two_pow,
      Nat.testBit_shiftRight, Nat.testBit_or, Nat.testBit_shiftLeft, hpos, habove, hin, hcut, hi, h0, h1, h2, decide_true,
      Bool.true_and, Bool.false_and, Bool.or_false, Bool.false_or, Bool.and_false]
  · rw [Nat.testBit_lt_two_pow (Nat.lt_of_lt_of_le hcode (Nat.pow_le_pow_right (by omega) hi))]
    exact Nat.testBit_lt_two_pow (Nat.lt_of_lt_of_le (Nat.mod_lt _ (by decide)) (Nat.pow_le_pow_right (by omega) hi))

end Sys2Proof.Proofs

/-! ### LANECHECK (R271, R282, R364) -/
namespace Sys2Proof.Proofs
open Sys2Proof.Machine Sys2Proof.Laws

/-! #### A table of one lane, and folds that touch one lane -/

/-- The table whose only entry is a lane's count. -/
def laneOnly (lane n : Nat) : Sparse Nat := if n = 0 then [] else [(lane, n)]

theorem sgetD_laneOnly (lane n p : Nat) : sgetD (laneOnly lane n) p 0 = if p = lane then n else 0 := by
  have hcomm : lane = p ↔ p = lane := eq_comm
  unfold laneOnly
  by_cases hn : n = 0
  · simp [hn, sgetD, sget?]
  · by_cases hp : p = lane <;> simp [hn, sgetD, sget?, hcomm, hp]

theorem sput_laneOnly_same (lane n m : Nat) : sput (laneOnly lane n) lane m 0 = laneOnly lane m := by
  unfold laneOnly sput
  by_cases hn : n = 0 <;> by_cases hm : m = 0 <;> simp [hn, hm, sset, sdel]

theorem sput_laneOnly_other {lane p : Nat} (hp : p ≠ lane) (n : Nat) : sput (laneOnly lane n) p 0 0 = laneOnly lane n := by
  have hne : ¬ lane = p := fun e => hp e.symm
  unfold laneOnly sput
  by_cases hn : n = 0 <;> simp [hn, hne, sdel]

theorem foldl_of_fixed {α β : Type} {f : α → β → α} {a : α} {l : List β} (h : ∀ b ∈ l, f a b = a) : l.foldl f a = a := by
  induction l with
  | nil => rfl
  | cons b r ih => rw [List.foldl_cons, h b List.mem_cons_self, ih fun c hc => h c (List.mem_cons_of_mem b hc)]

/-- A fold over indices in which one index alone changes anything. -/
theorem foldl_range_only {α : Type} {f : α → Nat → α} {a : α} {n k : Nat} (hk : k < n)
    (h : ∀ p < n, p ≠ k → f a p = a ∧ f (f a k) p = f a k) : (List.range n).foldl f a = f a k := by
  obtain ⟨l₁, l₂, hl⟩ := List.append_of_mem (List.mem_range.mpr hk)
  have hnodup : (k :: (l₁ ++ l₂)).Nodup := List.perm_middle.nodup_iff.mp (hl ▸ List.nodup_range)
  have hother : ∀ p ∈ l₁ ++ l₂, f a p = a ∧ f (f a k) p = f a k := by
    intro p hp
    have hmem : p ∈ List.range n := by
      rw [hl]
      exact (List.perm_middle.mem_iff).mpr (List.mem_cons_of_mem k hp)
    exact h p (List.mem_range.mp hmem) fun e => (List.nodup_cons.mp hnodup).1 (e ▸ hp)
  rw [hl, List.foldl_append, foldl_of_fixed fun p hp => (hother p (List.mem_append_left l₂ hp)).1, List.foldl_cons,
    foldl_of_fixed fun p hp => (hother p (List.mem_append_right l₁ hp)).2]

theorem filter_range_singleton {q : Nat → Bool} {n k : Nat} (hk : k < n) (h : ∀ p < n, q p = true ↔ p = k) : (List.range n).filter q = [k] := by
  have hq : (List.range n).filter q = (List.range n).filter (· == k) :=
    List.filter_congr fun p hp => Bool.eq_iff_iff.mpr ((h p (List.mem_range.mp hp)).trans beq_iff_eq.symm)
  rw [hq, List.filter_beq, List.count_range, if_pos hk]
  rfl

/-! #### What a LANECHECK counts -/

/-- The errors of each lane added to those counted before. -/
def laneTotals (i : Nat) (flit : BitVec 2048) (m : Sparse Nat) : Sparse Nat :=
  (List.range (linkLanes i)).foldl (fun m p => if laneErrors i flit p = 0 then m else sput m p (sgetD m p 0 + laneErrors i flit p) 0) m

/-- How many LANECHECKs in a row showed more than 8 errors, by lane. -/
def laneStreaks (i : Nat) (flit : BitVec 2048) (m : Sparse Nat) : Sparse Nat :=
  (List.range (linkLanes i)).foldl (fun m p => sput m p (if 8 < laneErrors i flit p then sgetD m p 0 + 1 else 0) 0) m

/-- The lanes past a threshold. -/
def lanesHigh (i : Nat) (totals streaks : Sparse Nat) : List Nat :=
  (List.range (linkLanes i)).filter fun p => decide (3 ≤ sgetD streaks p 0) || decide (1024 ≤ sgetD totals p 0)

/-- The state once the flit's ACK or its CRC failure has been taken. -/
def laneCheckMet (s : State) (d : LinkDir) (flit : BitVec 2048) : State :=
  if flitGood flit then s.ackTaken (dirBack d) (flitAck flit) else s.linkError d

/-- What the counts of a LANECHECK lead to. -/
def laneCheckOutcome (s : State) (d : LinkDir) (totals streaks : Sparse Nat) (high : List Nat) : State :=
  let i := d.link.val
  let e := s.linkEnd d
  let bad := high.map fun p => (physicalLane i e.failedLanes p, sgetD totals p 0)
  let gone := fun (m : Sparse Nat) => high.foldl (fun m p => sdel p m) m
  let failed := (List.range (linkLanes i + linkSpares i)).filter fun p => e.failedLanes.contains p || bad.any fun x => x.1 = p
  let s := s.setEnd d { e with laneErrors := gone totals, laneStreak := gone streaks, failedLanes := failed }
  let s := bad.foldl (fun (s : State) x => s.event { cls := 4, code := 0x21, die := (dirReceiver d), location := 256 * i + x.1, data := x.2 }) s
  if bad = [] then s else if s.lanesLost i then s.declareDown i else s.startRetrain i (some (dirBack d))

/-- A LANECHECK flit as its receiver takes one. -/
def IsLaneCheck (s : State) (d : LinkDir) (flit : BitVec 2048) : Prop :=
  (s.link d.link.val).active = true ∧ flitKind flit = 2 ∧ field flit.toNat 64 8 = 4

theorem controlWord_code (flit : BitVec 2048) : controlWord flit % 256 = field flit.toNat 64 8 :=
  Nat.mod_mod_of_dvd _ (Nat.pow_dvd_pow 2 (by decide : 8 ≤ 128))

theorem laneCheck_ignored {s : State} {d : LinkDir} {flit : BitVec 2048} (h : ¬ IsLaneCheck s d flit) : execLaneCheck d flit s = .next s := by
  unfold execLaneCheck
  refine congrArg _ (if_pos ?_)
  rw [controlWord_code]
  simp only [IsLaneCheck, Classical.not_and_iff_not_or_not] at h
  simpa [or_assoc] using h

theorem laneCheck_counted {s : State} {d : LinkDir} {flit : BitVec 2048} (h : IsLaneCheck s d flit) :
    execLaneCheck d flit s = .next
      (let u := laneCheckMet s d flit
       let totals := laneTotals d.link.val flit (u.linkEnd d).laneErrors
       let streaks := laneStreaks d.link.val flit (u.linkEnd d).laneStreak
       laneCheckOutcome u d totals streaks (lanesHigh d.link.val totals streaks)) := by
  obtain ⟨hactive, hkind, hcode⟩ := h
  unfold execLaneCheck
  refine congrArg _ (if_neg ?_)
  rw [controlWord_code]
  simp [hactive, hkind, hcode]

/-- Taking the ACK or the CRC failure leaves what the direction has counted, and the link as active as it was. -/
theorem laneCheckMet_keeps (s : State) (d : LinkDir) (flit : BitVec 2048) :
    ((laneCheckMet s d flit).linkEnd d).laneErrors = (s.linkEnd d).laneErrors ∧
    ((laneCheckMet s d flit).linkEnd d).laneStreak = (s.linkEnd d).laneStreak ∧
    ((laneCheckMet s d flit).linkEnd d).failedLanes = (s.linkEnd d).failedLanes ∧
    ((laneCheckMet s d flit).linkEnd (dirBack d)).failedLanes = (s.linkEnd (dirBack d)).failedLanes ∧
    ((laneCheckMet s d flit).link d.link.val).active = (s.link d.link.val).active := by
  have hsend : ∀ (t : State) (o : Out), (t.send o).linkEnd = t.linkEnd ∧ (t.send o).link = t.link := fun _ _ => ⟨rfl, rfl⟩
  unfold laneCheckMet
  split
  · simp [State.ackTaken, LinkEnd.takeAck, link_setEnd_back]
  · by_cases hn : (s.linkEnd d).nakSent = true
    · simp [State.linkError, hn]
    · simp [State.linkError, hn, hsend]

/-! #### Errors on one lane -/

section
variable {i lane : Nat} {flit : BitVec 2048} (hl : lane < linkLanes i) (hclean : ∀ p < linkLanes i, p ≠ lane → laneErrors i flit p = 0)
include hl hclean

theorem laneTotals_of_one (t : Nat) : laneTotals i flit (laneOnly lane t) = laneOnly lane (t + laneErrors i flit lane) := by
  have hself : (if laneErrors i flit lane = 0 then laneOnly lane t
      else sput (laneOnly lane t) lane (sgetD (laneOnly lane t) lane 0 + laneErrors i flit lane) 0) = laneOnly lane (t + laneErrors i flit lane) := by
    rw [sput_laneOnly_same, sgetD_laneOnly, if_pos rfl]
    split
    · next h => rw [h, Nat.add_zero]
    · rfl
  unfold laneTotals
  rw [foldl_range_only hl fun p hp hne => by simp only [hclean p hp hne, if_true, and_self], hself]

theorem laneStreaks_of_one (k : Nat) :
    laneStreaks i flit (laneOnly lane k) = laneOnly lane (if 8 < laneErrors i flit lane then k + 1 else 0) := by
  have hself : ∀ n, sput (laneOnly lane k) lane (if 8 < laneErrors i flit lane then sgetD (laneOnly lane k) lane 0 + 1 else 0) n =
      sput (laneOnly lane k) lane (if 8 < laneErrors i flit lane then k + 1 else 0) n := by
    intro n
    rw [sgetD_laneOnly, if_pos rfl]
  unfold laneStreaks
  refine (foldl_range_only hl fun p hp hne => ?_).trans ((hself 0).trans (sput_laneOnly_same ..))
  rw [hself, sput_laneOnly_same]
  simp only [hclean p hp hne, Nat.not_lt_zero, if_false, sput_laneOnly_other hne, and_self]

end

theorem lanesHigh_none {i lane t k : Nat} (ht : t < 1024) (hk : k < 3) : lanesHigh i (laneOnly lane t) (laneOnly lane k) = [] := by
  refine List.filter_eq_nil_iff.mpr fun p _ => ?_
  simp only [sgetD_laneOnly, Bool.or_eq_true, decide_eq_true_eq]
  split <;> omega

theorem lanesHigh_one {i lane t k : Nat} (hl : lane < linkLanes i) (h : 1024 ≤ t ∨ 3 ≤ k) :
    lanesHigh i (laneOnly lane t) (laneOnly lane k) = [lane] := by
  refine filter_range_singleton hl fun p _ => ?_
  simp only [sgetD_laneOnly, Bool.or_eq_true, decide_eq_true_eq]
  split <;> omega

/-- Counts below the thresholds are kept. -/
theorem laneCheckOutcome_counts (s : State) (d : LinkDir) (totals streaks : Sparse Nat) :
    laneCheckOutcome s d totals streaks [] = s.setEnd d { s.linkEnd d with
      laneErrors := totals, laneStreak := streaks
      failedLanes := (List.range (linkLanes d.link.val + linkSpares d.link.val)).filter fun p => (s.linkEnd d).failedLanes.contains p } := by
  simp [laneCheckOutcome]

theorem linkSpares_pos (i : Nat) : 0 < linkSpares i := by
  unfold linkSpares
  split <;> decide

theorem dirReceiver_lt (d : LinkDir) : dirReceiver d < 9 := by
  have hends : ∀ l : Fin 19, (linkEnds.getD l.val (0, 0)).1 < 9 ∧ (linkEnds.getD l.val (0, 0)).2 < 9 := by decide
  obtain ⟨l, rev⟩ := d
  cases rev
  · exact (hends l).2
  · exact (hends l).1

/-- The state once a first lane is retired: its counts are gone, the lane has failed, and an event names it (R282, R364). -/
def laneRetired (s : State) (d : LinkDir) (lane : Nat) (totals streaks : Sparse Nat) : State :=
  (s.setEnd d { s.linkEnd d with laneErrors := sdel lane totals, laneStreak := sdel lane streaks, failedLanes := [lane] }).event
    { cls := 4, code := 0x21, die := dirReceiver d, location := 256 * d.link.val + lane, data := sgetD totals lane 0 }

theorem linkEnd_laneRetired (s : State) (d : LinkDir) (lane : Nat) (totals streaks : Sparse Nat) :
    (laneRetired s d lane totals streaks).linkEnd d =
      { s.linkEnd d with laneErrors := sdel lane totals, laneStreak := sdel lane streaks, failedLanes := [lane] } :=
  (linkEnd_event ..).trans (linkEnd_setEnd ..)

theorem linkEnd_back_laneRetired (s : State) (d : LinkDir) (lane : Nat) (totals streaks : Sparse Nat) :
    (laneRetired s d lane totals streaks).linkEnd (dirBack d) = s.linkEnd (dirBack d) :=
  (linkEnd_event ..).trans (linkEnd_back_setEnd ..)

theorem active_laneRetired (s : State) (d : LinkDir) (lane : Nat) (totals streaks : Sparse Nat) :
    ((laneRetired s d lane totals streaks).link d.link.val).active = (s.link d.link.val).active := by
  rw [laneRetired, link_event, link_setEnd, setDir_active]

theorem laneRetired_event (s : State) (d : LinkDir) (lane : Nat) (totals streaks : Sparse Nat) :
    (laneRetired s d lane totals streaks).mem.events.head?.map (fun x => field x.toNat 144 16) = some 0x21 := by
  rw [laneRetired, event_of_not_corrected (by simp), newEvent_events]
  exact congrArg some (eventRecord_code _ (by simp) (by simp) (Nat.lt_trans (dirReceiver_lt d) (by simp)) (by simp))

section
variable {s : State} {d : LinkDir} {lane : Nat} (hl : lane < linkLanes d.link.val) (hfailed : (s.linkEnd d).failedLanes = [])
  (hback : (s.linkEnd (dirBack d)).failedLanes = [])
include hl hfailed hback

/-- One failed lane is within a link's spares, so the link retrains. -/
theorem laneCheckOutcome_of_one (totals streaks : Sparse Nat) : laneCheckOutcome s d totals streaks [lane] =
    (laneRetired s d lane totals streaks).startRetrain d.link.val (some (dirBack d)) := by
  have hrange : (List.range (linkLanes d.link.val + linkSpares d.link.val)).filter (fun p => decide (lane = p)) = [lane] :=
    filter_range_singleton (by omega) fun p _ => by rw [decide_eq_true_eq, eq_comm]
  have hspares := linkSpares_pos d.link.val
  have hkept : (laneRetired s d lane totals streaks).lanesLost d.link.val = false := by
    rw [lanesLost_eq, linkEnd_laneRetired, linkEnd_back_laneRetired, hback]
    simpa using Nat.pos_iff_ne_zero.mp hspares
  rw [laneRetired] at hkept ⊢
  simp [laneCheckOutcome, hfailed, physicalLane, hrange, hkept]

/-- A lane past a threshold, the first to fail on its link, is retired: an event names it, and the link retrains. -/
theorem laneCheckOutcome_retires (hactive : (s.link d.link.val).active = true) (totals streaks : Sparse Nat) :
    let u := laneCheckOutcome s d totals streaks [lane]
    (u.link d.link.val).state = .retraining ∧ (u.linkEnd d).failedLanes = [lane] ∧
      u.mem.events.head?.map (fun x => field x.toNat 144 16) = some 0x21 := by
  intro u
  have hu : u = _ := laneCheckOutcome_of_one hl hfailed hback totals streaks
  obtain ⟨hstate, hlanes⟩ := startRetrain_active ((active_laneRetired s d lane totals streaks).trans hactive) (some (dirBack d))
  rw [hu, startRetrain_mem]
  exact ⟨hstate, hlanes.trans (congrArg _ (linkEnd_laneRetired ..)), laneRetired_event ..⟩

end

/-- LANECHECK with errors on one lane alone: below the thresholds they are added up (R271, R364). -/
theorem laneCheck_adds {s : State} {d : LinkDir} {flit : BitVec 2048} {lane t k : Nat} (hcheck : IsLaneCheck s d flit)
    (hl : lane < linkLanes d.link.val) (hclean : ∀ p < linkLanes d.link.val, p ≠ lane → laneErrors d.link.val flit p = 0)
    (ht : (s.linkEnd d).laneErrors = laneOnly lane t) (hk : (s.linkEnd d).laneStreak = laneOnly lane k) :
    let errs := laneErrors d.link.val flit lane
    let streak := if 8 < errs then k + 1 else 0
    let met := laneCheckMet s d flit
    (t + errs < 1024 → streak < 3 → execLaneCheck d flit s = .next (met.setEnd d { met.linkEnd d with
      laneErrors := laneOnly lane (t + errs), laneStreak := laneOnly lane streak
      failedLanes := (List.range (linkLanes d.link.val + linkSpares d.link.val)).filter fun p => (s.linkEnd d).failedLanes.contains p })) ∧
    (1024 ≤ t + errs ∨ 3 ≤ streak → (s.linkEnd d).failedLanes = [] → (s.linkEnd (dirBack d)).failedLanes = [] →
      ∃ u, execLaneCheck d flit s = .next u ∧ (u.link d.link.val).state = .retraining ∧ (u.linkEnd d).failedLanes = [lane] ∧
        u.mem.events.head?.map (fun x => field x.toNat 144 16) = some 0x21) := by
  intro errs streak met
  obtain ⟨htotals, hstreaks, hfailed, hback, hactive⟩ := laneCheckMet_keeps s d flit
  have hexec := laneCheck_counted hcheck
  simp only [htotals, hstreaks, ht, hk, laneTotals_of_one hl hclean, laneStreaks_of_one hl hclean] at hexec
  refine ⟨fun hlow hstreak => ?_, fun hhigh hnone hnoneBack => ?_⟩
  · rw [lanesHigh_none hlow hstreak, laneCheckOutcome_counts, hfailed] at hexec
    exact hexec
  · rw [lanesHigh_one hl hhigh] at hexec
    exact ⟨_, hexec, laneCheckOutcome_retires hl (hfailed.trans hnone) (hback.trans hnoneBack) (hactive.trans hcheck.1) _ _⟩

end Sys2Proof.Proofs

/-! ### Requests, the ford and register messages (R13, R14, R274, R280, R283, R285, R336) -/
namespace Sys2Proof.Proofs
open Sys2Proof.Machine Sys2Proof.Laws

/-! #### Request timers -/

section
variable {s : State} {source : RequestSource} {txid : BitVec 12} {r : PkgRequest}

/-- The request a timer is of (R280). -/
def isTimed (source : RequestSource) (txid : BitVec 12) (x : PkgRequest) : Bool :=
  x.ncr = source.ncr && x.src = source.src.val && x.txid = txid.toNat && !x.expired

theorem requestTimeout_none (h : s.pkgRequests.find? (isTimed source txid) = none) : execRequestTimeout source txid s = .next s := by
  unfold isTimed at h
  simp only [execRequestTimeout, h]

/-- While a link of the route is not up, the timer does not end (R14). -/
theorem requestTimeout_waits (h : s.pkgRequests.find? (isTimed source txid) = some r)
    (hroute : ((routeLinks r.fromDie r.toDie).all fun l => (s.link l).active) = false) : execRequestTimeout source txid s = .next s := by
  unfold isTimed at h
  simp only [execRequestTimeout, h, hroute, Bool.not_false, if_true]

theorem requestTimeout_expires (h : s.pkgRequests.find? (isTimed source txid) = some r) (hone : s.pkgRequests = [r])
    (hroute : ((routeLinks r.fromDie r.toDie).all fun l => (s.link l).active) = true) :
    execRequestTimeout source txid s =
      .next (((({ s with pkgRequests := [{ r with expired := true }] }.count 0x7005 1 1).send (.requestPoisoned source.ncr r.src r.txid)).event
        { cls := 3, code := 0x23, die := r.fromDie, location := (routeLinks r.fromDie r.toDie).headD 0, data := r.txid })) := by
  have hr : isTimed source txid r = true := List.find?_some h
  have hmod : modFirst (isTimed source txid) (fun r => { r with expired := true }) s.pkgRequests = [{ r with expired := true }] := by
    rw [hone]
    simp only [modFirst, hr, if_true]
  unfold isTimed at h hmod
  simp only [execRequestTimeout, h, hroute, Bool.not_true, Bool.false_eq_true, if_false, hmod]

end

section
variable {s : State} {src : Fin 9} {txid : BitVec 12} {r : PkgRequest}

/-- The request an NCP message answers. -/
def isAnswered (src : Fin 9) (txid : BitVec 12) (x : PkgRequest) : Bool := x.src = src.val && x.ncr && x.txid = txid.toNat

theorem ncp_none (value : W64) (h : s.pkgRequests.find? (isAnswered src txid) = none) : execNcp src txid value s = .next s := by
  unfold isAnswered at h
  simp only [execNcp, h]

theorem ncp_late (value : W64) (h : s.pkgRequests.find? (isAnswered src txid) = some r) (he : r.expired = true) :
    execNcp src txid value s = .next (s.count 0x7005 2 1) := by
  unfold isAnswered at h
  simp only [execNcp, h, he, if_true]

theorem ncp_completes (value : W64) (h : s.pkgRequests.find? (isAnswered src txid) = some r) (he : r.expired = false) :
    execNcp src txid value s =
      .next ({ s with pkgRequests := s.pkgRequests.filter fun x => !isAnswered src txid x }.send (.registerRead value)) := by
  unfold isAnswered at h ⊢
  simp only [execNcp, h, he, Bool.false_eq_true, if_false]

end

/-! #### The ford -/

theorem getD_of_lt {α : Type} {l : List α} {i : Nat} (h : i < l.length) (d : α) : l.getD i d = l[i] := by
  rw [List.getD_eq_getElem?_getD, List.getElem?_eq_getElem h, Option.getD_some]

theorem fordEngage_engages {s : State} {d : LinkDir} (hk : d.link.val < 6) (ha : (s.link d.link.val).active = true)
    (hset : setting s 0x7010 2 ≠ 0) : execFordEngage d s = .next (s.setEnd d { s.linkEnd d with forded := true }) :=
  congrArg _ (if_pos (by simp [fordLink, hk, ha, hset]))

theorem fordEngage_refused {s : State} {d : LinkDir}
    (h : 6 ≤ d.link.val ∨ (s.link d.link.val).active = false ∨ setting s 0x7010 2 = 0) : execFordEngage d s = .next s := by
  refine congrArg _ (if_neg ?_)
  simp only [fordLink, Bool.and_eq_true, decide_eq_true_eq, ne_eq]
  rintro ⟨⟨hk, hup⟩, hset⟩
  rcases h with h | h | h
  · omega
  · exact Bool.noConfusion (hup.symm.trans h)
  · exact hset h

theorem kysar_others : ∀ a b v w : Fin 4, a ≠ b → v < w → v ≠ a → v ≠ b → w ≠ a → w ≠ b →
    (List.range 4).filter (fun x => x ≠ a.val && x ≠ b.val) = [v.val, w.val] := by decide

/-- The first six links join two different Kysar dies (R12). -/
theorem dirOf_kysar {a b : Nat} {x : LinkDir} (h : dirOf a b = some x) (hx : x.link.val < 6) : a < 4 ∧ b < 4 ∧ a ≠ b := by
  obtain ⟨l, hl, rfl⟩ := Option.map_eq_some_iff.mp h
  obtain ⟨hlen, hends, -⟩ := List.findIdx?_eq_some_iff_getElem.mp hl
  have hlt : l < 19 := hlen
  have hval : (Fin.ofNat 19 l).val = l := Nat.mod_eq_of_lt hlt
  have hl6 : l < 6 := hval ▸ hx
  have hpairs : ∀ k : Fin 6, (linkEnds.getD k.val (0, 0)).1 < 4 ∧ (linkEnds.getD k.val (0, 0)).2 < 4 ∧
      (linkEnds.getD k.val (0, 0)).1 ≠ (linkEnds.getD k.val (0, 0)).2 := by decide
  have hpair := hpairs ⟨l, hl6⟩
  rw [getD_of_lt hlen] at hpair
  simp only [Bool.or_eq_true, decide_eq_true_eq] at hends
  rcases hends with e | e <;> rw [e] at hpair <;> omega

/-- FRD credits a die holds towards another. -/
def frdCredits (s : State) (src v : Nat) : Nat :=
  match dirOf src v with
  | some d => (s.linkEnd d).credits.getD 7 0
  | none => 0

/-- The ford of an engaged link goes through the other Kysar die with more FRD credits, the lower on a tie (R283). -/
theorem fordVia_eq {s : State} {src far a b : Nat} {x : LinkDir} (h : dirOf src far = some x) (hx : x.link.val < 6) (hab : a < b) (hb : b < 4)
    (has : a ≠ src) (haf : a ≠ far) (hbs : b ≠ src) (hbf : b ≠ far) :
    s.fordVia src far = if (s.linkEnd x).forded = true ∧ setting s 0x7010 2 ≠ 0 then
      some (if frdCredits s src a < frdCredits s src b then b else a) else none := by
  obtain ⟨hsrc, hfar, hne⟩ := dirOf_kysar h hx
  have hothers : (List.range 4).filter (fun v => v ≠ src && v ≠ far) = [a, b] :=
    kysar_others ⟨src, hsrc⟩ ⟨far, hfar⟩ ⟨a, by omega⟩ ⟨b, hb⟩ (by simpa using hne) hab (by simpa using has) (by simpa using haf)
      (by simpa using hbs) (by simpa using hbf)
  unfold State.fordVia
  rw [hothers]
  by_cases hf : (s.linkEnd x).forded = true ∧ setting s 0x7010 2 ≠ 0
  · rw [if_pos hf]
    simp [h, hx, hf]
    rfl
  · rw [if_neg hf]
    rcases Classical.not_and_iff_not_or_not.mp hf with e | e <;> simp [h, e]

/-- Where no request is open, a message is delivered and ends none. -/
theorem noteMessage_of_no_requests {s : State} (h : s.pkgRequests = []) (vc die : Nat) (m : Message) :
    s.noteMessage vc die m = s.send (.message vc die (msgHeader m.header) m.slots) := by
  simp only [State.noteMessage, h, List.find?_nil, ite_self]

/-- The channel an FRD message leaves its chosen die by: RSP without data, else DAT (R283). -/
def frdChannel (m : Message) : Nat := if (msgHeader m.header).sect = 0 then 2 else 3

/-- Both links of a ford are up, it leads through the message's die, and its slots have their credits. -/
def FrdGoes (s : State) (d o : LinkDir) (dst vc n : Nat) : Prop :=
  (s.link d.link.val).active = true ∧ (s.link o.link.val).active = true ∧ s.fordVia (dirSender d) dst = some (dirReceiver d) ∧
    n + 1 ≤ (s.linkEnd d).credits.getD 7 0 ∧ n ≤ (s.linkEnd o).credits.getD vc 0

/-- The credits of both links taken and owed, and the message counted (R276, R283). -/
def frdCharged (s : State) (d o : LinkDir) (vc n : Nat) : State :=
  let e := s.linkEnd d
  let y := s.linkEnd o
  ((s.setEnd d { e with credits := e.credits.set 7 (e.credits.getD 7 0 - (n + 1)), owed := e.owed.set 7 (e.owed.getD 7 0 + (n + 1)) }).setEnd o
    { y with credits := y.credits.set vc (y.credits.getD vc 0 - n), owed := y.owed.set vc (y.owed.getD vc 0 + n) }).count 0x7010 3 1

section
variable {s : State} {d o : LinkDir} {dst : Fin 4} {m : Message} (ho : dirOf (dirReceiver d) dst.val = some o)
include ho

theorem linkFrd_waits (h : ¬ FrdGoes s d o dst.val (frdChannel m) (1 + m.slots.length)) : execLinkFrd d dst m s = .next s := by
  simp only [execLinkFrd, ho]
  refine congrArg _ (if_neg fun hgo => h ?_)
  simpa [FrdGoes, frdChannel, and_assoc] using hgo

theorem linkFrd_goes (h : FrdGoes s d o dst.val (frdChannel m) (1 + m.slots.length)) (hnone : s.pkgRequests = []) :
    execLinkFrd d dst m s = .next ((frdCharged s d o (frdChannel m) (1 + m.slots.length)).send
      (.message (frdChannel m) dst.val (msgHeader m.header) m.slots)) := by
  have hcharged : (frdCharged s d o (frdChannel m) (1 + m.slots.length)).pkgRequests = [] := hnone
  rw [← noteMessage_of_no_requests hcharged]
  simp only [execLinkFrd, ho]
  refine congrArg _ (if_pos ?_)
  simpa [FrdGoes, frdChannel, and_assoc] using h

end

/-! #### Messages at a die -/

section
variable {vc : Nat} (hvc : vc < 7)
include hvc

theorem messageDie_of_lt (a : Nat) : messageDie vc a = if vc < 4 then agentDie a else a := by
  have h7 : ¬ vc = 7 := by omega
  simp only [messageDie, h7, or_false]

variable {s : State} {d o : LinkDir} {m : Message}

/-- A message for the die it has reached frees its slots and is delivered (R13, R276). -/
theorem arriveMessage_here (h : (if vc < 4 then agentDie (msgHeader m.header).dst else (msgHeader m.header).dst) = dirReceiver d) :
    s.arriveMessage d (vc, m) = (s.owe d vc (1 + m.slots.length)).noteMessage vc (dirReceiver d) m := by
  have h7 : ¬ vc = 7 := by omega
  simp only [State.arriveMessage, h7, if_false, messageDie_of_lt hvc, h, if_true]

/-- A message for another die waits for its next link, or is dropped where that link is down (R13, R14). -/
theorem arriveMessage_on {goal : Nat} (hgoal : (if vc < 4 then agentDie (msgHeader m.header).dst else (msgHeader m.header).dst) = goal)
    (h : goal ≠ dirReceiver d)
    (ho : dirOf (dirReceiver d) (nextDie (if vc < 4 then agentDie (msgHeader m.header).src else (msgHeader m.header).src) (dirReceiver d) goal) = some o) :
    s.arriveMessage d (vc, m) = if s.linkDown o.link.val then s.owe d vc (1 + m.slots.length) else
      { s with forwards := s.forwards ++ [{
        link := o.link, rev := o.rev, vc := vc, msg := m, fromLink := d.link, fromRev := d.rev, fromVc := vc, slots := 1 + m.slots.length }] } := by
  have h7 : ¬ vc = 7 := by omega
  simp only [State.arriveMessage, h7, if_false, messageDie_of_lt hvc, hgoal, h, ho]

end

/-! #### Register and scratchpad messages -/

/-- The companion reaches block 8 alone, within a granted window that gives the right (R285; log 127). -/
theorem registerAllowed_iff (s : State) (src addr right : Nat) : s.registerAllowed src addr right = true ↔
    (src = 8 → 0x101000000000 ≤ addr ∧ addr < 0x101200000000 ∧
      ∃ w ∈ (s.link 18).granted, w.toNat.testBit right = true ∧ field w.toNat 30 18 ≤ addr / 2 ^ 30 ∧
        addr / 2 ^ 30 < field w.toNat 30 18 + field w.toNat 12 18) := by
  have hgranted : ((s.link 18).granted.any fun w => windowCovers w addr && w.toNat.testBit right) = true ↔
      ∃ w ∈ (s.link 18).granted, w.toNat.testBit right = true ∧ field w.toNat 30 18 ≤ addr / 2 ^ 30 ∧
        addr / 2 ^ 30 < field w.toNat 30 18 + field w.toNat 12 18 := by
    simp only [List.any_eq_true, windowCovers, Bool.and_eq_true, decide_eq_true_eq]
    exact exists_congr fun w => and_congr_right fun _ => and_comm
  simp only [State.registerAllowed, Bool.or_eq_true, Bool.and_eq_true, decide_eq_true_eq, hgranted, Decidable.imp_iff_not_or, and_assoc, ne_eq]

theorem ncrAccess_refused {s : State} {src addr right : Nat} (h : s.registerAllowed src addr right = false) (f : State → State) :
    s.ncrAccess src addr right f = (s.count 0x7021 3 1).send (.cohMessage 2 5 11 12 addr 0 0 0 0 3) := by
  simp only [State.ncrAccess, h, Bool.not_false, if_true]

theorem ncrAccess_unreached {s : State} {src addr right : Nat} (h : s.registerAllowed src addr right = true)
    (hr : s.windowReached src (window addr) = false) (f : State → State) :
    s.ncrAccess src addr right f = s.send (.cohMessage 2 5 src src addr 0 0 0 0 1) := by
  simp only [State.ncrAccess, h, hr, Bool.not_true, Bool.not_false, Bool.false_eq_true, if_false, if_true]

theorem ncrAccess_performed {s : State} {src addr right : Nat} (h : s.registerAllowed src addr right = true)
    (hr : s.windowReached src (window addr) = true) (f : State → State) : s.ncrAccess src addr right f = f s := by
  simp only [State.ncrAccess, h, hr, Bool.not_true, Bool.false_eq_true, if_false]

/-- A register message beyond the sender's rights, or without a way to the register's die, completes with CMPE (R14, R285). -/
theorem ncrRegister_refused {s : State} {src addr right : Nat} {f : State → State} {answer : Answer}
    (h : answer = .next (s.ncrAccess src addr right f)) :
    (s.registerAllowed src addr right = false → answer = .next ((s.count 0x7021 3 1).send (.cohMessage 2 5 11 12 addr 0 0 0 0 3))) ∧
    (s.registerAllowed src addr right = true → s.windowReached src (window addr) = false →
      answer = .next (s.send (.cohMessage 2 5 src src addr 0 0 0 0 1))) ∧
    (s.registerAllowed src addr right = true ↔ (src = 8 → 0x101000000000 ≤ addr ∧ addr < 0x101200000000 ∧
      ∃ w ∈ (s.link 18).granted, w.toNat.testBit right = true ∧ field w.toNat 30 18 ≤ addr / 2 ^ 30 ∧
        addr / 2 ^ 30 < field w.toNat 30 18 + field w.toNat 12 18)) := by
  subst h
  exact ⟨fun h => congrArg _ (ncrAccess_refused h f), fun h hr => congrArg _ (ncrAccess_unreached h hr f), registerAllowed_iff ..⟩

theorem readByte_writeBytes (m : List Host.Cell) (a : Nat) (b : Bytes) (x : Nat) :
    readByte (writeBytes m a b) x = if a ≤ x ∧ x < a + b.length then b.getD (x - a) 0 else readByte m x := by
  split
  · next h =>
    obtain ⟨hlo, hhi⟩ := h
    have hin : x - a < b.length := by omega
    have hx : a + (x - a) = x := by omega
    rw [getD_of_lt hin, ← readByte_writeBytes_inside m b hin, hx]
  · next h => exact readByte_writeBytes_outside m b (by omega)

theorem ncrScratchpadWrite_effect {s : State} {cl : Fin 512} {off : BitVec 19} {data : Bytes} (hlen : data.length ≤ 128)
    (hsectors : data.length % 32 = 0) (hfit : off.toNat + data.length ≤ (s.cluster cl.val).spadSize) :
    execNcrScratchpadWrite cl off data none s = .next (s.setCluster cl.val ((s.cluster cl.val).spadWrite off.toNat data)) := by
  have hok : ¬ (data.length > 128 ∨ data.length % 32 ≠ 0 ∨ off.toNat + data.length > (s.cluster cl.val).spadSize) := by omega
  simp only [execNcrScratchpadWrite, if_neg hok]

/-- Settles O39: each package message by its own rule. -/
theorem packageMessages : Obligations.PackageMessages := by
  unfold Obligations.PackageMessages
  intro s d o x lane t k a b flit dst m src agent addr width value source txid ncr r cl off data i l e back late asks check put errs streak met c
  refine ⟨fun h => laneCheck_ignored h, fun hcheck hl hclean ht hk => laneCheck_adds hcheck hl hclean ht hk,
    fun h => requestTimeout_none h, fun h => ⟨fun hroute => requestTimeout_waits h hroute, fun hone hroute => requestTimeout_expires h hone hroute⟩,
    fun h => ncp_none value h, fun h => ⟨fun he => ncp_late value h he, fun he => ncp_completes value h he⟩,
    fun hk ha hset => fordEngage_engages hk ha hset, fun h => fordEngage_refused h, rfl,
    fun far h hx hab hb has haf hbs hbf => fordVia_eq h hx hab hb has haf hbs hbf,
    fun ho hnone => ⟨fun h => linkFrd_waits ho h, fun h => linkFrd_goes ho h hnone⟩, fun vc hvc => ⟨fun hgoal => ?_, fun hgoal ho => ?_⟩,
    fun i hi => ?_, fun hreached => ⟨fun hallowed => ?_, fun hallowed => ?_⟩, rfl, fun hlen hsectors hfit => ?_⟩
  · rw [hgoal]
    exact arriveMessage_here hvc hgoal
  · exact arriveMessage_on hvc rfl hgoal ho
  · simp only [List.mem_cons, List.not_mem_nil, or_false] at hi
    rcases hi with rfl | rfl
    · exact ncrRegister_refused rfl
    · exact ncrRegister_refused rfl
  · exact congrArg _ (ncrAccess_performed hallowed hreached _)
  · exact congrArg _ (ncrAccess_performed hallowed hreached _)
  · refine ⟨_, ncrScratchpadWrite_effect hlen hsectors hfit, rfl, fun k hk => cluster_setCluster_other s _ hk, ?_, fun x => ?_⟩
    · rw [cluster_setCluster]
      rfl
    · rw [cluster_setCluster]
      exact readByte_writeBytes c.spad off.toNat data x

end Sys2Proof.Proofs

/-! ### Fences and acquires (R204, R206 to R210, R214, R222) -/
namespace Sys2Proof.Proofs
open Sys2Proof.Machine Sys2Proof.Laws

/-! #### What an acquire leaves -/

/-- A table mapped entry by entry, each by its own key. -/
theorem sget?_map_keyed {α : Type} (f : Nat → α → α) (m : Sparse α) (k : Nat) :
    sget? k (m.map fun e => (e.1, f e.1 e.2)) = (sget? k m).map (f k) := by
  induction m with
  | nil => rfl
  | cons e r ih =>
    obtain ⟨i, a⟩ := e
    by_cases h : i = k
    · simp [sget?, h]
    · simpa [sget?, h] using ih

/-- Forgetting remote-node lines touches what is to come of them alone: no L1 loses a line (R173). -/
theorem dropRemote_l1 (s : State) (half c : Nat) : ((s.dropRemote half).cluster c).l1 = (s.cluster c).l1 := by
  have hget := sget?_map_keyed (fun k x => if clusterHalf k = half then x.forgetRemote else x) s.clusters c
  have hcl : (s.dropRemote half).cluster c =
      ((sget? c s.clusters).map fun x => if clusterHalf c = half then x.forgetRemote else x).getD {} := congrArg (·.getD {}) hget
  rw [hcl, State.cluster, sgetD]
  cases sget? c s.clusters with
  | none => rfl
  | some x => exact ite_kept Cluster.l1 rfl rfl

/-- An acquire changes clusters and coherence agents, and nothing else. -/
theorem acquire_frame (s : State) (gk scope : Nat) :
    ∃ clusters agents, s.acquire gk scope = { s with clusters := clusters, agents := agents } := by
  unfold State.acquire
  by_cases hl1 : scope ≥ 1 <;> by_cases hsys : scope = 4 <;> simp only [hl1, hsys, if_true, if_false] <;> exact ⟨_, _, rfl⟩

@[simp] theorem acquire_group? (s : State) (gk scope k : Nat) : (s.acquire gk scope).group? k = s.group? k := by
  obtain ⟨_, _, h⟩ := acquire_frame s gk scope
  rw [h]
  rfl

@[simp] theorem acquire_mem (s : State) (gk scope : Nat) : (s.acquire gk scope).mem = s.mem := by
  obtain ⟨_, _, h⟩ := acquire_frame s gk scope
  rw [h]

@[simp] theorem acquire_tallies (s : State) (gk scope : Nat) : (s.acquire gk scope).tallies = s.tallies := by
  obtain ⟨_, _, h⟩ := acquire_frame s gk scope
  rw [h]

/-- An acquire of CLUSTER scope or wider empties the L1 of the group's cluster (R164, R208). -/
theorem acquire_empties_l1 (s : State) (gk : Nat) {scope : Nat} (h : 1 ≤ scope) :
    ((s.acquire gk scope).cluster (gcluster gk)).l1 = [] := by
  have hinv : ((s.invalidateL1 (gcluster gk)).cluster (gcluster gk)).l1 = [] := by rw [State.invalidateL1, cluster_modCluster]
  simp only [State.acquire, ge_iff_le, h, if_true]
  exact ite_kept (fun u : State => (u.cluster (gcluster gk)).l1) ((dropRemote_l1 ..).trans hinv) hinv

/-- The group `g` set, then an acquire of its scope: how SYACQ, SYFENCEC and SYTALLY end (R208, R214). -/
theorem acquired_of_setGroup (t : State) (counters : Sparse W64) (gk : Nat) (g : Group) (scope : Nat) :
    let u := ({ t with counters := counters }.setGroup gk g).acquire gk scope
    GroupNow u t gk g ∧ (1 ≤ scope → (u.cluster (gcluster gk)).l1 = []) ∧ u.mem = t.mem ∧ u.tallies = t.tallies ∧
      (scope = 0 → (u.cluster (gcluster gk)).l1 = (t.cluster (gcluster gk)).l1) := by
  refine ⟨⟨?_, fun k hk => ?_⟩, acquire_empties_l1 _ gk, acquire_mem .., acquire_tallies .., ?_⟩
  · exact (acquire_group? ..).trans (group?_setGroup ..)
  · exact (acquire_group? ..).trans (group?_setGroup_other _ g hk)
  · rintro rfl
    rfl

/-! #### The end of an issue -/

/-- The state an instruction's effect leaves. -/
def effOutcome (gk : Nat) (g : Group) (word : W64) : Eff → State
  | .done u => u
  | .fault u f => u.takeFault gk g word f
  | .hold u => u

/-- An SY instruction whose checks pass leaves what its effect leaves: it names no feature and checks no other range. -/
theorem issue_outcome {s t : State} {id : GroupId} {cls op : Nat} {w : Fields} {sig : Sig} {g : Group} {kn : Kernel}
    (h : Passes s id cls op w sig g kn t) {run : State → Nat → Group → Kernel → Eff} {e : Eff} (he : run t (gkey id) g kn = e) :
    s.issue id cls op w sig false (fun _ => none) (fun _ _ => none) run = effOutcome (gkey id) g (w.word cls op) e := by
  rw [issue_of_passes h false _ _ run rfl rfl fun c => absurd c Bool.false_ne_true, he]
  cases e <;> rfl

theorem issue_done {s t u : State} {id : GroupId} {cls op : Nat} {w : Fields} {sig : Sig} {g : Group} {kn : Kernel}
    (h : Passes s id cls op w sig g kn t) {run : State → Nat → Group → Kernel → Eff} (he : run t (gkey id) g kn = .done u) :
    s.issue id cls op w sig false (fun _ => none) (fun _ _ => none) run = u := issue_outcome h he

theorem issue_faults {s t : State} {id : GroupId} {cls op : Nat} {w : Fields} {sig : Sig} {g : Group} {kn : Kernel}
    (h : Passes s id cls op w sig g kn t) {run : State → Nat → Group → Kernel → Eff} {f : FaultInfo} (he : run t (gkey id) g kn = .fault t f) :
    s.issue id cls op w sig false (fun _ => none) (fun _ _ => none) run = t.takeFault (gkey id) g (w.word cls op) f := issue_outcome h he

/-- With an empty write buffer a release or fence has nothing to drain. -/
theorem drainGroup_of_empty {s : State} {gk : Nat} (h : (s.cluster (gcluster gk)).wb = []) : s.drainGroup gk = some s := by
  simp only [State.drainGroup, State.drainThrough, h, List.zipIdx_nil, List.foldl_nil, State.drainN]

section
variable {s t : State} {id : GroupId} {w : Fields} {g : Group} {kn : Kernel}

/-- SYFENCE and SYREL (R208). -/
theorem syFence_adds {op : Nat} (h : Passes s id 12 op w (sySig w .zero .zero .zero) g kn t)
    (hwb : (t.cluster (gcluster (gkey id))).wb = []) (hg : t.group? (gkey id) = some g) (readsAfter : Bool) :
    s.syFence id w op true readsAfter = t.setGroup (gkey id)
      (t.addFence (gkey id) g { no := g.issued, scope := w.scope, writesBefore := true, readsAfter := readsAfter }).next := by
  refine issue_done h ?_
  simp only [if_true, drainGroup_of_empty hwb, hg, Option.getD_some]

/-- SYACQ adds its fence; its acquire is at once, or with the settling of the fence (R208, R209). -/
theorem syAcq_adds (h : Passes s id 12 3 w (sySig w .zero .zero .zero) g kn t) :
    let f : Fence := { no := g.issued, scope := w.scope, writesBefore := false, readsAfter := true }
    (t.earlierWork (gkey id) g.issued = false →
      execSyAcq id w s = .next ((t.setGroup (gkey id) (t.addFence (gkey id) g f).next).acquire (gkey id) w.scope)) ∧
    (t.earlierWork (gkey id) g.issued = true →
      execSyAcq id w s = .next (t.setGroup (gkey id) (t.addFence (gkey id) g { f with acquires := true }).next)) := by
  refine ⟨fun hw => congrArg Host.Outcome.next (issue_done h ?_), fun hw => congrArg Host.Outcome.next (issue_done h ?_)⟩
  · simp only [hw]
    rfl
  · simp only [hw]
    rfl

/-- The settling of a cluster whose one group holds one waiting acquire (R209). -/
theorem settleFences_single {cl gk : Nat} {f : Fence} (hcl : s.clusterGroups cl = [(gk, g)]) (hf : g.fences = [f]) (ha : f.acquires = true) :
    s.settleFences cl = if s.earlierWork gk f.no then s else
      (s.setGroup gk { g with fences := [{ f with acquires := false }] }).acquire gk f.scope := by
  cases hw : s.earlierWork gk f.no <;> simp [State.settleFences, hcl, hf, ha, hw]

/-- At SYSTEM scope a SYFENCEC that ends is counted (R222). -/
def fencecCounters (t : State) (scope : Nat) : Sparse W64 := if scope = 4 then (t.count 0xA072 3 1).counters else t.counters

/-- SYFENCEC with no failed network write to report waits for earlier work, then acquires (R208, R222). -/
theorem syFencec_waits (h : Passes s id 12 4 w (sySig w .zero .zero .zero) g kn t) (hwb : (t.cluster (gcluster (gkey id))).wb = [])
    (hfail : w.scope = 4 → kn.remoteFail = none) :
    execSyFencec id w s = .next
      (if t.earlierWork (gkey id) g.issued || (w.scope = 4 && t.netWritesBefore (gkey id) g.issued) then
        t.setGroup (gkey id) { g with wait := .stall (w.word 12 4) }
      else ({ t with counters := fencecCounters t w.scope }.setGroup (gkey id) g.next).acquire (gkey id) w.scope) := by
  have hnone : (if w.scope = 4 then kn.remoteFail else none) = none := by
    split
    · next h4 => exact hfail h4
    · rfl
  unfold execSyFencec
  rw [issue_outcome h rfl]
  have hcount : (if w.scope = 4 then t.count 0xA072 3 1 else t) = { t with counters := fencecCounters t w.scope } := by
    unfold fencecCounters
    split <;> rfl
  simp only [hnone, drainGroup_of_empty hwb, hcount]
  split <;> rfl

/-- SYFENCEC at SYSTEM scope reports a failed network write (R224). -/
theorem syFencec_faults (h : Passes s id 12 4 w (sySig w .zero .zero .zero) g kn t) (h4 : w.scope = 4) {a n : Nat}
    (hfail : kn.remoteFail = some (a, n)) :
    execSyFencec id w s = .next (t.takeFault (gkey id) g (w.word 12 4) { code := 0x606, arg0 := a, arg1 := n }) := by
  refine congrArg Host.Outcome.next (issue_faults h ?_)
  simp only [h4, if_true, hfail]

end

/-- Settles O23: each fence by its own rule. -/
theorem fences : Obligations.Fences := by
  unfold Obligations.Fences
  intro s t id w g kn gk cl sig fenced fence acquired busy hwb hg
  refine ⟨fun h => congrArg _ (syFence_adds h hwb hg true), fun h => congrArg _ (syFence_adds h hwb hg false),
    fun h => ⟨fun hw => ?_, (syAcq_adds h).2⟩, fun f hcl _ hf ha => ?_, fun h hfail => ?_, fun a n h h4 hfail => syFencec_faults h h4 hfail⟩
  · obtain ⟨hnow, hl1, hmem, -, hkept⟩ := acquired_of_setGroup t t.counters gk (fenced (fence false true)) w.scope
    exact ⟨_, (syAcq_adds h).1 hw, hnow, hl1, hmem, hkept⟩
  · rw [settleFences_single hcl hf ha]
    refine ⟨fun hw => by rw [if_pos hw], fun hw => ?_⟩
    rw [hw]
    exact ⟨(acquire_group? ..).trans (group?_setGroup ..), acquire_empties_l1 _ gk⟩
  · rw [show exec (.syFencec id w) s = _ from syFencec_waits h hwb hfail]
    refine ⟨fun hb => congrArg _ (if_pos hb), fun hb => ?_⟩
    obtain ⟨hnow, hl1, hmem, -, hkept⟩ := acquired_of_setGroup t (fencecCounters t w.scope) gk g.next w.scope
    exact ⟨_, congrArg _ (if_neg (Bool.eq_false_iff.mp hb)), hnow, hl1, hmem, hkept⟩

end Sys2Proof.Proofs

/-! ### Tallies (R206, R211 to R214, R216, R224) -/
namespace Sys2Proof.Proofs
open Sys2Proof.Machine Sys2Proof.Laws

/-! #### A result in every lane of the launch mask -/

theorem mem_launchLanes {g : Group} {l : Nat} : l ∈ g.launchLanes ↔ l < 32 ∧ g.launch.getLsbD l = true := by
  simp [Group.launchLanes, mem_setBits, BitVec.getLsbD]

theorem foldl_set_frame (rd : Nat) (wd : Bool) (v : Nat) (ls : List Nat) (g : Group) :
    ls.foldl (fun x l => x.set l rd wd v) g = { g with regs := (ls.foldl (fun x l => x.set l rd wd v) g).regs } := by
  induction ls generalizing g with
  | nil => rfl
  | cons a r ih =>
    rw [List.foldl_cons, ih]
    cases wd <;> rfl

/-- Writing the launch mask's lanes changes registers alone, and the group moves on. -/
theorem setAll_next (g : Group) (rd : Nat) (wd : Bool) (v : Nat) :
    (g.setAll rd wd v).next = g.stepped (g.setAll rd wd v).regs g.flags := by
  rw [Group.setAll, foldl_set_frame]
  rfl

theorem launchRegs_setAll (g : Group) {rd : Nat} (h : rd + 1 < 256) (v : Nat) : LaunchRegs (g.setAll rd true v).regs g rd v := by
  intro l hl r hr
  have hnodup : g.launchLanes.Nodup := List.Pairwise.filter _ List.nodup_range
  rw [Group.setAll, foldl_set_regs rd true (fun _ => v) h g.launchLanes hnodup g hr]
  simp only [mem_launchLanes, hl, true_and]

/-! #### The tally an index names -/

theorem ownTally_of_lt {kn : Kernel} {gk i base : Nat} (hi : i < kn.man.tallies)
    (hb : sget? (clusterDie (gcluster gk)) kn.tallyBase = some base) :
    kn.ownTally gk i = some (clusterDie (gcluster gk), base + i) := by
  simp only [Kernel.ownTally, ge_iff_le, Nat.not_le.mpr hi, if_false, hb, Option.map_some]

theorem ownTally_of_ge {kn : Kernel} {gk i : Nat} (hi : kn.man.tallies ≤ i) : kn.ownTally gk i = none := by
  simp only [Kernel.ownTally, ge_iff_le, hi, if_true]

/-- An increment changes its own tally, modulo 2^64, and no other (R211, R213). -/
theorem tallyInc_vals (s : State) (d n amount e m : Nat) :
    sgetD ((s.tallyInc d n amount).tally e).vals m 0 =
      if e = d ∧ m = n then sgetD (s.tally d).vals n 0 + BitVec.ofNat 64 amount else sgetD (s.tally e).vals m 0 := by
  by_cases he : e = d
  · subst he
    rw [State.tallyInc, tally_setTally]
    by_cases hm : m = n
    · rw [hm, sgetD_sput_same, if_pos ⟨rfl, rfl⟩]
    · rw [sgetD_sput_other _ _ _ hm, if_neg fun h => hm h.2]
  · rw [State.tallyInc, tally_setTally_other _ _ he, if_neg fun h => he h.1]

/-! #### The instructions -/

section
variable {s t : State} {id : GroupId} {w : Fields} {g : Group} {kn : Kernel}

/-- SYTRD of a tally the kernel has (R206). -/
theorem syTrd_reads (h : Passes s id 12 0x11 w (sySig w .p .r .zero) g kn t) {d n : Nat}
    (hn : kn.ownTally (gkey id) (g.reg g.lead w.rs1.toNat) = some (d, n)) :
    execSyTrd id w s = .next (t.setGroup (gkey id) (g.setAll w.rd.toNat true (t.tallyNow d n)).next) := by
  refine congrArg Host.Outcome.next (issue_done h ?_)
  simp only [hn]

theorem syTrd_faults (h : Passes s id 12 0x11 w (sySig w .p .r .zero) g kn t)
    (hn : kn.ownTally (gkey id) (g.reg g.lead w.rs1.toNat) = none) :
    execSyTrd id w s = .next (t.takeFault (gkey id) g (w.word 12 0x11) (tallyRange (g.reg g.lead w.rs1.toNat) kn)) := by
  refine congrArg Host.Outcome.next (issue_faults h ?_)
  simp only [hn]

/-- SYTALLY of a tally the kernel has goes on at the awaited value and stalls below it (R214). -/
theorem syTally_awaits (h : Passes s id 12 0x10 w (sySig w .zero .r .p) g kn t) {d n : Nat}
    (hn : kn.ownTally (gkey id) (g.reg g.lead w.rs1.toNat) = some (d, n)) :
    execSyTally id w s = .next (if g.pair g.lead w.rs2 ≤ t.tallyNow d n then (t.setGroup (gkey id) g.next).acquire (gkey id) w.scope
      else t.setGroup (gkey id) { g with wait := .stall (w.word 12 0x10) }) := by
  unfold execSyTally
  rw [issue_outcome h rfl]
  simp only [hn, ge_iff_le]
  split <;> rfl

theorem syTally_faults (h : Passes s id 12 0x10 w (sySig w .zero .r .p) g kn t)
    (hn : kn.ownTally (gkey id) (g.reg g.lead w.rs1.toNat) = none) :
    execSyTally id w s = .next (t.takeFault (gkey id) g (w.word 12 0x10) (tallyRange (g.reg g.lead w.rs1.toNat) kn)) := by
  refine congrArg Host.Outcome.next (issue_faults h ?_)
  simp only [hn]

/-- SYTADD with nothing earlier for its release to wait for adds its amount (R213). -/
theorem syTadd_adds (h : Passes s id 12 0x12 w (sySig w .zero .r .p) g kn t) (hwb : (t.cluster (gcluster (gkey id))).wb = [])
    (hg : t.group? (gkey id) = some g) (hwork : t.earlierWork (gkey id) g.issued = false)
    (hnet : t.netWritesBefore (gkey id) g.issued = false) {d n : Nat}
    (hn : kn.tallyOf (g.reg g.lead w.rs1.toNat) (clusterDie (gcluster (gkey id))) = some (d, n)) :
    execSyTadd id w s = .next ((t.setGroup (gkey id) g.next).tallyInc d n (g.pair g.lead w.rs2)) := by
  have hfree : t.releaseHeldBack (gkey id) g w.scope = false := by simp only [State.releaseHeldBack, hwork, hnet, Bool.and_false, Bool.or_false]
  have hnext : t.modGroup (gkey id) (fun g => g.next) = t.setGroup (gkey id) g.next := by simp only [State.modGroup, hg]
  refine congrArg Host.Outcome.next (issue_done h ?_)
  simp only [hn, drainGroup_of_empty hwb, hfree, hnext, Bool.false_eq_true, if_false]

end

/-! #### The wait limit -/

section
variable {s : State} {id : GroupId}

theorem tallyWaitTimeout_unlimited (h : setting s 0xA071 1 = 0) : execTallyWaitTimeout id s = .next s := by
  unfold execTallyWaitTimeout
  refine congrArg _ ?_
  cases s.group? (gkey id) with
  | none => rfl
  | some g =>
    dsimp only
    split
    · exact if_pos (.inl h)
    · rfl

/-- With a wait limit, a stalled SYTALLY whose tally is below its value faults (R216). -/
theorem tallyWaitTimeout_limited {g : Group} {word : W64} {kn : Kernel} (hg : s.group? (gkey id) = some g) (hw : g.wait = .stall word)
    (hk : s.kernel? g.kernel = some kn) (hrun : g.halted = false) (hset : setting s 0xA071 1 ≠ 0) (hop : field word.toNat 52 12 = 0xC10)
    {d n : Nat} (hn : kn.ownTally (gkey id) (g.reg g.lead (field word.toNat 24 8)) = some (d, n)) :
    execTallyWaitTimeout id s = .next (if g.pair g.lead (field word.toNat 16 8) ≤ s.tallyNow d n then s
      else (s.count 0xA072 5 1).takeFault (gkey id) g word
        { code := 0x605, arg0 := g.reg g.lead (field word.toNat 24 8), arg1 := g.pair g.lead (field word.toNat 16 8) }) := by
  unfold execTallyWaitTimeout
  simp only [hg, hw, hk, hset, hop, hrun, hn, ne_eq, not_true_eq_false, Bool.false_eq_true, or_self, if_false, ge_iff_le]

end

/-- Settles O24: each tally instruction by its own rule, and the wait limit. -/
theorem tallies : Obligations.Tallies := by
  unfold Obligations.Tallies
  intro s t id w g kn base gk cl die i want value hg hwb hwork hnet
  refine ⟨fun h hi hb => ?_, fun h hi hb => ?_, fun hi => ⟨fun h => syTrd_faults h (ownTally_of_ge hi), fun h => syTally_faults h (ownTally_of_ge hi)⟩,
    fun d n h hn => ?_, rfl, ⟨_, _, rfl⟩, tallyWaitTimeout_unlimited, fun h word k hgroup hw hk hrun hset hop hi hb => ?_⟩
  · refine ⟨_, ?_, launchRegs_setAll g (range_rd (wd := true) h.inRange rfl) _⟩
    rw [← setAll_next]
    exact syTrd_reads h (ownTally_of_lt hi hb)
  · rw [show exec (.syTally id w) s = _ from syTally_awaits h (ownTally_of_lt hi hb)]
    refine ⟨fun hreached => ?_, fun hbelow => congrArg _ (if_neg (Nat.not_le.mpr hbelow))⟩
    obtain ⟨hnow, hl1, hmem, htallies, -⟩ := acquired_of_setGroup t t.counters gk g.next w.scope
    exact ⟨_, congrArg _ (if_pos hreached), hnow, hl1, hmem, htallies⟩
  · refine ⟨_, syTadd_adds h hwb hg hwork hnet hn, ⟨group?_setGroup .., fun k hk => group?_setGroup_other _ g.next hk⟩, ?_, fun e m hother => ?_, rfl⟩
    · rw [tallyInc_vals, if_pos ⟨rfl, rfl⟩]
      rfl
    · rw [tallyInc_vals, if_neg fun h => hother.elim (· h.1) (· h.2)]
      rfl
  · intro idx lim
    rw [show exec (.tallyWaitTimeout id) s = _ from tallyWaitTimeout_limited hgroup hw hk hrun hset hop (ownTally_of_lt hi hb)]
    exact ⟨fun hreached => congrArg _ (if_pos hreached), fun hbelow => congrArg _ (if_neg (Nat.not_le.mpr hbelow))⟩

end Sys2Proof.Proofs

/-! ### The collective sequencer (R314 to R316) -/
namespace Sys2Proof.Proofs
open Sys2Proof.Machine Sys2Proof.Laws

@[simp] theorem slotReg_setSched (s : State) (k : Nat) (x : SchedSlot) : (s.setSched k x).slotReg k = x := sgetD_sput_same _ k x {}

/-! #### SEQ_GO -/

/-- A header the sequencer accepts (R314): 64-byte aligned, its reserved fields zero, 1 to 4,096 steps, an open group
that holds the schedule's memory. -/
def HeaderOk (s : State) (a h : Nat) : Prop :=
  a % 64 = 0 ∧ h / 2 ^ 96 = 0 ∧ field h 12 20 = 0 ∧ field h 48 16 = 1 ∧ field h 32 16 ≠ 0 ∧ field h 32 16 ≤ 4096 ∧
    grpState (s.groupEntry (field h 0 12)) = 1 ∧
    s.rangeHeld (grpPart (s.groupEntry (field h 0 12))) a (64 * (field h 32 16 + 1)) = true

/-- A slot started on its header (R316). -/
def startedSlot (x : SchedSlot) (h : Nat) : SchedSlot :=
  { x with
    base := x.addr, state := 1, stepIndex := 0, status := 0, inFlight := [], group := field h 0 12, steps := field h 32 16
    done := BitVec.ofNat 32 (field h 64 32) }

theorem seqGo_running {s : State} {k : Nat} (h : (s.slotReg k).state = 1) : s.seqGo k = s.count 0x5050 3 1 := by
  simp only [State.seqGo, h, if_true]

theorem seqGo_starts {s : State} {k : Nat} {b : Bytes} (h : (s.slotReg k).state ≠ 1)
    (hread : s.peekBytes (s.slotReg k).addr.toNat 64 = (b, false)) (hok : HeaderOk s (s.slotReg k).addr.toNat (fromLE b)) :
    s.seqGo k =
      let started := s.setSched k (startedSlot (s.slotReg k) (fromLE b))
      if s.boundKernel (field (fromLE b) 0 12) = none then started.schedFail k 0 0xFE else started := by
  obtain ⟨halign, hhigh, hres, hone, hsome, hmost, hopen, hheld⟩ := hok
  have hbound : ∀ x, (s.setSched k x).boundKernel = s.boundKernel := fun _ => rfl
  have hrange : ∀ x, (s.setSched k x).rangeHeld = s.rangeHeld := fun _ => rfl
  simp only [State.seqGo, h, hread, if_false, halign, hhigh, hres, hone, hsome, Nat.not_lt.mpr hmost, hopen, hheld, hbound, hrange, startedSlot,
    ne_eq, not_true_eq_false, Bool.false_eq_true, or_self]
  cases s.boundKernel (field (fromLE b) 0 12) <;> simp

/-! #### A step's turn -/

/-- The next step of slot `k` is `r` and may start, for kernel `kn` (R314, R315). -/
structure StepTurn (s : State) (k r : Nat) (kn : Kernel) : Prop where
  running : (s.slotReg k).state = 1
  inside : (s.slotReg k).stepIndex < (s.slotReg k).steps
  fetched : s.schedStep (s.slotReg k) (s.slotReg k).stepIndex = (r, false)
  wellFormed : s.stepOk (s.slotReg k).group r = true
  groupOpen : grpState (s.groupEntry (s.slotReg k).group) = 1
  fence : r.testBit 7 = true → (s.slotReg k).inFlight = []
  room : (s.slotReg k).inFlight.length < 64
  bound : ∃ id, s.boundKernel (s.slotReg k).group = some (id, kn)

/-- A slot with a step to start is running and not at its end. -/
theorem StepTurn.not_idle {s : State} {k r : Nat} {kn : Kernel} (h : StepTurn s k r kn) :
    ¬ ((s.slotReg k).state ≠ 1 ∨ (s.slotReg k).stepIndex ≥ (s.slotReg k).steps) :=
  fun c => c.elim (· h.running) (Nat.not_le.mpr h.inside)

/-- Neither its fence nor the limit of 64 in flight holds a step back in its turn (R315). -/
theorem StepTurn.not_held {s : State} {k r : Nat} {kn : Kernel} (h : StepTurn s k r kn) :
    ¬ ((r.testBit 7 = true ∧ (s.slotReg k).inFlight ≠ []) ∨ (s.slotReg k).inFlight.length ≥ 64) :=
  fun c => c.elim (fun f => f.2 (h.fence f.1)) (Nat.not_le.mpr h.room)

theorem schedRun_idle {s : State} {hub slot : Nat} (h : (s.slotReg (16 * hub + slot)).state ≠ 1 ∨
    (s.slotReg (16 * hub + slot)).steps ≤ (s.slotReg (16 * hub + slot)).stepIndex) (op : Nat) : s.schedRun hub slot op = s := by
  simp only [State.schedRun, ge_iff_le, h, if_true]

/-- A step of another kind than the one whose turn it is does nothing (R315). -/
theorem schedRun_other_kind {s : State} {hub slot r op : Nat} {kn : Kernel} (h : StepTurn s (16 * hub + slot) r kn) (hop : stepOp r ≠ op) :
    s.schedRun hub slot op = s := by
  simp only [State.schedRun, if_neg h.not_idle, h.fetched, h.wellFormed, h.groupOpen, hop, ne_eq, not_true_eq_false, not_false_eq_true, Bool.not_true,
    Bool.false_eq_true, or_self, true_or, if_false, if_true]

/-- The key a step names, or its member's (R314). -/
def stepKey (s : State) (k r : Nat) : Nat :=
  let g := (s.slotReg k).group
  if field r 352 32 = 0 then field (s.member g (stepMember s g r)) 224 32 else field r 352 32

/-- A started step in flight, its packets on the member's flow (R315). -/
def stepSends (s : State) (hub slot r : Nat) (ps : List (Nat × Nat × Nat × Nat × Nat × Nat × Nat × Bytes)) : State :=
  let k := 16 * hub + slot
  let x := s.slotReg k
  (s.schedAdvance k (some s.net.nextOp)).startOp (flowKey hub x.group (stepMember s x.group r)) (.schedule hub slot x.stepIndex) false ps

/-- A PUT or REDUCE step: its bytes in packets that end at the 4 KiB boundaries of the remote offset (R295, R314). -/
def stepTransfers (s : State) (hub slot op r : Nat) : State :=
  let k := 16 * hub + slot
  let n := field r 320 32
  let (b, poisoned) := s.peekBytes (field r 448 64) n
  let fl := if r.testBit 8 then 0x80 else 0
  let arg := if op = 2 then field r 20 4 <<< 60 ||| field r 16 4 <<< 56 else 0
  if poisoned then s.schedFail k (s.slotReg k).stepIndex 5
  else if n = 0 then s.schedAdvance k none
  else stepSends s hub slot r ((splitRemote (n / 4096 + 2) 0 (field r 384 64) n).map fun (l, a, len) =>
    (if op = 2 then 6 else 1, fl, stepKey s k r, a, len, if fl = 0 then 0 else field r 288 32, arg, slice b l len))

/-- What a step does in its turn, before its slot settles. -/
def stepEffect (s : State) (hub slot op r : Nat) (kn : Kernel) : State :=
  let k := 16 * hub + slot
  match op with
  | 0 => s.schedAdvance k none
  | 4 => match kn.tallyOf (field r 288 32) 4 with
    | none => s.schedFail k (s.slotReg k).stepIndex 7
    | some (d, i) => if field r 448 64 ≤ s.tallyValue d i then s.schedAdvance k none else s
  | 3 => stepSends s hub slot r [(7, 0, stepKey s k r, 0, 0, field r 288 32, field r 256 32, [])]
  | _ => stepTransfers s hub slot op r

/-- The step whose turn it is takes effect, and its slot settles (R315). -/
theorem schedRun_turn {s : State} {hub slot r op : Nat} {kn : Kernel} (h : StepTurn s (16 * hub + slot) r kn) (hop : stepOp r = op) :
    s.schedRun hub slot op = (stepEffect s hub slot op r kn).schedSettle (16 * hub + slot) := by
  obtain ⟨id, hbound⟩ := h.bound
  simp only [State.schedRun, if_neg h.not_idle, h.fetched, h.wellFormed, h.groupOpen, hop, if_neg h.not_held, hbound, ne_eq, not_true_eq_false, Bool.not_true,
    Bool.false_eq_true, or_self, false_or, if_false]
  rfl

/-- A WAIT passes once the tally it names is there (R315). -/
theorem stepEffect_wait {s : State} {r d i : Nat} {kn : Kernel} (h : kn.tallyOf (field r 288 32) 4 = some (d, i)) (hub slot : Nat) :
    stepEffect s hub slot 4 r kn = if field r 448 64 ≤ s.tallyValue d i then s.schedAdvance (16 * hub + slot) none else s := by
  simp only [stepEffect, h]

theorem stepTransfers_empty {s : State} {r : Nat} {b : Bytes} (hread : s.peekBytes (field r 448 64) (field r 320 32) = (b, false))
    (hn : field r 320 32 = 0) (hub slot op : Nat) : stepTransfers s hub slot op r = s.schedAdvance (16 * hub + slot) none := by
  simp only [stepTransfers, hread, Bool.false_eq_true, if_false, if_pos hn]

theorem stepTransfers_sends {s : State} {r : Nat} {b : Bytes} (hread : s.peekBytes (field r 448 64) (field r 320 32) = (b, false))
    (hn : field r 320 32 ≠ 0) (hub slot op : Nat) : stepTransfers s hub slot op r =
      stepSends s hub slot r ((splitRemote (field r 320 32 / 4096 + 2) 0 (field r 384 64) (field r 320 32)).map fun (l, a, len) =>
        (if op = 2 then 6 else 1, if r.testBit 8 then 0x80 else 0, stepKey s (16 * hub + slot) r, a, len,
          if (if r.testBit 8 then 0x80 else 0) = 0 then 0 else field r 288 32,
          if op = 2 then field r 20 4 <<< 60 ||| field r 16 4 <<< 56 else 0, slice b l len)) := by
  simp only [stepTransfers, hread, Bool.false_eq_true, if_false, if_neg hn]

/-! #### The end of a schedule -/

theorem schedSettle_unfinished {s : State} {k : Nat} (h : (s.slotReg k).stepIndex ≠ (s.slotReg k).steps) : s.schedSettle k = s := by
  simp only [State.schedSettle, h, false_and, and_false, if_false]

/-- A schedule whose steps are all done and acknowledged counts DONE and raises its interrupt (R315, R316). -/
theorem schedSettle_done {s : State} {k id d t : Nat} {kn : Kernel} (hrun : (s.slotReg k).state = 1)
    (hsteps : (s.slotReg k).stepIndex = (s.slotReg k).steps) (hacked : (s.slotReg k).inFlight = [])
    (hbound : s.boundKernel (s.slotReg k).group = some (id, kn)) (htally : kn.tallyOf (s.slotReg k).done.toNat 4 = some (d, t)) :
    s.schedSettle k = (((s.tallyInc d t 1).setSched k { s.slotReg k with state := 2 }).count 0x5050 1 1).raise (528 + k) := by
  simp only [State.schedSettle, if_pos (And.intro hrun (And.intro hsteps hacked)), hbound, htally]

/-- Settles O44: SEQ_GO, each kind of step and the end of a schedule by its own rule. -/
theorem schedules : Obligations.Schedules := by
  unfold Obligations.Schedules
  intro s hub slot width kn id r b data k x put h g ok started rows turn op m key next sent n tally fl parts
  have hgo : ∀ {u : State}, s.seqGo k = u → exec (.seqGo hub slot 8) s = .next u := fun e => congrArg _ e
  have hrows : ∀ i ∈ rows, exec i.1 s = .next (s.schedRun hub.val slot.val i.2) := by
    intro i hi
    simp only [rows, List.mem_cons, List.not_mem_nil, or_false] at hi
    rcases hi with rfl | rfl | rfl | rfl | rfl <;> rfl
  have hturn : turn → StepTurn s k r kn := fun ⟨hrun, hin, hfetch, hform, hopen, hfence, hroom, hbound⟩ =>
    ⟨hrun, hin, hfetch, hform, hopen, hfence, hroom, id, hbound⟩
  have heffect : ∀ {c : Instr} {code : Nat} {u : State}, exec c s = .next (s.schedRun hub.val slot.val code) → turn → op = code →
      stepEffect s hub.val slot.val code r kn = u → exec c s = .next (u.schedSettle k) :=
    fun hc ht hop hu => hu ▸ hc.trans (congrArg _ (schedRun_turn (hturn ht) hop))
  refine ⟨fun hw => congrArg _ (if_neg hw), fun hrun => hgo (seqGo_running hrun), fun hidle hread hok => ⟨fun hb => ?_, fun hb => ?_⟩,
    fun hidle i hi => (hrows i hi).trans (congrArg _ (schedRun_idle hidle i.2)),
    fun ht i hi hop => (hrows i hi).trans (congrArg _ (schedRun_other_kind (hturn ht) (Ne.symm hop))),
    fun ht hop => heffect rfl ht hop rfl, fun ht hop => heffect rfl ht hop rfl, fun d t ht hop htally => ⟨fun hle => ?_, fun hlt => ?_⟩,
    fun ht hread => ⟨fun hop hn => ?_, fun hop hn => ?_, fun hop hn => ?_, fun hop hn => ?_⟩,
    fun hrun hsteps hacked hbound d t htally => schedSettle_done hrun hsteps hacked hbound htally⟩
  · exact hgo ((seqGo_starts hidle hread hok).trans (if_neg (Option.ne_none_iff_exists'.mpr ⟨_, hb⟩)))
  · exact hgo ((seqGo_starts hidle hread hok).trans (if_pos hb))
  · exact heffect rfl ht hop ((stepEffect_wait htally ..).trans (if_pos hle))
  · have hstays : stepEffect s hub.val slot.val 4 r kn = s := (stepEffect_wait htally ..).trans (if_neg (Nat.not_le.mpr hlt))
    exact (heffect rfl ht hop hstays).trans (congrArg _ (schedSettle_unfinished (Nat.ne_of_lt (hturn ht).inside)))
  · exact heffect rfl ht hop (stepTransfers_empty hread hn ..)
  · exact heffect rfl ht hop (stepTransfers_sends hread hn ..)
  · exact heffect rfl ht hop (stepTransfers_empty hread hn ..)
  · exact heffect rfl ht hop (stepTransfers_sends hread hn ..)

end Sys2Proof.Proofs
